-- ==== Sys2Proof/Word.lean ====
section
/-! DEFINITION. The plain words of the model: bytes, bit fields, little-endian order (R7), serial-number
comparison (R414), saturating sums, and sparse tables held as sorted lists of key and value. -/

namespace Sys2Proof

/-- One byte. -/
abbrev Byte := BitVec 8

/-- Bits `hi` down to `lo` of a number, as an unsigned integer (the notation of 00_scope, section Notation). -/
def bitField (v hi lo : Nat) : Nat := (v / 2 ^ lo) % 2 ^ (hi + 1 - lo)

/-- Bit `i` of a number. -/
def bitAt (v i : Nat) : Bool := (v / 2 ^ i) % 2 == 1

/-- A flag as a number. -/
def flagNat (b : Bool) : Nat := if b then 1 else 0

/-- The number a list of bytes spells, lowest byte first (R7). -/
def leNat : List Byte → Nat
  | [] => 0
  | b :: bs => b.toNat + 256 * leNat bs

/-- The `n` bytes of a number, lowest byte first (R7). -/
def leBytes : Nat → Nat → List Byte
  | 0, _ => []
  | n + 1, v => BitVec.ofNat 8 v :: leBytes n (v / 256)

/-- The number a list of bytes spells, highest byte first (the RSA values of chapter 16). -/
def beNat (bs : List Byte) : Nat := leNat bs.reverse

/-- `a` is newer than `b` by serial-number arithmetic at width `n` (R414). -/
def serialNewer (n a b : Nat) : Bool :=
  let d := (a + 2 ^ n - b % 2 ^ n) % 2 ^ n
  1 ≤ d && d ≤ 2 ^ (n - 1) - 1

/-- A sum that saturates at the largest value of `n` bits. -/
def satAdd (n a b : Nat) : Nat := min (a + b) (2 ^ n - 1)

/-- `⌈a / b⌉`. -/
def ceilDiv (a b : Nat) : Nat := (a + (b - 1)) / b

/-- An integer clamped to a range (`sat` of 00_scope). -/
def clampInt (x lo hi : Int) : Int := max lo (min x hi)

/-- The two's-complement value of the low `n` bits of a number. -/
def signedOf (n v : Nat) : Int :=
  let u := v % 2 ^ n
  if u < 2 ^ (n - 1) then (u : Int) else (u : Int) - (2 ^ n : Nat)

/-- The low `n` bits of an integer, as an unsigned number. -/
def unsignedOf (n : Nat) (x : Int) : Nat := (x % ((2 ^ n : Nat) : Int)).toNat

/-- A sparse table: keys and values, keys strictly rising. -/
abbrev Tab (α : Type) := List (Nat × α)

/-- The entry at a key, or `d` where the table lists none. -/
def tabGet {α : Type} (d : α) : Tab α → Nat → α
  | [], _ => d
  | (k, v) :: t, i => if k = i then v else tabGet d t i

/-- The entry at a key, if the table lists one. -/
def tabFind {α : Type} : Tab α → Nat → Option α
  | [], _ => none
  | (k, v) :: t, i => if k = i then some v else tabFind t i

/-- The table with one entry set, keys kept rising. -/
def tabSet {α : Type} : Tab α → Nat → α → Tab α
  | [], i, x => [(i, x)]
  | (k, v) :: t, i, x =>
    if k < i then (k, v) :: tabSet t i x
    else if k = i then (i, x) :: t
    else (i, x) :: (k, v) :: t

/-- The table with one entry removed. -/
def tabDel {α : Type} (t : Tab α) (i : Nat) : Tab α := t.filter (fun e => e.1 ≠ i)

/-- The table with the entries of a range of keys removed. -/
def tabDelRange {α : Type} (t : Tab α) (lo hi : Nat) : Tab α := t.filter (fun e => !(lo ≤ e.1 && e.1 < hi))

/-- The first `n` members of a list that satisfy a test, with a bound on how far to look. -/
def firstThat {α : Type} (p : α → Bool) (l : List α) : Option α := l.find? p

/-- A list with the member at an index replaced. -/
def listSet {α : Type} : List α → Nat → α → List α
  | [], _, _ => []
  | _ :: l, 0, x => x :: l
  | y :: l, n + 1, x => y :: listSet l n x

/-- The numbers of a set of bits. -/
def bitsOf (w v : Nat) : List Nat := (List.range w).filter (bitAt v)

/-- The number of ones among the low `w` bits. -/
def popCount (w v : Nat) : Nat := (bitsOf w v).length

end Sys2Proof
end

