-- ==== Sys2Proof/Syntax/Types.lean ====
section
/-! DEFINITION. The operand types of the commands: requesters (R32, R33), the block pages of R421, the health of a stored
line (R408), what a descriptor read brings (R347, R349), and what an executing command meets from outside (R90, R352). -/

namespace Sys2Proof

/-- Who makes a register access (R32, R33, R426). -/
inductive Requester where
  | mgmt
  | pf (port : Nat)
  | vf (port i : Nat)
  | jtag
deriving DecidableEq, Repr

/-- A number for a requester: a function is `32 · port + function number` (R312, FUNC), management 64, JTAG 65. -/
def Requester.code : Requester → Nat
  | .mgmt => 64
  | .pf p => 32 * p
  | .vf p i => 32 * p + i
  | .jtag => 65

/-- The blocks that have pages (R421). -/
inductive Block where
  | foxglove | sorrel | campion | clkgen | spare | tansy | evt | hbmmap | teasel | coll | vetchFab | pcie | part | gate
  | serve | hbm | ddr | cowslip | vetch | meadow | cdma
deriving DecidableEq, Repr

/-- Every block, in the order of the table of R421. -/
def Block.all : List Block :=
  [.foxglove, .sorrel, .campion, .clkgen, .spare, .tansy, .evt, .hbmmap, .teasel, .coll, .vetchFab, .pcie, .part, .gate,
   .serve, .hbm, .ddr, .cowslip, .vetch, .meadow, .cdma]

/-- The frame index of instance 0 (R421). -/
def Block.base : Block → Nat
  | .foxglove => 0x000 | .sorrel => 0x001 | .campion => 0x002 | .clkgen => 0x003 | .spare => 0x004 | .tansy => 0x005
  | .evt => 0x006 | .hbmmap => 0x007 | .teasel => 0x008 | .coll => 0x009 | .vetchFab => 0x00A | .pcie => 0x010
  | .part => 0x020 | .gate => 0x030 | .serve => 0x040 | .hbm => 0x060 | .ddr => 0x070 | .cowslip => 0x080
  | .vetch => 0x0A0 | .meadow => 0x100 | .cdma => 0x200

/-- The number of instances (R421). -/
def Block.instances : Block → Nat
  | .pcie => 2 | .part => 16 | .gate => 16 | .serve => 16 | .hbm => 12 | .ddr => 12 | .cowslip => 12 | .vetch => 24
  | .meadow => 96 | .cdma => 96
  | _ => 1

/-- The BLOCK_TYPE code (R421). -/
def Block.typeCode : Block → Nat
  | .foxglove => 0x0801 | .sorrel => 0x0802 | .campion => 0x0701 | .clkgen => 0x0702 | .spare => 0x0803 | .tansy => 0x0502
  | .evt => 0x0503 | .hbmmap => 0x0203 | .teasel => 0x0301 | .coll => 0x0303 | .vetchFab => 0x0402 | .pcie => 0x0601
  | .part => 0x0501 | .gate => 0x0302 | .serve => 0x0304 | .hbm => 0x0201 | .ddr => 0x0202 | .cowslip => 0x0103
  | .vetch => 0x0401 | .meadow => 0x0101 | .cdma => 0x0102

/-- N_IRQ (R424). -/
def Block.nIrq : Block → Nat
  | .foxglove => 7 | .sorrel => 3 | .campion => 9 | .clkgen => 3 | .spare => 3 | .tansy => 3 | .evt => 2 | .hbmmap => 2
  | .teasel => 5 | .coll => 6 | .vetchFab => 4 | .pcie => 6 | .part => 7 | .gate => 6 | .serve => 5 | .hbm => 5
  | .ddr => 5 | .cowslip => 5 | .vetch => 6 | .meadow => 5 | .cdma => 4

/-- N_CTR (R424). -/
def Block.nCtr : Block → Nat
  | .sorrel => 1 | .clkgen => 4 | .spare => 0 | .tansy => 4 | .evt => 1 | .hbmmap => 0
  | _ => 8

/-- PERT_CAP (R417, R424). -/
def Block.pertCap : Block → Nat
  | .teasel => 0x2F | .coll => 0x67 | .hbm => 0x0B | .ddr => 0x0B | .cowslip => 0x2F | .vetch => 0x18 | .meadow => 0x27
  | .cdma => 0x0F
  | _ => 0

/-- TAGGABLE (R424). -/
def Block.taggable : Block → Bool
  | .part => true | .gate => true | .serve => true | .meadow => true | .cdma => true
  | _ => false

/-- A block page: the block and its instance. -/
structure Page where
  blk : Block
  inst : Nat
deriving DecidableEq, Repr

/-- The page's frame index (R421). -/
def Page.frame (p : Page) : Nat := p.blk.base + p.inst

/-- The page at a frame index, if one is placed there (R421, R422). -/
def Page.ofFrame (f : Nat) : Option Page :=
  (Block.all.find? (fun b => b.base ≤ f && f < b.base + b.instances)).map (fun b => { blk := b, inst := f - b.base })

/-- The page exists. -/
def Page.ok (p : Page) : Bool := p.inst < p.blk.instances

/-- Where an access is made: the control window (a function's BAR0 in its own view, or control addresses), the function's
BAR2 (R341), the event table's memory (R46), or the function's configuration space (R336, R338). -/
inductive Space where
  | control
  | bar2
  | event
  | config
  | memory
deriving DecidableEq, Repr

/-- What a stored line holds against its check code (R152, R158, R408): good, an error the code corrects, with the places it
changed, one the code detects and cannot correct, or poison. A place is a symbol of a DRAM line, and on chip 72 · word + bit, or
39 · word + bit in a wide buffer. -/
inductive Health where
  | good
  | ce (places : List Nat)
  | ue
  | poison
deriving DecidableEq, Repr

/-- An event of the world outside the spec: places of the stored line of a physical byte key change, or the line is read from a
wrong address. -/
structure Upset where
  key : Nat
  places : List Nat
  misread : Bool := false
deriving DecidableEq, Repr

/-- How a read of host memory ended (R349, R352). -/
inductive HostRead where
  | data (bytes : List Byte)
  | unsupported
  | abort
  | timeout
  | poisoned
deriving DecidableEq, Repr

/-- What a running command meets that the model does not compute: freeze beats of its feeders and its drains (R90, R127), those of the
units after its first where they differ (`more`), upsets in the stored lines, and the host's answer to a host read (R352). -/
structure Env where
  feed : Nat
  drain : Nat
  upsets : List Upset
  host : HostRead
  banks : List (Nat × Nat) := []
  more : List (Nat × Nat) := []
deriving DecidableEq, Repr

/-- What the unit at a place of a command's list of units meets: each has a handshake of its own (R88, R90). -/
def Env.unit (e : Env) (i : Nat) : Env :=
  match i with
  | 0 => e
  | i + 1 => let u := e.more.getD i (e.feed, e.drain)
    { e with feed := u.1, drain := u.2 }

/-- The same with every drain held for some more beats (R188). -/
def Env.held (e : Env) (n : Nat) : Env := { e with drain := e.drain + n, more := e.more.map (fun u => (u.1, u.2 + n)) }

/-- Nothing of the outside world meets the step. -/
def Env.quiet : Env := { feed := 0, drain := 0, upsets := [], host := .timeout }

/-- What a self-test finds in a physical unit (R405, R406): bad columns of one array, or a fault beyond column bypass or row
redundancy. Physical cells are 52 · die + index, stack engines 104 + s. -/
inductive Finding where
  | columns (phys : Nat) (arrayB : Bool) (cols : List Nat)
  | broken (phys : Nat)
deriving DecidableEq, Repr

/-- The physical unit a finding is about. -/
def Finding.phys : Finding → Nat
  | .columns ph _ _ => ph
  | .broken ph => ph

/-- A DIMM as its SPD hub describes it (R155, R156): its channel, whether it is a registered ECC DIMM of JEDEC DDR5 without
stacking, capacity in GB, ranks, ×8 organisation, and the highest transfer rate it supports in MT/s. -/
structure Dimm where
  channel : Nat
  kindOk : Bool
  gb : Nat
  ranks : Nat
  x8 : Bool
  mts : Nat
deriving DecidableEq, Repr

/-- What the lanes of a port show at an evaluation: lanes with signal, lanes whose PMD training is complete, logical lanes
locked and deskewed, and whether the order is reversed. -/
structure LaneView where
  signal : Nat
  pmd : Nat
  locked : Nat
  reversed : Bool
deriving DecidableEq, Repr

end Sys2Proof
end

