-- ==== Sys2Proof/Syntax.lean ====
section
/-! DEFINITION. The commands of the block: one constructor per row of spec/opcode_table.json, in its order, with the row's
operands. A command row that runs a fetched descriptor carries its number among the fetched commands; a row that is an
access carries who makes it; what the outside world decides (a measurement, a finding, whether programming a fuse succeeded,
what a host read brings) is an operand. -/

namespace Sys2Proof

/-- The commands, one per row of the opcode table. -/
inductive Instr where
  -- Registers, events and requests to power states
  /-- REG_WRITE (R33). -/
  | regWrite (requester : Requester) (space : Space) (off width value : Nat)
  /-- COUNTER_LO_READ (R32). -/
  | counterLoRead (requester : Requester) (space : Space) (off width : Nat)
  /-- SOFT_RESET (R28). -/
  | softReset (requester : Requester) (page : Page)
  /-- SOFT_RESET_DONE (R28). -/
  | softResetDone (page : Page)
  /-- CTR_CLR (R32). -/
  | ctrClr (requester : Requester) (page : Page)
  /-- QUIESCE (R29). -/
  | quiesce (requester : Requester) (page : Page) (on : Bool)
  /-- IRQ_CLR (R30). -/
  | irqClr (requester : Requester) (page : Page) (mask : Nat)
  /-- EVT_SIGNAL (R46). -/
  | evtSignal (requester : Requester) (value : Nat)
  /-- EVT_RESET (R46). -/
  | evtReset (requester : Requester) (value : Nat)
  /-- WIN_ENABLE (R149). -/
  | winEnable (requester : Requester) (on : Bool)
  /-- SEG_OWNER_WRITE (R309). -/
  | segOwnerWrite (requester : Requester) (engine off value : Nat)
  /-- PORT_ENABLE (R250). -/
  | portEnable (requester : Requester) (port : Nat) (on : Bool)
  /-- RETRAIN (R250). -/
  | retrain (requester : Requester) (port : Nat)
  /-- DEVICE_ID_WRITE (R251). -/
  | deviceIdWrite (requester : Requester) (value : Nat)
  /-- ELOG_CLEAR (R411). -/
  | elogClear (requester : Requester) (page : Page)
  /-- SELFTEST_START (R405). -/
  | selftestStart (requester : Requester) (value : Nat)
  /-- SELFTEST_DONE (R406). -/
  | selftestDone (findings : List Finding)
  /-- STANDBY_REQUEST (R368). -/
  | standbyRequest (requester : Requester)
  /-- RUN_REQUEST (R367). -/
  | runRequest (requester : Requester) (findings : List Finding)
  /-- OFF_HOT_REQUEST (R369). -/
  | offHotRequest (requester : Requester)
  /-- DEV_RESET_WRITE (R357). -/
  | devResetWrite (requester : Requester) (value : Nat) (findings : List Finding)
  /-- WDT_KICK (R415). -/
  | wdtKick (requester : Requester) (value : Nat)
  /-- PERT_ARM (R418). -/
  | pertArm (requester : Requester) (page : Page) (off value : Nat)
  -- Host interface
  /-- SQ_TAIL_DOORBELL (R346). -/
  | sqTailDoorbell (fn queue value : Nat)
  /-- CQ_HEAD_DOORBELL (R346). -/
  | cqHeadDoorbell (fn queue value : Nat)
  /-- SQ_ENABLE (R345). -/
  | sqEnable (fn queue value : Nat)
  /-- SQ_DISABLE (R349). -/
  | sqDisable (fn queue value : Nat)
  /-- CQ_ENABLE (R345). -/
  | cqEnable (fn queue value : Nat)
  /-- CQ_DISABLE (R349). -/
  | cqDisable (fn queue value : Nat)
  /-- MSIX_UNMASK (R351). -/
  | msixUnmask (fn vector : Nat)
  /-- BAR4_READ (R343). -/
  | bar4Read (fn off len : Nat)
  /-- BAR4_WRITE (R343). -/
  | bar4Write (fn off : Nat) (bytes : List Byte)
  /-- DESCRIPTOR_FETCH (R347). -/
  | descriptorFetch (fn queue : Nat)
  /-- DESCRIPTOR_READ_DONE (R349). -/
  | descriptorReadDone (fn queue : Nat) (result : HostRead)
  -- The life of a command
  /-- COMMAND_START (R36). -/
  | commandStart (cmd : Nat)
  /-- COMMAND_COMMIT (R38). -/
  | commandCommit (cmd : Nat) (written : Bool)
  /-- PENDING_RECORD_WRITE (R348). -/
  | pendingRecordWrite (fn queue : Nat) (written : Bool)
  /-- CQ_COAL_TIMER (R348). -/
  | cqCoalTimer (fn queue : Nat)
  /-- NOP (R35). -/
  | nop (cmd : Nat)
  /-- EVENT_RESET (R47). -/
  | eventReset (cmd : Nat)
  -- Arrays and training
  /-- ARRAY_MM (R85). -/
  | arrayMm (cmd : Nat) (env : Env)
  /-- ARRAY_EW (R94). -/
  | arrayEw (cmd : Nat) (env : Env)
  /-- BWD_FUSED (R194). -/
  | bwdFused (cmd : Nat) (env : Env)
  /-- MM_GRAD (R197). -/
  | mmGrad (cmd : Nat) (env : Env)
  /-- VEC_ACT (R200). -/
  | vecAct (cmd : Nat) (env : Env)
  /-- VEC_DACT (R201). -/
  | vecDact (cmd : Nat) (env : Env)
  /-- VEC_ARGMAX (R203). -/
  | vecArgmax (cmd : Nat) (env : Env)
  /-- GRAD_SUMSQ (R215). -/
  | gradSumsq (cmd : Nat) (env : Env)
  /-- OPT_UPDATE (R208). -/
  | optUpdate (cmd : Nat) (env : Env)
  /-- GATE_CFG (R211). -/
  | gateCfg (cmd : Nat)
  /-- GATE_OPEN (R210). -/
  | gateOpen (cmd : Nat)
  /-- GATE_SEAL (R216). -/
  | gateSeal (cmd : Nat)
  /-- GATE_CLOSE (R217). -/
  | gateClose (cmd : Nat) (env : Env)
  -- Moves
  /-- DMA_MOVE (R133). -/
  | dmaMove (cmd : Nat) (env : Env)
  /-- GRADBUF_ZERO (R143). -/
  | gradbufZero (cmd : Nat)
  /-- RESID_DROP (R143). -/
  | residDrop (cmd : Nat)
  -- The soft-target bridge
  /-- RING_OPEN (R173). -/
  | ringOpen (cmd : Nat)
  /-- RING_RESET (R173). -/
  | ringReset (cmd : Nat)
  /-- HEAD_TEACHER (R182). -/
  | headTeacher (cmd : Nat) (env : Env)
  /-- TEACHER_HOLD_RELEASE (R188). -/
  | teacherHoldRelease (cmd beats : Nat) (env : Env)
  /-- HEAD_PASS1 (R184). -/
  | headPass1 (cmd : Nat) (env : Env)
  /-- HEAD_PASS2 (R185). -/
  | headPass2 (cmd : Nat) (env : Env)
  -- Serving
  /-- ENG_MOVE (R281). -/
  | engMove (cmd : Nat) (env : Env)
  /-- ENG_KV_APPEND (R288). -/
  | engKvAppend (cmd : Nat) (env : Env)
  /-- ENG_ATTEND (R289). -/
  | engAttend (cmd : Nat) (env : Env)
  /-- SERVE_CFG (R283). -/
  | serveCfg (cmd : Nat)
  /-- REQ_JOIN (R292). -/
  | reqJoin (cmd : Nat)
  /-- REQ_LEAVE (R293). -/
  | reqLeave (cmd : Nat)
  /-- ROUND_BEGIN (R294). -/
  | roundBegin (cmd : Nat) (env : Env) (heads : List (Nat × HostRead))
  /-- ROUND_COMMIT (R297). -/
  | roundCommit (cmd : Nat) (env : Env)
  /-- SPEC_ENABLE (R301). -/
  | specEnable (cmd : Nat)
  /-- TOKEN_VECTOR_TIMER (R307). -/
  | tokenVectorTimer (part vector : Nat)
  -- Collectives
  /-- COLL_GROUP_SET (R254). -/
  | collGroupSet (cmd : Nat)
  /-- COLL_GROUP_FREE (R254). -/
  | collGroupFree (cmd : Nat)
  /-- COLL_LAUNCH (R259). -/
  | collLaunch (cmd : Nat)
  /-- COLL_LOCAL_PHASE (R260). -/
  | collLocalPhase (cmd : Nat) (env : Env)
  /-- COLL_GATHER (R275). -/
  | collGather (cmd : Nat) (env : Env)
  /-- GATHER_TAKE (R275). -/
  | gatherTake (cmd : Nat) (env : Env)
  -- Tansy
  /-- TABLE_LOAD (R51). -/
  | tableLoad (cmd : Nat) (env : Env)
  /-- TABLE_LOAD_SHADOW_TAKE (R51). -/
  | tableLoadShadowTake (cmd : Nat)
  /-- TABLE_ACTIVATE (R51). -/
  | tableActivate (cmd : Nat)
  -- Partitions
  /-- PART_FORM (R313). -/
  | partForm (cmd : Nat)
  /-- PART_SET (R313). -/
  | partSet (cmd : Nat)
  /-- PART_REGION (R315). -/
  | partRegion (cmd : Nat)
  /-- PART_TEARDOWN (R317). -/
  | partTeardown (cmd : Nat)
  /-- PART_RESET (R331). -/
  | partReset (cmd : Nat)
  /-- PART_YIELD (R328). -/
  | partYield (cmd : Nat)
  /-- PROG_BIND (R324). -/
  | progBind (cmd : Nat)
  /-- GRANT_EVALUATE (R322). -/
  | grantEvaluate
  /-- SPILL_BEGIN (R325). -/
  | spillBegin (part : Nat)
  /-- SPILL_DONE (R325). -/
  | spillDone (part : Nat)
  /-- PREEMPT_DEADLINE_EXPIRE (R326). -/
  | preemptDeadlineExpire (part : Nat)
  /-- RESTORE_DONE (R327). -/
  | restoreDone (part : Nat)
  /-- COMMAND_WATCHDOG_EXPIRE (R330). -/
  | commandWatchdogExpire (cmd : Nat)
  /-- REGULATOR_REFILL (R319). -/
  | regulatorRefill
  -- Links
  /-- PORT_STATE_EVAL (R226). -/
  | portStateEval (port : Nat) (view : LaneView)
  /-- TRAIN_STATE_TIMEOUT (R225). -/
  | trainStateTimeout (port : Nat) (view : LaneView)
  /-- FLIT_RECEIVE (R230). -/
  | flitReceive (port : Nat) (bytes : List Byte) (hit : Bool) (corrected uncorrected : Nat)
  /-- REPLAY_TIMEOUT (R232). -/
  | replayTimeout (port : Nat)
  /-- FEC_WINDOW_CHECK (R234). -/
  | fecWindowCheck (port : Nat)
  /-- PACKET_ROUTE (R241): of a port's receive buffers or of what is issued here; `places` are those changed in the words of a buffer (R408). -/
  | packetRoute (inPort : Option Nat) (places : List Nat)
  /-- WRITE (R244). -/
  | write (index : Nat) (env : Env)
  /-- READ (R244). -/
  | read (index : Nat) (env : Env)
  /-- ATOMIC (R244). -/
  | atomic (index : Nat) (env : Env)
  /-- REDUCE_ADD (R268). -/
  | reduceAdd (index : Nat)
  /-- EVENT_SIGNAL (R244). -/
  | eventSignal (index : Nat)
  /-- RESPONSE (R247). -/
  | response (index : Nat)
  /-- SCALAR_RECORD (R273). -/
  | scalarRecord (index : Nat)
  /-- SCALAR_RESULT (R273). -/
  | scalarResult (index : Nat)
  /-- TXN_TIMEOUT (R247). -/
  | txnTimeout (tag : Nat)
  /-- SEAL_TIMEOUT (R269). -/
  | sealTimeout (part : Nat)
  /-- FOLD_WINDOW_EXPIRE (R270). -/
  | foldWindowExpire (part : Nat)
  /-- RESULT_TIMEOUT (R271). -/
  | resultTimeout (part : Nat)
  -- Memory tiers
  /-- REFRESH_DUE (R151). -/
  | refreshDue (tier bank : Nat) (pending hot : Bool) (ecs : Nat)
  /-- ROW_IDLE_CLOSE (R151). -/
  | rowIdleClose (tier bank : Nat)
  /-- PATROL_SCRUB_READ (R154). -/
  | patrolScrubRead (tier : Nat) (upsets : List Upset)
  /-- SRAM_SCRUB (R408). -/
  | sramScrub (addr : Nat) (upsets : List Upset)
  /-- HBM_INIT_DONE (R159). -/
  | hbmInitDone (failed : List Nat)
  /-- DDR_INIT_DONE (R160). -/
  | ddrInitDone (failed : List Nat)
  -- Resets, power, clocks
  /-- DEVICE_RESET (R357). -/
  | deviceReset (pin : Bool) (findings : List Finding)
  /-- BOOT_VERIFY (R387). -/
  | bootVerify (dimms : List Dimm) (unwraps : Bool)
  /-- POWER_UP (R437). -/
  | powerUp (millivolts : Nat) (smbAddr : Bool) (findings : List Finding)
  /-- POWER_DOWN (R438). -/
  | powerDown
  /-- LAST_MATE_BREAK (R430). -/
  | lastMateBreak
  /-- OVERCURRENT_TRIP (R430). -/
  | overcurrentTrip
  /-- BULK_UNDERVOLTAGE (R430). -/
  | bulkUndervoltage
  /-- INPUT_FAULT (R360). -/
  | inputFault
  /-- INPUT_FAULT_CLEAR (R360). -/
  | inputFaultClear
  /-- INPUT_BELOW_44V (R360). -/
  | inputBelow44v
  /-- INPUT_BELOW_40V (R360). -/
  | inputBelow40v
  /-- INPUT_ABOVE_62V (R360). -/
  | inputAbove62v
  /-- INPUT_MEASURE (R362). -/
  | inputMeasure (millivolts centiamps watts : Nat)
  /-- PACE_GOVERNOR_TICK (R374). -/
  | paceGovernorTick
  /-- SENSOR_SAMPLE (R377). -/
  | sensorSample (readings : List (Nat × Int))
  /-- THERMTRIP (R377). -/
  | thermtrip (sensor : Nat) (temp : Int)
  /-- PACE_MONITOR_UPDATE (R371). -/
  | paceMonitorUpdate (readings : List (Nat × Nat))
  /-- ENERGY_METER_TICK (R378). -/
  | energyMeterTick (readings : List (Nat × Nat × Nat))
  /-- DOMAIN_OFF_DELAY_EXPIRE (R364). -/
  | domainOffDelayExpire (domain : Nat)
  /-- DOMAIN_SWITCH_ON (R365). -/
  | domainSwitchOn (domain : Nat)
  /-- DOMAIN_ON_DONE (R365). -/
  | domainOnDone (domain : Nat)
  /-- DOMAIN_RAMP_TIMEOUT (R366). -/
  | domainRampTimeout (domain : Nat)
  /-- PLL_LOCK_LOSS (R381). -/
  | pllLockLoss (pll : Nat)
  /-- PLL_RELOCK (R381). -/
  | pllRelock (pll : Nat)
  /-- PCIE_PORT_RESET (R354). -/
  | pciePortReset (port : Nat) (perst : Bool)
  /-- PCIE_LINK_TRAINED (R337). -/
  | pcieLinkTrained (port rate width : Nat) (flit : Bool) (replays : Nat)
  /-- FUNCTION_LEVEL_RESET (R355). -/
  | functionLevelReset (fn : Nat)
  /-- HUB_FATAL (R358). -/
  | hubFatal (cause : Nat)
  /-- MGMT_WDT_EXPIRE (R415). -/
  | mgmtWdtExpire
  -- Security
  /-- ID_GENERATE (R392). -/
  | idGenerate (requester : Requester) (ok : Bool)
  /-- ID_CHAIN (R392). -/
  | idChain (requester : Requester) (ok : Bool)
  /-- LC_TO_VENDOR (R390). -/
  | lcToVendor (requester : Requester) (ok : Bool)
  /-- OWNER_ENROL (R391). -/
  | ownerEnrol (requester : Requester) (ok : Bool)
  /-- OWNER_ROTATE (R391). -/
  | ownerRotate (requester : Requester) (ok : Bool)
  /-- LC_TO_RMA (R390). -/
  | lcToRma (requester : Requester) (ok : Bool)
  /-- LC_SCRAP (R390). -/
  | lcScrap (requester : Requester) (ok : Bool)
  /-- DBG_UNLOCK (R398). -/
  | dbgUnlock (requester : Requester)
  /-- DBG_END (R398). -/
  | dbgEnd (requester : Requester)
  /-- D3_ZEROISE_DONE (R399). -/
  | d3ZeroiseDone
  /-- FW_UPDATE (R389). -/
  | fwUpdate (requester : Requester)
  /-- FW_FLASH_WRITE_DONE (R389). -/
  | fwFlashWriteDone (ok : Bool) (dimms : List Dimm) (unwraps : Bool)
  /-- SVN_COMMIT (R389). -/
  | svnCommit (requester : Requester) (ok : Bool)
  /-- RECOVER (R388). -/
  | recover (requester : Requester)
  /-- FORCE_RECOVERY (R402). -/
  | forceRecovery (requester : Requester)
  -- Attestation and management
  /-- GET_VERSION (R393). -/
  | getVersion (transport : Nat) (msg : List Byte)
  /-- GET_CAPABILITIES (R393). -/
  | getCapabilities (transport : Nat) (msg : List Byte)
  /-- NEGOTIATE_ALGORITHMS (R393). -/
  | negotiateAlgorithms (transport : Nat) (msg : List Byte)
  /-- GET_DIGESTS (R393). -/
  | getDigests (transport : Nat) (msg : List Byte)
  /-- GET_CERTIFICATE (R393). -/
  | getCertificate (transport : Nat) (msg : List Byte)
  /-- CHALLENGE (R395). -/
  | challenge (transport : Nat) (msg : List Byte)
  /-- GET_MEASUREMENTS (R394). -/
  | getMeasurements (transport : Nat) (msg : List Byte)
  /-- SET_CERTIFICATE (R393). -/
  | setCertificate (transport : Nat) (msg : List Byte)
  /-- SPDM_UNSUPPORTED_REQUEST (R393). -/
  | spdmUnsupportedRequest (transport : Nat) (msg : List Byte)
  /-- JTAG_INSTRUCTION (R420). -/
  | jtagInstruction (code : Nat) (cells : List Bool)
  -- Rows beside the families
  /-- BUCKET_REFILL (R304). -/
  | bucketRefill
  /-- FLIT_TRANSMIT (R237). -/
  | flitTransmit (port : Nat)
  /-- RESET_N_RELEASE (R436). -/
  | resetNRelease (priSel : Bool)
  /-- PERST_N_RELEASE (R382). -/
  | perstNRelease (port : Nat) (refclk : Bool)
  /-- GLITCH_REJECT (R383). -/
  | glitchReject
  /-- DOE_DISCOVERY (R353). -/
  | doeDiscovery (port index len : Nat)
  /-- MCTP_CONTROL (R353). -/
  | mctpControl (msg : List Byte)
  /-- VF_ENABLE (R338). -/
  | vfEnable (port : Nat) (on : Bool) (count : Nat)
  /-- LAST_MATE_CONTACT (R430). -/
  | lastMateContact (millivolts : Nat) (smbAddr : Bool) (findings : List Finding)
  /-- SMBUS_ALERT_RESPONSE (R434). -/
  | smbusAlertResponse
deriving DecidableEq, Repr

end Sys2Proof
end

