-- ==== Sys2Proof/Config.lean ====
section
/-! DEFINITION. The free values of the model: constants with no body, so that no proof can know a value of one. Each is
applied to a counter held in the state or to the operands it depends on. Named in notes/assumptions. -/

namespace Sys2Proof

/-- A byte the spec leaves unspecified: the destination of a transfer that failed (R39). -/
opaque Config.freeByte : Nat → BitVec 8

/-- A random number the spec draws and does not fix: nonces (R397), salts, the generator's outputs (R392). -/
opaque Config.freeNat : Nat → Nat

/-- What the Reed-Solomon code of a DRAM line makes of an error beyond its bound (R152, R158), by the line's key and the changed
symbols: nothing, when the error is detected, or the symbols it corrects and the line it then answers. The spec does not print the
code. -/
opaque Config.miscorrected : Nat → List Nat → Option (List Nat × List (BitVec 8))

/-- Yunabex's PCI-SIG vendor ID, the revision ID and the subsystem IDs (R336): the spec prints none. -/
opaque Config.vendorId : Nat → Nat

/-- The signature the identity key of a device makes over a message (R393): the key is random, so its value is free. -/
opaque Config.signature : Nat → List (BitVec 8) → List (BitVec 8)

/-- The public key of a device's identity, given the draw that made it (R392). -/
opaque Config.publicKey : Nat → List (BitVec 8)

/-- The digest of the boot ROM, measurement block 1 (R394): the spec does not print the ROM. -/
opaque Config.romDigest : List (BitVec 8)

/-- DataTransferSize and MaxSPDMmsgSize of a transport (R393): the spec states neither. -/
opaque Config.spdmSize : Nat → Nat

end Sys2Proof
end

