-- ==== Sys2Proof/Machine/Formats.lean ====
section
/-! DEFINITION. Numeric formats (chapter 03): exact values, the format descriptor table (R56-R58), decoding and encoding
with one rounding (R60-R62), microscaling blocks (R63-R65), PB8 (R68, R69), FP32X (R70, R71), stochastic rounding
(R73, R74), and binary32 arithmetic built on exact values. -/

namespace Sys2Proof.Machine

/-- An exact value: `± m · 2^e`, an infinity, or NaN. A zero keeps its sign. -/
inductive Val where
  | num (neg : Bool) (m : Nat) (e : Int)
  | inf (neg : Bool)
  | nan
deriving DecidableEq, Repr

/-- A value that is neither infinite nor NaN. -/
def Val.finite : Val → Bool
  | .num _ _ _ => true
  | _ => false

/-- A zero of either sign. -/
def Val.isZero : Val → Bool
  | .num _ 0 _ => true
  | _ => false

/-- The sign. -/
def Val.neg : Val → Bool
  | .num n _ _ => n
  | .inf n => n
  | .nan => false

/-- The value with its sign turned. -/
def Val.negate : Val → Val
  | .num n m e => .num (!n) m e
  | .inf n => .inf (!n)
  | .nan => .nan

/-- The magnitude. -/
def Val.abs : Val → Val
  | .num _ m e => .num false m e
  | .inf _ => .inf false
  | .nan => .nan

/-- +0. -/
def Val.zero : Val := .num false 0 0

/-- An integer as an exact value. -/
def Val.ofInt (i : Int) : Val := .num (i < 0) i.natAbs 0

/-- The value times `2^k`. -/
def Val.scale (k : Int) : Val → Val
  | .num n m e => .num n m (e + k)
  | v => v

/-- `m · 2^e` as an integer at exponent `b ≤ e`. -/
def alignNat (m : Nat) (e b : Int) : Nat := m * 2 ^ (e - b).toNat

/-- `± m` as an integer. -/
def signedInt (n : Bool) (m : Nat) : Int := if n then -(m : Int) else (m : Int)

/-- The exact product: NaN absorbs, and 0 times an infinity is NaN. -/
def Val.mul : Val → Val → Val
  | .nan, _ => .nan
  | _, .nan => .nan
  | .inf a, .inf b => .inf (a != b)
  | .inf a, .num b m _ => if m = 0 then .nan else .inf (a != b)
  | .num b m _, .inf a => if m = 0 then .nan else .inf (a != b)
  | .num a m e, .num b m' e' => .num (a != b) (m * m') (e + e')

/-- The exact sum, with the zero signs of IEEE 754 addition to nearest. -/
def Val.add : Val → Val → Val
  | .nan, _ => .nan
  | _, .nan => .nan
  | .inf a, .inf b => if a = b then .inf a else .nan
  | .inf a, .num _ _ _ => .inf a
  | .num _ _ _, .inf b => .inf b
  | .num a m e, .num b m' e' =>
    if m = 0 then (if m' = 0 then .num (a && b) 0 0 else .num b m' e')
    else if m' = 0 then .num a m e
    else
      let q := min e e'
      let s := signedInt a (alignNat m e q) + signedInt b (alignNat m' e' q)
      .num (s < 0) s.natAbs q

/-- The exact difference. -/
def Val.sub (a b : Val) : Val := a.add b.negate

/-- `a < b` as real numbers with the infinities at the ends; false where either is NaN. -/
def Val.lt : Val → Val → Bool
  | .nan, _ => false
  | _, .nan => false
  | .inf a, .inf b => a && !b
  | .inf a, .num _ _ _ => a
  | .num _ _ _, .inf b => !b
  | .num a m e, .num b m' e' =>
    let q := min e e'
    signedInt a (alignNat m e q) < signedInt b (alignNat m' e' q)

/-- Equal as real numbers. -/
def Val.eqv (a b : Val) : Bool :=
  match a, b with
  | .nan, _ => false
  | _, .nan => false
  | a, b => !a.lt b && !b.lt a

/-- `floor (log2 |v|)` of a non-zero finite value. -/
def Val.log2 : Val → Int
  | .num _ m e => (Nat.log2 m : Int) + e
  | _ => 0

/-- `m · 2^sh` rounded to the nearest integer, ties to even. -/
def rneShift (m : Nat) (sh : Int) : Nat :=
  if 0 ≤ sh then m * 2 ^ sh.toNat
  else
    let k := (-sh).toNat
    if Nat.log2 m + 2 < k then 0
    else
      let d := 2 ^ k
      let q := m / d
      let r := m % d
      if 2 * r < d then q else if d < 2 * r then q + 1 else if q % 2 = 0 then q else q + 1

/-- `m · 2^sh` rounded down. -/
def floorShift (m : Nat) (sh : Int) : Nat :=
  if 0 ≤ sh then m * 2 ^ sh.toNat else
    let k := (-sh).toNat
    if Nat.log2 m < k then 0 else m / 2 ^ k

/-- The nearest integer to a finite value, ties to even. -/
def Val.rneInt : Val → Int
  | .num n m e => signedInt n (rneShift m e)
  | _ => 0

/-- `⌊v⌋` of a finite value. -/
def Val.floorInt : Val → Int
  | .num n m e =>
    let q := floorShift m e
    if n && (if 0 ≤ e then false else !(m = q * 2 ^ (-e).toNat)) then -((q : Int) + 1) else signedInt n q
  | _ => 0

/-- A format descriptor entry (R56). -/
structure Fmt where
  code : Nat
  cls : Nat
  exp : Nat
  man : Nat
  bias : Int
  elem : Nat
  hasInf : Bool
  nanMode : Nat
  sat : Bool
  block : Nat
  scaleKind : Nat
  emax : Int
  intFrac : Nat
  tail : Nat
  valid : Bool
  rsvdClear : Bool
deriving DecidableEq, Repr

/-- The 16 bytes of an entry read as a descriptor (R56). -/
def Fmt.ofBytes (b : List Byte) : Fmt :=
  let at_ (i : Nat) : Nat := (b.getD i 0).toNat
  { code := at_ 0, cls := at_ 1, exp := at_ 2, man := at_ 3, bias := signedOf 16 (at_ 4 + 256 * at_ 5), elem := at_ 6
    hasInf := bitAt (at_ 7) 0, nanMode := bitField (at_ 7) 2 1, sat := bitAt (at_ 7) 3
    block := at_ 8, scaleKind := at_ 9, emax := signedOf 8 (at_ 10), intFrac := at_ 11, tail := at_ 12
    valid := bitAt (at_ 13) 0
    rsvdClear := bitField (at_ 7) 7 4 = 0 && bitField (at_ 13) 7 1 = 0 && at_ 14 = 0 && at_ 15 = 0 }

/-- One row of the table of R57 as the 16 bytes of its entry. -/
def fmtRow (code cls exp man bias elem specials block scale emax intFrac tail : Nat) : List Byte :=
  leBytes 1 code ++ leBytes 1 cls ++ leBytes 1 exp ++ leBytes 1 man ++ leBytes 2 bias ++ leBytes 1 elem ++
    leBytes 1 specials ++ leBytes 1 block ++ leBytes 1 scale ++ leBytes 1 emax ++ leBytes 1 intFrac ++
    leBytes 1 tail ++ leBytes 1 1 ++ leBytes 2 0

/-- Entries 0x0 to 0xC as published (R57). -/
def publishedFormats : List (List Byte) :=
  [ fmtRow 0 0 8 23 127 32 3 0 0 127 0 0, fmtRow 1 0 8 7 127 16 3 0 0 127 0 0, fmtRow 2 0 5 10 15 16 3 0 0 15 0 0,
    fmtRow 3 0 4 3 7 8 12 0 0 8 0 0, fmtRow 4 0 5 2 15 8 3 0 0 15 0 0, fmtRow 5 1 4 3 7 8 12 32 1 8 0 0,
    fmtRow 6 1 3 2 3 6 8 32 1 4 0 0, fmtRow 7 1 2 3 1 6 8 32 1 2 0 0, fmtRow 8 1 2 1 1 4 8 32 1 2 0 0,
    fmtRow 9 2 0 7 0 8 8 32 1 0 6 0, fmtRow 10 4 0 7 0 8 8 32 2 0 0 0, fmtRow 11 3 0 31 0 32 8 0 0 0 0 0,
    fmtRow 12 5 8 23 127 32 3 0 0 127 0 16 ]

/-- A published format by its code (R57). -/
def Fmt.published (c : Nat) : Fmt := Fmt.ofBytes (publishedFormats.getD c [])

/-- FP32, the format of the vector units and masters. -/
def f32 : Fmt := { code := 0, cls := 0, exp := 8, man := 23, bias := 127, elem := 32, hasInf := true, nanMode := 1, sat := false, block := 0, scaleKind := 0, emax := 127, intFrac := 0, tail := 0, valid := true, rsvdClear := true }

/-- BF16. -/
def bf16 : Fmt := { f32 with code := 1, man := 7, elem := 16 }

/-- The exponent field and fraction of a format's largest finite value. -/
def Fmt.maxFields (f : Fmt) : Nat × Nat :=
  if f.nanMode = 1 then (2 ^ f.exp - 2, 2 ^ f.man - 1)
  else if f.nanMode = 2 then (2 ^ f.exp - 1, 2 ^ f.man - 2)
  else (2 ^ f.exp - 1, 2 ^ f.man - 1)

/-- The exponent of the largest finite value the other fields define (R58). -/
def Fmt.emaxDefined (f : Fmt) : Int :=
  let (e, m) := f.maxFields
  if e = 0 then (Nat.log2 m : Int) + 1 - f.bias - f.man else (e : Int) - f.bias

/-- An owner entry, 0xD to 0xF, is usable (R58). -/
def Fmt.usable (f : Fmt) (index : Nat) : Bool :=
  f.valid && f.code = index && (f.cls = 0 || f.cls = 1) && 1 ≤ f.exp && f.exp ≤ 5 && 1 ≤ f.man && f.man ≤ 5 &&
    f.elem = 1 + f.exp + f.man && (f.elem = 4 || f.elem = 6 || f.elem = 8) && f.nanMode ≤ 2 &&
    (f.hasInf == (f.nanMode = 1)) && (f.nanMode ≠ 0 || f.sat) && (f.cls ≠ 0 || f.nanMode ≠ 0) &&
    (if f.cls = 0 then f.block = 0 && f.scaleKind = 0 else f.block = 32 && f.scaleKind = 1) &&
    f.emax = f.emaxDefined && f.intFrac = 0 && f.tail = 0

/-- A format with 32-element blocks and a shared scale. -/
def Fmt.isMx (f : Fmt) : Bool := f.cls = 1 || f.cls = 2

/-- An element's bits decoded to its exact value (R60; integer elements by R63). -/
def Fmt.decode (f : Fmt) (bits : Nat) : Val :=
  if f.cls = 2 then
    let v := signedOf f.elem bits
    .num (v < 0) v.natAbs (-(f.intFrac : Int))
  else if f.cls = 3 then .ofInt (signedOf f.elem bits)
  else
    let s := bitAt bits (f.exp + f.man)
    let e := bitField bits (f.exp + f.man - 1) f.man
    let fr := bits % 2 ^ f.man
    if e = 2 ^ f.exp - 1 && f.nanMode = 1 then (if fr = 0 then .inf s else .nan)
    else if e = 2 ^ f.exp - 1 && f.nanMode = 2 && fr = 2 ^ f.man - 1 then .nan
    else if e = 0 then .num s fr (1 - f.bias - f.man)
    else .num s (2 ^ f.man + fr) ((e : Int) - f.bias - f.man)

/-- Sign, exponent field and fraction put together (R60). -/
def Fmt.pack (f : Fmt) (neg : Bool) (e fr : Nat) : Nat := flagNat neg * 2 ^ (f.exp + f.man) + e * 2 ^ f.man + fr

/-- The format's canonical NaN (R60). -/
def Fmt.canonNan (f : Fmt) : Nat :=
  if f.nanMode = 1 then f.pack false (2 ^ f.exp - 1) (2 ^ (f.man - 1)) else f.pack false (2 ^ f.exp - 1) (2 ^ f.man - 1)

/-- ± the largest finite value. -/
def Fmt.largest (f : Fmt) (neg : Bool) : Nat := f.pack neg f.maxFields.1 f.maxFields.2

/-- A value that went beyond the largest finite one, by the destination's SPECIALS (R62). -/
def Fmt.overflow (f : Fmt) (neg : Bool) : Nat :=
  if f.sat then f.largest neg else if f.hasInf then f.pack neg (2 ^ f.exp - 1) 0 else f.canonNan

/-- An exact value encoded into a scalar float format with one rounding (R61, R62). -/
def Fmt.encode (f : Fmt) : Val → Nat
  | .nan => f.canonNan
  | .inf n => f.overflow n
  | .num n m e =>
    if m = 0 then f.pack n 0 0
    else
      let emin := 1 - f.bias
      let q := max ((Nat.log2 m : Int) + e) emin - f.man
      let r := rneShift m (e - q)
      let (r, q) := if r = 2 ^ (f.man + 1) then (2 ^ f.man, q + 1) else (r, q)
      if r < 2 ^ f.man then f.pack n 0 r
      else
        let ef := (q + f.man + f.bias).toNat
        let (me, mf) := f.maxFields
        if me < ef || (ef = me && mf < r - 2 ^ f.man) then f.overflow n
        else f.pack n ef (r - 2 ^ f.man)

/-- The encoding is an infinity or a NaN. -/
def Fmt.nonFinite (f : Fmt) (bits : Nat) : Bool := !(f.decode bits).finite

/-- An element of an MX block: saturated to the element's largest finite value whatever the SAT bit (R64). -/
def Fmt.encodeElem (f : Fmt) (v : Val) : Nat :=
  if f.cls = 2 then
    unsignedOf f.elem (clampInt ((v.scale f.intFrac).rneInt) (-(2 ^ f.man : Nat)) ((2 ^ f.man - 1 : Nat) : Int))
  else ({ f with sat := true } : Fmt).encode v

/-- 32 exact values encoded into an MX block: scale code, element codes, and whether NF_SEEN is set (R64). -/
def Fmt.encodeBlock (f : Fmt) (xs : List Val) : Nat × List Nat × Bool :=
  if xs.any (fun v => !v.finite) then (0xFF, xs.map (fun _ => 0), true)
  else if xs.all Val.isZero then (0, xs.map (fun v => if f.cls = 2 then 0 else f.pack v.neg 0 0), false)
  else
    let top := (xs.filter (fun v => !v.isZero)).foldl (fun (a : Option Int) v => match a with
      | none => some v.log2
      | some b => some (max b v.log2)) none
    let s := clampInt (top.getD 0 - f.emax) (-127) 127
    ((s + 127).toNat, xs.map (fun v => f.encodeElem (v.scale (-s))), false)

/-- An element of an MX block with its scale code (R63). -/
def Fmt.decodeElem (f : Fmt) (scale bits : Nat) : Val :=
  if scale = 0xFF then .nan else (f.decode bits).scale ((scale : Int) - 127)

/-- Bits of element `i` in a packed row that starts at `base`, `rd` giving the bytes (R65). -/
def elemBits (rd : Nat → Byte) (base w i : Nat) : Nat :=
  let bit := w * i
  let first := bit / 8
  let n := (bit % 8 + w + 7) / 8
  bitField (leNat ((List.range n).map (fun j => rd (base + first + j)))) (bit % 8 + w - 1) (bit % 8)

/-- Element `i` of a row: packed at `base`, its scales at `sbase` where the format has them. -/
def rowElem (f : Fmt) (rd : Nat → Byte) (base sbase i : Nat) : Val :=
  let b := elemBits rd base f.elem i
  if f.isMx then f.decodeElem (rd (sbase + i / 32)).toNat b else f.decode b

/-- Packed bytes of element codes of `w` bits each (R65). -/
def packBits (w : Nat) (codes : List Nat) : List Byte :=
  let total := codes.foldr (fun c acc => c % 2 ^ w + 2 ^ w * acc) 0
  leBytes ((w * codes.length + 7) / 8) total

/-- A list cut into runs of `n`. -/
def chunks {α : Type} (n : Nat) : Nat → List α → List (List α)
  | 0, _ => []
  | _, [] => []
  | fuel + 1, l => l.take n :: chunks n fuel (l.drop n)

/-- Element bytes, scale bytes and NF_SEEN of a row of exact values encoded in a format (R61, R62, R64, R65). -/
def encodeRow (f : Fmt) (xs : List Val) : List Byte × List Byte × Bool :=
  if f.isMx then
    let bs := (chunks 32 (xs.length + 1) xs).map f.encodeBlock
    ((bs.map (fun b => packBits f.elem b.2.1)).flatten, bs.map (fun b => BitVec.ofNat 8 b.1), bs.any (fun b => b.2.2))
  else
    let cs := xs.map f.encode
    (if f.elem % 8 = 0 then (cs.map (fun c => leBytes (f.elem / 8) c)).flatten else packBits f.elem cs, [],
      xs.any (fun v => !v.finite) || cs.any f.nonFinite)

/-- Bytes of a row of `n` elements. -/
def Fmt.rowBytes (f : Fmt) (n : Nat) : Nat := (f.elem * n + 7) / 8

/-- Bytes of a row's scale plane. -/
def Fmt.scaleBytes (f : Fmt) (n : Nat) : Nat := if f.isMx then (n + 31) / 32 else 0

/-! ### Binary32 arithmetic: exact, then one rounding -/

/-- The exact value of binary32 bits. -/
def ofF32 (b : Nat) : Val := f32.decode (b % 2 ^ 32)

/-- An exact value rounded to binary32 bits. -/
def toF32 (v : Val) : Nat := f32.encode v

/-- binary32 addition, ties to even, canonical NaN (R112). -/
def fadd (a b : Nat) : Nat := toF32 ((ofF32 a).add (ofF32 b))

/-- binary32 subtraction. -/
def fsub (a b : Nat) : Nat := toF32 ((ofF32 a).sub (ofF32 b))

/-- binary32 multiplication. -/
def fmul (a b : Nat) : Nat := toF32 ((ofF32 a).mul (ofF32 b))

/-- Fused multiply and add: one rounding. -/
def ffma (a b c : Nat) : Nat := toF32 (((ofF32 a).mul (ofF32 b)).add (ofF32 c))

/-- A quotient with enough bits below the binary32 precision that the rounding is that of the exact one: the last bit is
sticky. -/
def Val.div (a b : Val) : Val :=
  match a, b with
  | .nan, _ => .nan
  | _, .nan => .nan
  | .inf _, .inf _ => .nan
  | .inf s, .num t _ _ => .inf (s != t)
  | .num s _ _, .inf t => .num (s != t) 0 0
  | .num s m e, .num t m' e' =>
    if m' = 0 then (if m = 0 then .nan else .inf (s != t))
    else if m = 0 then .num (s != t) 0 0
    else
      let k := Nat.log2 m' + 220
      let q := m * 2 ^ k / m'
      let r := m * 2 ^ k % m'
      .num (s != t) (2 * q + flagNat (r ≠ 0)) (e - e' - k - 1)

/-- The integer square root by bisection. -/
def isqrtGo : Nat → Nat → Nat → Nat → Nat
  | 0, _, lo, _ => lo
  | fuel + 1, n, lo, hi =>
    if hi ≤ lo + 1 then lo
    else
      let mid := (lo + hi) / 2
      if mid * mid ≤ n then isqrtGo fuel n mid hi else isqrtGo fuel n lo mid

/-- `⌊√n⌋`. -/
def isqrt (n : Nat) : Nat := isqrtGo (Nat.log2 n + 2) n 0 (2 ^ (Nat.log2 n / 2 + 1))

/-- A square root with a sticky last bit, so that one rounding of it is the rounding of the exact root. -/
def Val.sqrt : Val → Val
  | .nan => .nan
  | .inf s => if s then .nan else .inf false
  | .num s m e =>
    if m = 0 then .num s 0 0
    else if s then .nan
    else
      let k : Nat := 220 + (if e % 2 = 0 then 0 else 1)
      let n := m * 2 ^ k
      let r := isqrt n
      .num false (2 * r + flagNat (r * r ≠ n)) ((e - k) / 2 - 1)

/-- binary32 division. -/
def fdiv (a b : Nat) : Nat := toF32 ((ofF32 a).div (ofF32 b))

/-- binary32 square root. -/
def fsqrt (a : Nat) : Nat := toF32 (ofF32 a).sqrt

/-! ### PB8 (R68, R69) -/

/-- A PB8 block as its fields. -/
structure Pb8 where
  bump : Nat
  nf : Bool
  residue : Nat
  vals : List Int
deriving DecidableEq, Repr

/-- The residue of a block's values (R68). -/
def pb8Residue (vs : List Int) : Nat := ((vs.foldl (· + ·) 0) % 127).toNat

/-- A block encoded at exponent `E + bump` from exact values (R69). -/
def pb8Encode (e : Int) (bump : Nat) (xs : List Val) : Pb8 :=
  if xs.any (fun v => !v.finite) then { bump := bump, nf := true, residue := 0, vals := xs.map (fun _ => 0) }
  else
    let vs := xs.map (fun v => clampInt ((v.scale (-(e + bump))).rneInt) (-127) 127)
    { bump := bump, nf := false, residue := pb8Residue vs, vals := vs }

/-- The 34 bytes of a block (R68). -/
def Pb8.bytes (b : Pb8) : List Byte :=
  leBytes 2 (b.bump * 2 ^ 12 + flagNat b.nf * 2 ^ 11 + b.residue * 2 ^ 4) ++ b.vals.map (fun v => BitVec.ofInt 8 v)

/-- A block read from 34 bytes (R68). -/
def pb8OfBytes (bs : List Byte) : Pb8 :=
  let h := leNat (bs.take 2)
  { bump := bitField h 15 12, nf := bitAt h 11, residue := bitField h 10 4
    vals := ((bs.drop 2).take 32).map (fun b => b.toInt) }

/-- A residue mismatch (R69). -/
def Pb8.mismatch (b : Pb8) : Bool :=
  !b.nf && (b.residue = 127 || b.residue ≠ pb8Residue b.vals || b.vals.any (fun v => v = -128))

/-- The exact values of a block at the agreed exponent (R68, R69). -/
def Pb8.decode (b : Pb8) (e : Int) : List Val :=
  if b.nf then b.vals.map (fun _ => .nan) else b.vals.map (fun v => (Val.ofInt v).scale (e + b.bump))

/-! ### FP32X masters and stochastic rounding (R70-R74) -/

/-- The exact value of an FP32X head and tail (R70). -/
def ofF32x (head tail : Nat) : Val :=
  let s := bitAt head 31
  let e := bitField head 30 23
  let fr := head % 2 ^ 23
  if e = 255 then ofF32 head
  else if e = 0 then .num s (fr * 2 ^ 16 + tail) (-165)
  else .num s (2 ^ 39 + fr * 2 ^ 16 + tail) ((e : Int) - 127 - 39)

/-- A magnitude `n · 2^q`, already at precision `p`, as the bits of sign, exponent and `p` fraction bits (8-bit exponent). -/
def packAt (p : Nat) (neg : Bool) (n : Nat) (q : Int) : Nat :=
  let (n, q) := if n = 2 ^ (p + 1) then (2 ^ p, q + 1) else (n, q)
  if n < 2 ^ p then flagNat neg * 2 ^ (8 + p) + n
  else
    let ef := (q + p + 127).toNat
    if 255 ≤ ef then flagNat neg * 2 ^ (8 + p) + 255 * 2 ^ p
    else flagNat neg * 2 ^ (8 + p) + ef * 2 ^ p + (n - 2 ^ p)

/-- The stochastic rounding of an exact sum into a master of precision `p`, with the 32 random bits `u` (R73). -/
def stochasticRound (p : Nat) (y : Val) (u : Nat) : Nat :=
  match y with
  | .nan => 0x7FC00000 * 2 ^ (p - 23)
  | .inf s => flagNat s * 2 ^ (8 + p) + 255 * 2 ^ p
  | .num s m e =>
    if m = 0 then 0
    else
      let q := max ((Nat.log2 m : Int) + e) (-126) - p
      let n := floorShift m (e - q)
      let f := floorShift m (e - q + 32) - n * 2 ^ 32
      packAt p s (if u < f then n + 1 else n) q

/-- The mixing function of R74. -/
def srMix (z k : BitVec 64) : BitVec 64 :=
  let z := z ^^^ k
  let z := (z ^^^ (z >>> 32)) * 0x9F3B5A71C6E24D8B#64
  let z := (z ^^^ (z >>> 29)) * 0xE7A14C9358D26F35#64
  z ^^^ (z >>> 32)

/-- The generator of R74. -/
def srbits (seed tensor index step : Nat) : BitVec 64 :=
  let a := srMix (BitVec.ofNat 64 seed) 0x5D2C91A6E34F70B8#64
  let b := srMix (BitVec.ofNat 64 (tensor * 2 ^ 32 + step)) a
  srMix (BitVec.ofNat 64 index) (b ^^^ 0x3B86D4F10A97E25C#64)

/-! ### Maximum and minimum with index (R121-R123) -/

/-- A partial result of a max or min reduction. -/
structure ArgBest where
  bits : Nat
  index : Nat
  nan : Bool
  inf : Bool
deriving DecidableEq, Repr

/-- One element as a partial result (R121). -/
def argOne (bits index : Nat) : ArgBest :=
  let v := ofF32 bits
  { bits := if v = .nan then 0x7FC00000 else bits, index := index, nan := v = .nan, inf := (v = .inf true || v = .inf false) }

/-- Two partial results combined (R121, R122). -/
def argCombine (max_ : Bool) (a b : ArgBest) : ArgBest :=
  let inf := a.inf || b.inf
  let pick (x : ArgBest) : ArgBest := { x with inf := inf }
  if a.nan && b.nan then pick (if a.index ≤ b.index then a else b)
  else if a.nan then pick a
  else if b.nan then pick b
  else
    let x := ofF32 a.bits
    let y := ofF32 b.bits
    if (if max_ then y.lt x else x.lt y) then pick a
    else if (if max_ then x.lt y else y.lt x) then pick b
    else pick (if a.index ≤ b.index then a else b)

/-- A reduction over elements in order (R121). -/
def argReduce (max_ : Bool) : List ArgBest → Option ArgBest
  | [] => none
  | x :: xs => some (xs.foldl (argCombine max_) x)

/-- The 16-byte record of a result (R123). -/
def ArgBest.bytes (a : ArgBest) : List Byte :=
  leBytes 4 a.bits ++ leBytes 1 (flagNat a.nan + 2 * flagNat a.inf) ++ leBytes 3 0 ++ leBytes 8 a.index

end Sys2Proof.Machine
end

