-- ==== Sys2Proof/Machine/Accum.lean ====
section
/-! DEFINITION. Accumulation and reduction of one array output (chapter 05): alignment, pass groups, scale-back replay,
promotion and the cascade, as the function of R116 with the state a keep holds (R119). -/

namespace Sys2Proof.Machine

/-- The non-finite state of an output (R113). -/
inductive NfState where
  | empty
  | inf (neg : Bool)
  | nan
deriving DecidableEq, Repr

/-- A non-finite product enters the state (R113). -/
def NfState.update (s : NfState) (v : Val) : NfState :=
  match s, v with
  | s, .num _ _ _ => s
  | .nan, _ => .nan
  | _, .nan => .nan
  | .empty, .inf n => .inf n
  | .inf a, .inf b => if a = b then .inf a else .nan

/-- What is kept of one output's reduction (R119): no pending group is ever kept. -/
structure AccState where
  pass : Nat
  r : Nat
  pall : Bool
  levels : List (Option Nat)
  blocks : Nat
  nf : NfState
  bound : Bool
deriving DecidableEq, Repr

/-- The state at the start of a reduction. -/
def AccState.start : AccState :=
  { pass := 0, r := 0, pall := false, levels := List.replicate 24 none, blocks := 0, nf := .empty, bound := false }

/-- A block pushed into the cascade (R112): carries run up from level 0 and fold at level 23. -/
def pushLevels : List (Option Nat) → Nat → List (Option Nat)
  | [], _ => []
  | [none], b => [some b]
  | [some x], b => [some (fadd x b)]
  | none :: ls, b => some b :: ls
  | some x :: ls, b => none :: pushLevels ls (fadd x b)

/-- The levels combined from the lowest upward (R112). -/
def finishLevels (ls : List (Option Nat)) : Nat :=
  (ls.foldl (fun (r : Option Nat) l => match r, l with
    | r, none => r
    | none, some x => some x
    | some y, some x => some (fadd x y)) none).getD 0

/-- One pass summed in the trees at effective scale `s`: the exact sum, alignment overflow, the non-finite state
(R104-R106, R113). -/
def passSum (s : Int) (ps : List Val) (nf : NfState) : Int × Bool × NfState :=
  ps.foldl (fun (acc : Int × Bool × NfState) p =>
    if p.finite then
      let a := (p.scale (-s)).rneInt
      let c := clampInt a (-2097152) 2097151
      (acc.1 + c, acc.2.1 || a ≠ c, acc.2.2)
    else (acc.1, acc.2.1, acc.2.2.update p)) (0, false, nf)

/-- The passes of a group accumulated in the narrow accumulator, checked after every pass (R107). -/
def groupSum (s : Int) (passes : List (List Val)) (nf : NfState) : Int × Bool × NfState :=
  passes.foldl (fun (acc : Int × Bool × NfState) ps =>
    let t := passSum s ps acc.2.2
    let n := acc.1 + t.1
    (n, acc.2.1 || t.2.1 || n < -2097152 || 2097151 < n, t.2.2)) (0, false, nf)

/-- The outcome of one command's passes for one output: the state, and the replays it took as (first pass, passes). -/
structure AccRun where
  st : AccState
  log : List (Nat × Nat)
  nfSeen : Bool
deriving DecidableEq, Repr

/-- A promoted narrow value as binary32 (R111). -/
def promote (n s : Int) : Nat := if n = 0 then 0 else toF32 ((Val.ofInt n).scale s)

/-- The reduction over the passes left (R116): `left` is the command's passes not yet committed, `p` the promotion
interval. A group that ends overflowed is replayed at a raised scale, at most three times (R108). -/
def accLoop : Nat → Int → Nat → List (List Val) → AccRun → AccRun
  | 0, _, _, _, a => a
  | fuel + 1, accScale, p, left, a =>
    match left with
    | [] => a
    | _ :: _ =>
      let st := a.st
      let g := if st.pall then 1 else min (p - st.pass % p) left.length
      let s := accScale + 4 * st.r
      let res := groupSum s (left.take g) st.nf
      let exceeds := res.2.1
      let nf := res.2.2
      if exceeds && nf = .empty && st.r < 3 then
        accLoop fuel accScale p left
          { a with st := { st with r := st.r + 1, pall := st.r + 1 = 3, nf := nf }, log := a.log ++ [(st.pass, g)] }
      else
        let n := if exceeds then clampInt res.1 (-2097152) 2097151 else res.1
        let b := promote n s
        let ls := pushLevels st.levels b
        accLoop fuel accScale p (left.drop g)
          { a with
            st := { st with pass := st.pass + g, nf := nf, levels := ls, blocks := st.blocks + 1
                            bound := st.bound || (exceeds && nf = .empty) || 2 ^ 24 < st.blocks + 1 }
            nfSeen := a.nfSeen || f32.nonFinite b || ls.any (fun l => match l with
              | some x => f32.nonFinite x
              | none => false) }

/-- One command's passes for one output, from a start or a kept state (R116, R119). -/
def accumulate (accScale : Int) (p : Nat) (passes : List (List Val)) (st : AccState) : AccRun :=
  accLoop (passes.length + 4) accScale p passes { st := st, log := [], nfSeen := false }

/-- The FP32 result of an output (R113). -/
def AccState.result (st : AccState) : Nat :=
  let c := finishLevels st.levels
  match st.nf with
  | .empty => c
  | .inf n => fadd c (f32.pack n 255 0)
  | .nan => f32.canonNan

/-- INT32 export of an output: no replay, the narrow value saturated (R115). Answers the word and BOUND_EXCEEDED, which a group
overflow sets whatever the non-finite state (R115, R118). -/
def exportInt32 (accScale : Int) (passes : List (List Val)) : Nat × Bool :=
  let res := groupSum accScale passes .empty
  (match res.2.2 with
    | .nan => 0x80000000
    | .inf true => 0x80000001
    | .inf false => 0x7FFFFFFF
    | .empty => unsignedOf 32 (clampInt res.1 (-2097152) 2097151), res.2.1)

/-- The largest number of replays any output took of each group of a tile: what the tile was re-presented (R109). -/
def tileReplays (logs : List (List (Nat × Nat))) : List (Nat × Nat × Nat) :=
  logs.foldl (fun acc log =>
    let keys := (log.map Prod.fst).eraseDups
    keys.foldl (fun (acc : List (Nat × Nat × Nat)) k =>
      let n := (log.filter (fun e => e.1 = k)).length
      let g := ((log.filter (fun e => e.1 = k)).map Prod.snd).foldl max 0
      match acc.find? (fun e => e.1 = k) with
      | some e => (acc.filter (fun e => e.1 ≠ k)) ++ [(k, max g e.2.1, max n e.2.2)]
      | none => acc ++ [(k, g, n)]) acc) []

end Sys2Proof.Machine
end

