-- ==== Sys2Proof/Machine/State.lean ====
section
/-! DEFINITION. The state of the block as plain data: everything volatile (`Chip`), the memories with the health of their
lines, the fuses, and the queue of waiting commands; and the state right after a device reset. INVENTORY.md lists every
piece with the rule that names it. Staging (R39): inside one step outputs are staged in `Chip.staged` and applied to
memory when the step ends. -/

namespace Sys2Proof.Machine

/-- Reasons a step can stop with a fault. The spec gives every command of the table an effect, so no meaning raises one;
the type is kept for the host's interface. Safe: a fault claims nothing. -/
inductive Fault where
  /-- Raised by no meaning: the spec describes no event of the block that leaves it with no next state. Safe. -/
  | none_
deriving DecidableEq, Repr

/-- Reasons a step can be refused. -/
inductive Refusal where
  /-- Raised by an arm of exec whose instruction has no meaning yet. Safe: nothing is claimed of it. -/
  | notModelled (mnemonic : String)
deriving DecidableEq, Repr

/-! ### Memory -/

/-- Memory: bytes by physical key, in canonical form (keys strictly rising, no entry equal to 0, what an unlisted byte
reads as), the health of 64-byte lines, listed where not good (R408), and the lines whose error was injected, wholly or in part (R410,
R419), both also in canonical form. -/
structure Memory where
  cells : List Host.Cell
  lines : List (Nat × Health)
  injected : List (Nat × Bool) := []
deriving DecidableEq, Repr

/-- One staged write, applied when the step commits (R39): bytes, a range of zeros, a line's health, an injected error of a line (R419),
or bytes left unspecified by a failed transfer (R39), drawn from the free bytes at a seed. -/
inductive Store where
  | bytes (key : Nat) (data : List Byte)
  | zero (key len : Nat)
  | health (line : Nat) (h : Health)
  | injected (line : Nat) (h : Health)
  | unspecified (key len seed : Nat)
deriving DecidableEq, Repr

/-! ### Page headers (R25-R32, R410, R417) -/

/-- The error log of a page (R410). -/
structure Elog where
  valid : Bool := false
  overflow : Bool := false
  severity : Nat := 0
  injected : Bool := false
  cls : Nat := 0
  count : Nat := 0
  status : Nat := 0
  detail : Nat := 0
  unit : Nat := 0
  addr : Option Nat := none
  time : Nat := 0
  part : Option Nat := none
  opcode : Nat := 0
  target : Nat := 0
deriving DecidableEq, Repr

/-- The perturbation registers of a page (R417). Beside them: `used` are the error kinds injected since ARM was last set, `left` the
DATA flits that FLIT still hits, `since` the instant of the write that set ARM (R419). -/
structure Pert where
  ctrl : BitVec 32 := 0
  delay : BitVec 32 := 0
  bp : BitVec 32 := 0
  stall : BitVec 32 := 0
  ecc : BitVec 32 := 0
  addrLo : BitVec 32 := 0
  addrHi : BitVec 32 := 0
  flit : BitVec 32 := 0
  nf : BitVec 32 := 0
  late : BitVec 32 := 0
  fired : Bool := false
  expired : Bool := false
  used : List Nat := []
  left : Nat := 0
  since : Nat := 0
deriving DecidableEq, Repr

/-- The stored part of a page's common header (R25-R32). PART_TAG follows from the partitions (R314). -/
structure Header where
  irqEn : Bool := false
  quiesce : Bool := false
  rsvdWr : Bool := false
  badWidth : Bool := false
  accessDenied : Bool := false
  ready : Bool := false
  irqRaw : BitVec 32 := 0
  irqMask : BitVec 32
  elog : Elog := {}
  ctr : List Nat := [0, 0, 0, 0, 0, 0, 0, 0]
  satMap : BitVec 8 := 0
  vfWrite : Bool := false
  pert : Pert := {}
deriving DecidableEq, Repr

/-! ### Events (R43) and commands (R34-R42) -/

/-- An event entry (R43); `waiters` are the commands waiting on it, oldest first. -/
structure Event where
  count : Nat := 0
  threshold : Nat := 0
  owner : Option Nat := none
  irqOn : Bool := false
  fabric : Bool := false
  poisoned : Bool := false
  overflow : Bool := false
  vector : Nat := 0
  waiters : List Nat := []
deriving DecidableEq, Repr

/-- Where a fetched command stands: not started, running, or with its outcome settled and its commit phase begun (a kill
no longer stops it, R100). -/
inductive Phase where
  | waiting
  | running
  | ended
deriving DecidableEq, Repr

/-- The accounting of a command over all its runs (R41, R332); `energy` is in pJ. -/
structure Acct where
  beats : Nat := 0
  ns : Nat := 0
  bytes64 : Nat := 0
  energy : Nat := 0
  replays : Nat := 0
  nf : Bool := false
  bound : Bool := false
  pall : Bool := false
  evtOverflow : Bool := false
deriving DecidableEq, Repr

/-- A command fetched into the device. `fn` is its function (32 · port + number), `taken` its WAIT_EN take made,
`stage` the step a command of several stages has reached (named by its family), `gateOn` the units whose GATE_EN was 1 at its
start (R102), `startPj` its domain's meter at the start, `startCharged` what commands of that domain had been charged by then, `runPj` the
energy of the run that ended (R332), `binds` the table generations it bound at its start (R53), `ctx` the context bytes it read (R443). -/
structure Cmd where
  id : Nat
  fn : Nat
  sq : Nat
  desc : BitVec 512
  arrival : Nat
  phase : Phase := .waiting
  taken : Bool := false
  startNs : Nat := 0
  startAt : Nat := 0
  startPj : Nat := 0
  startCharged : Nat := 0
  runPj : Nat := 0
  watchdogUs : Nat := 0
  untimed : Nat := 0
  share : Nat := 0
  stage : Nat := 0
  data : List Nat := []
  hold : Bool := false
  gateOn : List Nat := []
  binds : List (Nat × Nat) := []
  ctx : List Byte := []
  status : Nat := 0
  detail : Nat := 0
  acct : Acct := {}
deriving DecidableEq, Repr

/-- A completion record (R41); PHASE follows from the slot it is written to (R348). -/
structure Record where
  tag : Nat
  status : Nat
  detail : Nat
  opcode : Nat
  irq : Bool
  flags : Nat
  target : Nat
  replays : Nat
  sq : Nat
  sqHead : Nat
  beats : Nat
  ns : Nat
  bytes64 : Nat
  energy : Nat
deriving DecidableEq, Repr

/-! ### Host queues (R345-R350) -/

/-- A submission queue (R345, R350) with its program binding (R324); `state` is SQ_STAT.STATE, `inFlight` the commands
fetched and not completed, `reading` the descriptor read under way as (first slot, count). -/
structure SQ where
  base : Nat := 0
  enable : Bool := false
  cq : Nat := 0
  sizeLog2 : Nat := 4
  head : Nat := 0
  tail : Nat := 0
  cause : Nat := 0
  state : Nat := 0
  inFlight : Nat := 0
  reading : Option (Nat × Nat) := none
  prog : Option Nat := none
  cheapCount : Nat := 0
  lastCheap : Bool := true
deriving DecidableEq, Repr

/-- A completion queue (R345, R350); `written` counts the records since it was enabled, `waiting` the records that found
it full or met a regulator without level (R352), `due` a coalesced vector not yet sent, `lastMsg` the time of the vector's
previous message, `masked` that its vector became due while masked and is still to be sent. -/
structure CQ where
  base : Nat := 0
  enable : Bool := false
  irqEn : Bool := false
  vector : Nat := 0
  sizeLog2 : Nat := 4
  head : Nat := 0
  cause : Nat := 0
  error : Bool := false
  coalUs : Nat := 0
  written : Nat := 0
  waiting : List Record := []
  due : Bool := false
  lastMsg : Option Nat := none
  masked : Bool := false
deriving DecidableEq, Repr

/-- The registers of a function beside its queues (R350, R351); `msix` the MSI-X table by 4-byte word, `turn` the submission queue
whose turn to fetch is next (R347); `cfg` the words of the configuration space that have been written, by offset (R336), and, by the power
of two, the sizes of BAR4 (R341), `vfBar4Log` that of a physical function's virtual functions. -/
structure FnRegs where
  roEn : Bool := false
  pageVec : BitVec 32 := 0
  errVec : BitVec 32 := 0
  win4 : Nat := 0
  msix : Tab (BitVec 32) := []
  unmasked : List Nat := []
  pendingVecs : List Nat := []
  turn : Nat := 0
  cfg : Tab (BitVec 32) := []
  bar4Log : Nat := 30
  vfBar4Log : Nat := 30
deriving DecidableEq, Repr

/-- One PCIe port (R359, R338); `turn` the function whose turn to fetch is next (R347). -/
structure PciePort where
  rate : Nat := 0
  width : Nat := 0
  flit : Bool := false
  degraded : Bool := false
  linkUp : Bool := false
  vfEnable : Bool := false
  numVfs : Nat := 0
  doeError : Bool := false
  turn : Nat := 0
deriving DecidableEq, Repr

/-! ### Tansy store (R48-R55) -/

/-- A loaded image: its generation, the REQUIRED minimum generations of a program, and the bytes of its entries. -/
structure Image where
  gen : Nat
  req : List Nat := [0, 0, 0]
  count : Nat
  body : List Byte
deriving DecidableEq, Repr

/-- The states of a shadow bank (R51). -/
inductive Shadow where
  | empty | loading | valid | draining | invalid
deriving DecidableEq, Repr

/-- One instance of a loadable object (R51): both banks, and the command that is filling the shadow. -/
structure Table where
  active : Option Image := none
  shadow : Shadow := .empty
  image : Option Image := none
  loader : Option Nat := none
deriving DecidableEq, Repr

/-! ### Partitions (R310-R334) -/

/-- A region of a partition (R315). -/
structure Region where
  base : Nat
  bytes : Nat
  readOnly : Bool
deriving DecidableEq, Repr

/-- The states of a partition (R321). -/
inductive PState where
  | idle | restoring | resident | stopping | spilling | suspended
deriving DecidableEq, Repr

/-- A range a stop spilled: cell rank, space (0 scratchpad, 1 wide buffer), byte offset and length (R325, R326). -/
structure SpillRange where
  rank : Nat
  space : Nat
  off : Nat
  len : Nat
deriving DecidableEq, Repr

/-- A formed partition (R312, R321). `fn` is byte 7 of its context: PORT and function number. `formedAt` orders formation
(R314), `readySince` the instant it became ready (R322). -/
structure Part where
  pairs : Nat
  prio : Nat
  preempt : Bool
  stopOnFault : Bool
  fn : Nat
  domain : Nat
  deadlineUs : Nat
  watchdogUs : Nat
  seed : Nat
  evtBase : Nat
  evtCount : Nat
  spillBase : Nat
  spillBytes : Nat
  shares : List Nat
  regs : List (Nat × Nat)
  levels : List Int
  state : PState := .idle
  fault : Bool := false
  formedAt : Nat
  readySince : Option Nat := none
  stopAt : Nat := 0
  stopDeadline : Nat := 0
  spillHeld : Bool := false
  lastStopUs : Nat := 0
  spilled : List SpillRange := []
  keepLost : List Nat := []
  regions : Tab Region := []
  overcommit : Bool := false
deriving DecidableEq, Repr

/-- Who holds a cell pair (R310, R322, R327). -/
structure PairRes where
  resident : Option Nat := none
  last : Option Nat := none
  reserved : Option Nat := none
deriving DecidableEq, Repr

/-- The keep buffer of a cell or stack engine (R92, R93): the kept state of every output, and what a continuation must
match. -/
structure Keep where
  owner : Option Nat
  shape : List Nat
  outs : List AccState
deriving DecidableEq, Repr

/-! ### Reliability (R404-R407, R415, R416) -/

/-- An entry of the trace buffer (R416). -/
structure TraceEntry where
  time : Nat
  frame : Nat
  source : Nat
  info : Nat
deriving DecidableEq, Repr

/-- A field entry of the repair fuses (R404): a logical cell retired to a spare, or one column bypassed in an array of a physical cell (52 · die + index) or stack engine (104 + s). -/
inductive FieldEntry where
  | retire (logical phys : Nat)
  | bypass (phys : Nat) (arrayB : Bool) (column : Nat)
deriving DecidableEq, Repr

/-- The repair fuse bank (R404): the factory assignment (logical cell to physical index on its die), the factory bypass
columns, the field entries of each die in order, the spares found unusable, and the failed pairs and engines (R406). -/
structure Repair where
  factory : Tab Nat := []
  factoryBypass : List FieldEntry := []
  west : List FieldEntry := []
  east : List FieldEntry := []
  unusable : List Nat := []
  pairFail : List Nat := []
  engFail : List Nat := []
deriving DecidableEq, Repr

/-- The self-test registers (R407). -/
structure SelfTest where
  busy : Bool := false
  engine : Bool := false
  index : Nat := 0
  result : Nat := 0
deriving DecidableEq, Repr

/-- The management controller and its watchdog (R415). -/
structure Sorrel where
  running : Bool := false
  lastKick : Nat := 0
  expiredAt : Option Nat := none
  halted : Bool := false
deriving DecidableEq, Repr

/-! ### Memory tiers (chapters 06, 07) -/

/-- A residency entry of a cell (R141): partition, tag, scratchpad range. -/
structure Resid where
  part : Nat
  tag : Nat
  off : Nat
  len : Nat
deriving DecidableEq, Repr

/-- An HBM stack (R163) or a DDR5 channel (R165). `rowCe` counts corrected errors per row in this scrub pass, `open_` the
open row of each bank, `postponed` the refreshes owed by each bank (R151). -/
structure Tier where
  trained : Bool := false
  zeroDone : Bool := false
  ref2x : Bool := false
  scrubActive : Bool := false
  scrubPos : Nat := 0
  errAddr : Nat := 0
  errDevice : Nat := 0
  rowCe : Tab Nat := []
  open_ : Tab Nat := []
  postponed : Tab Nat := []
  speed : Nat := 0
  dimmState : Nat := 0
  cap : Nat := 0
  ranks : Nat := 0
  x8 : Bool := false
  selfRefresh : Bool := false
deriving DecidableEq, Repr

/-- A slot of the stack-local windows (R148, R164). -/
structure Window where
  base : Nat := 0
  size : Nat := 0
  err : Nat := 0
  enable : Bool := false
deriving DecidableEq, Repr

/-- The tiers as a whole: stacks at 0 to 11, channels at 16 to 27; whether a stack failed (R159); the installed channels
and DDR5 capacity (R156); the windows; residency tables, most recently used first; GRADBUF_STAT as (DIRTY, NF). -/
structure Tiers where
  units : Tab Tier := []
  hbmFailed : Bool := false
  ddrChannels : List Nat := []
  ddrBytes : Nat := 0
  windows : Tab Window := []
  resid : Tab (List Resid) := []
  gradStat : Tab (Bool × Bool) := []
deriving DecidableEq, Repr

/-! ### The step gate (chapter 09, 11) -/

/-- The states of a step gate (R210), in the order of its STATE codes (R222). -/
inductive GState where
  | unconfigured | idle | collecting | reducing | ready | skipped | abandoned
deriving DecidableEq, Repr

/-- The exact sums of a ratio slot (R220): Σ Δ² and Σ w² as multiples of 2^-149, and whether a term was not finite. -/
structure SlotSum where
  d : Nat
  w : Nat
  nf : Bool
deriving DecidableEq, Repr

/-- A scalar record (R273): accumulator and flags. -/
structure Scalar where
  acc : Nat := 0
  nf : Bool := false
  ovf : Bool := false
  abandon : Bool := false
deriving DecidableEq, Repr

/-- A partition's step gate (R210-R221) with its part of the scalar reduction (R269-R273): `loc` is the local accumulator
and flags, `res` the combined flags, `sealAt` the start of GATE_SEAL, `kids` the children's records of this epoch, `held`
those of the next epoch, `window` set once the LATE-FOLD window has passed, `sent` once the record has gone up,
`readyNorm` the NORM of the last step closed READY, `result` a result that came, with its epoch, before the gate was REDUCING. -/
structure Gate where
  state : GState := .unconfigured
  step : Nat := 0
  ls : Int := 0
  lsMin : Int := 0
  lsMax : Int := 0
  lateFold : Bool := false
  growth : Nat := 0
  group : Nat := 0
  timeoutMs : Nat := 0
  windowUs : Nat := 0
  slotAddr : Nat := 0
  maxNorm : Nat := 0
  clean : Nat := 0
  last : Nat := 0
  norm : Nat := 0
  clip : Nat := 0
  epoch : Nat := 0
  loc : Scalar := {}
  res : Scalar := {}
  slots : Tab SlotSum := []
  sealAt : Option Nat := none
  expired : Bool := false
  window : Bool := false
  sent : Bool := false
  kids : List (Nat × Scalar) := []
  held : List (Nat × Scalar) := []
  readyNorm : Option Nat := none
  result : Option (Nat × Scalar) := none
deriving DecidableEq, Repr

/-! ### The link fabric (chapter 10) -/

/-- A packet (R243): its 32-byte header and its data. `origin` is the receive buffer it occupies until it is consumed, as port, VC and
flits (R236). -/
structure Packet where
  hdr : BitVec 256
  data : List Byte
  origin : Option (Nat × Nat × Nat) := none
deriving DecidableEq, Repr

/-- A DATA flit as the replay buffer keeps it (R229, R231). -/
structure TxFlit where
  seq : Nat
  vc : Nat
  sop : Bool
  eop : Bool
  payload : List Byte
deriving DecidableEq, Repr

/-- A packet queued at an output port: the payloads of its flits not yet sent, whether it enters the port's group (R238), whether its
first flit has gone, the flits still to arrive (0 once its last has), and the port and VC whose receive buffer its flits occupy. -/
structure TxPacket where
  flits : List (List Byte)
  entering : Bool
  started : Bool
  more : Nat := 0
  origin : Option (Nat × Nat) := none
deriving DecidableEq, Repr

/-- A packet in a port's receive buffer that has not been routed: its VC, the payloads of its flits so far, whether its last flit has
arrived, whether it came before the link last started fresh (R236, R249), and an injected error in its buffer (R408, R419). -/
structure RxPacket where
  vc : Nat
  flits : List (List Byte)
  whole : Bool
  old : Bool := false
  health : Health := .good
deriving DecidableEq, Repr

/-- A Vetch port (R223-R237, R249, R250). `entry` is the table entry of its state as it was entered, `gen` the generation
of the bank it came from; `canResume` says it has been LINK_UP since the last DISCARD; `latched` holds DEVICE_ID, PORT_CFG
and the allocations as EXCHANGE latched them; `lastTrain` is the last intact TRAIN payload, `trainOk` says nothing bad came after it;
`lanes` are the locked lanes, `half` the four in use at width 4; `cut` names, for a VC, the output port that the packet still arriving
on it goes through (R238); `replayAt` the index in the
replay buffer of the next flit a replay sends, `replayFrom` the ACK_SEQ it began at; `idleAck` the flit cycles since an
acknowledgement advanced; `consec` the consecutive replays, `replayed` says one began since an acknowledgement advanced; `rr` is the VC
that sent last and `rrUsed` the packets each VC began in this round (R237); `ucwInj` says a codeword of this window was injected, `faultInj`
one of the window that set `ucwFault` (R419). -/
structure LinkPort where
  enable : Bool := false
  cfg : Nat := 0
  alloc : List Nat := [8704, 8704, 8704, 8704, 8704, 8704, 8704, 3584]
  retryCfg : Nat := 2048 * 65536 + 8
  fecCfg : Nat := 16
  weight : Nat := 0x1111111
  state : Nat := 0
  entry : Option (List Byte) := none
  gen : Option Nat := none
  enteredAt : Nat := 0
  attempts : Nat := 0
  retrain : Bool := false
  tableErr : Bool := false
  lanes : Nat := 0
  half : Nat := 0x0F
  width : Nat := 0
  reversed : Bool := false
  signalLost : Bool := false
  resumed : Bool := false
  canResume : Bool := false
  peer : Option (Nat × Nat) := none
  peerSeen : Option (Nat × Nat) := none
  latched : Option (Nat × Nat × List Nat) := none
  lastTrain : Option (List Byte) := none
  trainOk : Bool := false
  rxOk : Bool := false
  expected : Nat := 0
  nakPending : Bool := false
  sendNak : Bool := false
  accepted : Bool := false
  rxQueue : List RxPacket := []
  cut : Tab Nat := []
  crTotal : List Nat := [0, 0, 0, 0, 0, 0, 0, 0]
  crNext : Nat := 0
  seq : Nat := 0
  replay : List TxFlit := []
  replayAt : Option Nat := none
  replayFrom : Nat := 0
  idleAck : Nat := 0
  consec : Nat := 0
  replayed : Bool := false
  txQueue : Tab (List TxPacket) := []
  credit : List Int := [0, 0, 0, 0, 0, 0, 0, 0]
  peerCr : List Nat := [0, 0, 0, 0, 0, 0, 0, 0]
  rr : Nat := 0
  rrUsed : List Nat := [0, 0, 0, 0, 0, 0, 0]
  ucw : Nat := 0
  ucwStart : Nat := 0
  ucwFault : Bool := false
  ucwInj : Bool := false
  faultInj : Bool := false
deriving DecidableEq, Repr

/-- What a request's response is for: a tile of a launch, a WRITE or the EVENT_SIGNAL of a gather, a scalar record. -/
inductive Issuer where
  | tile (cmd t : Nat)
  | gather (cmd : Nat)
  | signal (cmd : Nat)
  | scalar
deriving DecidableEq, Repr

/-- An outstanding request (R247). -/
structure Outstanding where
  issuer : Issuer
  issuedAt : Nat
deriving DecidableEq, Repr

/-- The link complex: ports, requests and responses to route with the partition they are charged to (R319), packets
delivered here, outstanding tags, the next tag, and the registers of VETCH_FAB (R251). -/
structure Links where
  ports : Tab LinkPort := []
  out : List (Packet × Option Nat) := []
  inbox : List Packet := []
  tags : Tab Outstanding := []
  nextTag : Nat := 0
  deviceId : Nat := 0
  txnTimeout : Nat := 1000
deriving DecidableEq, Repr

/-! ### Collectives (chapter 11) -/

/-- A group slot bound to a partition (R253, R257): `base` and `ls` as GATE_OPEN latched them, `e0` the last launch's. -/
structure Group where
  part : Nat
  g : Nat
  member : Nat
  succ : Nat
  pred : Nat
  parent : Nat
  root : Bool
  flat : Bool
  site : Option Nat
  eInit : Int
  limit : Nat
  stageBase : Nat
  stageBytes : Nat
  kids : List Nat
  base : Option Int := none
  ls : Option Int := none
  e0 : Int := 0
deriving DecidableEq, Repr

/-- A stage slot (R261, R268, R270): `inc` and `fold` the epochs of the stored partial and fold with the fold's grid
exponent, `closed` the last epoch closed here, `missed` the epoch closed without its partial with the grid it took. -/
structure Stage where
  opened : Bool := false
  inc : Option Nat := none
  fold : Option (Nat × Int) := none
  closed : Option Nat := none
  missed : Option (Nat × Int) := none
  repeats : Nat := 0
deriving DecidableEq, Repr

/-- The state of one tile of a launch at this device; `late` is a partial held back by a perturbation until a time, or
never sent (R417). -/
inductive Tile where
  | waiting
  | sent
  | late (due : Option Nat)
  | done
deriving DecidableEq, Repr

/-- A launch past its local phase: E_0, its epoch, its group, its first stage slot, its hop, its tiles. -/
structure Launch where
  e0 : Int
  epoch : Nat
  group : Nat
  stage : Nat
  hop : Nat
  part : Nat
  tiles : List Tile
  nf : Bool
deriving DecidableEq, Repr

/-- Collectives: group slots, stage slots by address, launches by command number. -/
structure Coll where
  groups : Tab Group := []
  stages : Tab Stage := []
  launches : Tab Launch := []
deriving DecidableEq, Repr

/-! ### The soft-target bridge (chapter 08) -/

/-- A row's accumulator (R180): the anchor, empty at first, and the sum. -/
structure LogAcc where
  a : Option Int := none
  s : Nat := 0
deriving DecidableEq, Repr

/-- The state of one row of an open set (R182, R184, R186): accumulators at temperature 1 and at the ring's, the teacher's
selection in order, the largest logit with its index, the captured Yt by index, the record and label word read at FIRST,
the label's Y1, whether a non-finite logit was met, and in a later window. -/
structure HeadRow where
  acc1 : LogAcc := {}
  accT : LogAcc := {}
  sel : List (Int × Nat) := []
  best : Option ArgBest := none
  caps : List (Nat × Int) := []
  record : List Byte := []
  label : Nat := 0
  y1 : Int := 0
  nf : Bool := false
  late : Bool := false
deriving DecidableEq, Repr

/-- An open row set (R178): its first sequence number, the end of the last window, its rows. -/
structure RowSet where
  base : Nat
  last : Nat
  rows : List HeadRow
deriving DecidableEq, Repr

/-- An open target ring (R166-R175): its context, the copied temperature entry, NEXT_SEQ, the slots not FREE, the open row
sets, the held teacher command, and the stamp of its opening. -/
structure Ring where
  tPart : Nat
  sPart : Nat
  base : Nat
  depth : Nat
  k : Nat
  tempIdx : Nat
  v : Nat
  vsliceT : Nat
  vsliceS : Nat
  tCells : List Nat
  sCells : List Nat
  rowsMax : Nat
  seqStart : Nat
  alpha : Nat
  labelAddr : Nat
  lossAddr : Nat
  tau : Nat
  scale : Nat
  nextSeq : Nat
  live : Nat := 0
  sets : Tab RowSet := []
  held : Option Nat := none
  openedAt : Nat := 0
deriving DecidableEq, Repr

/-- The open rings by number; a row set is listed under 0 for the teacher, 1 for pass one and 2 for pass two. -/
structure Bridge where
  rings : Tab Ring := []
deriving DecidableEq, Repr
/-! ### Serving (chapter 12) -/

/-- The states of a request (R293), in the order of its STATE codes (R308). -/
inductive RState where
  | free | queued | running | parked | leaving
deriving DecidableEq, Repr

/-- A request (R287, R292): its descriptor bytes, join sequence, lengths, draft length and all-reject run, a SPEC_ENABLE
that waits for the next round, records written, and the handles of its local pages (R285). -/
structure Req where
  state : RState := .queued
  desc : List Byte := []
  seq : Nat := 0
  tokenLen : Nat := 0
  kvLen : Nat := 0
  dkvLen : Nat := 0
  spec : Nat := 0
  rejRun : Nat := 0
  specNext : Option Nat := none
  recompute : Bool := false
  recs : Nat := 0
  pages : Tab Nat := []
deriving DecidableEq, Repr

/-- An entry of the open plan (R296), with the weights bound at ROUND_BEGIN (R298, R303). -/
structure PlanEntry where
  slot : Nat
  prefill : Bool
  nDraft : Nat
  pos : Nat
  count : Nat
  kvLen : Nat
  tokenLen : Nat
  dkvLen : Nat
  first : Bool
  last : Bool
  recompute : Bool
  wPrefill : Nat
  wDecode : Nat
deriving DecidableEq, Repr

/-- A partition's round scheduler (R283-R307): its serving context's bytes, the round number, the open plan, requests by
slot, joins so far, the requests held in the last plan, and by vector the records pending with the time of the oldest and
whether one had LAST. -/
structure Serve where
  ctx : List Byte
  round : Nat := 1
  plan : Option (List PlanEntry) := none
  reqs : Tab Req := []
  joins : Nat := 0
  held : Nat := 0
  vecs : Tab (Nat × Nat × Bool) := []
deriving DecidableEq, Repr

/-- Serving: the configured schedulers by partition, customers' bucket levels (R304) and the time they were last
refilled. -/
structure Serving where
  parts : Tab Serve := []
  buckets : Tab Int := []
  refillAt : Nat := 0
deriving DecidableEq, Repr


/-! ### Power, pace and clocking (chapter 15) -/

/-- A power domain (R363-R376): `switching` while its on sequence runs, from `startedAt`; `attempts` failed ramps; `usedAt`
the last time its on condition was seen to hold; `trim` in mV; `gen` the generation of the curve it follows. -/
structure Domain where
  on : Bool := false
  switching : Bool := false
  startedAt : Nat := 0
  attempts : Nat := 0
  failed : Bool := false
  usedAt : Nat := 0
  vdd : Nat := 0
  trim : Nat := 0
  tscale : Nat := 64
  target : Nat := 1500
  energyPj : Nat := 0
  gen : Option Nat := none
deriving DecidableEq, Repr

/-- A power-state transition in progress (R368-R370): the state it leads to (0 out of P3, 3, or 4), the local time at which it
ends, and a doorbell written during P3 entry, which starts the exit at once. -/
structure Trans where
  target : Nat
  ends : Nat
  wake : Bool := false
deriving DecidableEq, Repr

/-- Campion and the clock generator (R360-R385). `pstate` is 0 while the device runs (P1 and P2 are derived), 3 or 4;
`off` is a module without power, `latched` an input switch held open until PWR_EN has been low (R430); sensors read 1/16 °C
where listed; `linkLost` and `memLost` hold from a loss of lock to the relock (R381); `trans` is the power-state transition in progress (R370);
`samples` the input powers of the last second, newest first (R362); `overSince` is the start of the run in which the 1 ms
average exceeds SUSTAINED_W (R361); the `…At` stamps are the times of the last interval of each loop. -/
structure Power where
  pstate : Nat := 0
  stateReq : Nat := 0
  err : Nat := 0
  scale : Nat := 64
  inputFault : Bool := false
  capUnmet : Bool := false
  floorLost : Bool := false
  coolant : Bool := false
  thermtrip : Bool := false
  inputV : Nat := 0
  inputI : Nat := 0
  inputP : Nat := 0
  p1s : Nat := 0
  p1ms : Nat := 0
  domains : Tab Domain := []
  sensors : Tab Int := []
  monitors : Tab Nat := []
  linkLock : Bool := false
  memLock : Bool := false
  pcieLock : Bool := false
  linkLost : Bool := false
  memLost : Bool := false
  refclk : List Bool := [false, false]
  sris : List Bool := [false, false]
  pllFed : List Bool := [false, false]
  memSsc : Bool := true
  governorAt : Nat := 0
  sensorAt : Nat := 0
  monitorAt : Nat := 0
  energyAt : Nat := 0
  measureAt : Nat := 0
  partPj : Tab Nat := []
  chargedPj : Tab Nat := []
  off : Bool := false
  latched : Bool := false
  overSince : Option Nat := none
  trans : Option Trans := none
  samples : List Nat := []
deriving DecidableEq, Repr

/-- The pins as last sampled (R430, R434, R436). -/
structure Pins where
  pwrEn : Bool := true
  resetN : Bool := true
  perstN : List Bool := [false, false]
  priSel : Bool := false
  smbAddr : Bool := false
  lastMate : Bool := true
deriving DecidableEq, Repr

/-! ### Security (chapter 16) -/

/-- The SPDM state of one transport (R395): what has been negotiated and the messages of its transcript (A negotiation, B
digests and certificates, L measurements). -/
structure Spdm where
  version : Bool := false
  caps : Bool := false
  algos : Bool := false
  a : List Byte := []
  b : List Byte := []
  l : List Byte := []
deriving DecidableEq, Repr

/-- Foxglove (R386-R403). `nonce` is the draw whose free number is the nonce; `holder` the code of the debug holder; `op` the
mailbox operation that runs; `image` the image a flash write is storing; `unwrapped` the draw of the identity key held
unwrapped; `zeroising` the requester whose D3 zeroisation runs and `zeroAt` its start; SPDM transports 0 and 1 are the DOE
mailboxes, 2 is MCTP. -/
structure Sec where
  svn : Nat := 0
  key : Nat := 0
  cause : Nat := 0
  recovery : Bool := false
  verified : Bool := false
  bodyDigest : Nat := 0
  dbgLevel : Nat := 0
  dbgHolder : Nat := 0
  dbgPart : Option Nat := none
  partValid : Bool := false
  ever : Bool := false
  endCause : Nat := 0
  nonce : Nat := 0
  op : Nat := 0
  result : Nat := 0
  done : Bool := false
  percent : Nat := 0
  image : Option (List Byte) := none
  unwrapped : Option Nat := none
  blocked : Bool := false
  d3Entries : Nat := 0
  zeroising : Option Nat := none
  zeroAt : Nat := 0
  force : Bool := false
  spdm : Tab Spdm := []
  eid : Nat := 0
  jtagIr : Nat := 1
  jtagRefused : Bool := false
  boundary : List Bool := []
deriving DecidableEq, Repr
/-! ### What the part sends out -/

/-- Something the part sends: to host memory, to a host or over a pin. -/
inductive Out where
  | writeRefused (req off status : Nat)
  | jtagBoundary (levels : List Bool)
  | record (fn cq addr : Nat) (data : List Byte)
  | msix (fn vec addr data : Nat)
  | readData (req : Nat) (off value : Nat)
  | readBytes (fn : Nat) (bytes : List Byte) (poisoned : Bool)
  | readUR (fn : Nat)
  | readCA (fn : Nat)
  | descRead (fn sq slot count : Nat)
  | hostRead (fn : Nat) (addr len : Nat)
  | hostWrite (fn : Nat) (addr : Nat) (data : List Byte) (poisoned relaxed : Bool)
  | tokenRecord (fn addr : Nat) (data : List Byte)
  | aerFatal (port : Nat)
  | flit (port : Nat) (bytes : List Byte)
  | spdm (transport : Nat) (bytes : List Byte)
  | spdmError (transport code data : Nat)
  | mctp (bytes : List Byte)
  | inputReport (millivolts centiamps watts : Nat)
  | doe (port : Nat) (bytes : List Byte)
  | jtag (ir : Nat)
  | jtagId (code : Nat)
  | araAnswer (addr : Nat)
deriving DecidableEq, Repr

/-- Everything volatile. -/
structure Chip where
  /-- Local time in ns (R379). -/
  time : Nat := 0
  /-- The counter free values are drawn with (the model's own field); the first nonce has taken number 0. -/
  free : Nat := 1
  /-- The number the next fetched command gets (the model's own field). -/
  nextCmd : Nat := 0
  /-- The stamp of the next arrival, which orders instants (the model's own field). -/
  instant : Nat := 0
  /-- Writes staged in the step under way (the model's own field): empty between steps. -/
  staged : List Store := []
  /-- The vectors whose message the step under way has sent (the model's own field): empty between steps. -/
  sentVecs : List (Nat × Nat) := []
  /-- The entries the step under way has appended to the trace buffer (the model's own field): 0 between steps. -/
  traced : Nat := 0
  /-- What the part has sent, newest first (the model's own field). -/
  outbox : List Out := []
  /-- Page headers by frame index (R25); a page not listed is at its reset value. -/
  headers : Tab Header := []
  /-- Stored block-specific registers that differ from their reset value, by 1,024 · frame + offset / 4. -/
  regs : Tab (BitVec 32) := []
  /-- Per-requester selections, by 2^24 · requester + 1,024 · frame + offset / 4. -/
  sel : Tab (BitVec 32) := []
  /-- Counter latches (R32), by 2^14 · requester + frame: index and high word. -/
  latch : Tab (Nat × Nat) := []
  /-- The event table (R43); an entry not listed is at its default. -/
  events : Tab Event := []
  /-- Fetched commands, oldest fetched first. -/
  cmds : List Cmd := []
  /-- Submission queues by 256 · function + queue. -/
  sqs : Tab SQ := []
  /-- Completion queues by 256 · function + queue. -/
  cqs : Tab CQ := []
  /-- Function registers by function. -/
  fns : Tab FnRegs := []
  /-- The PCIe ports. -/
  pcie : Tab PciePort := []
  /-- The primary port (R340). -/
  primary : Nat := 0
  /-- Fatal cause (R358); 0 when not fatal. -/
  fatal : Nat := 0
  /-- Loadable objects by 2^16 · id + 2^8 · scope + instance, where scope is the partition or 16 for the device. -/
  tables : Tab Table := []
  /-- Formed partitions. -/
  parts : Tab Part := []
  /-- The time of the regulators' last refill (R319). -/
  regAt : Nat := 0
  /-- Cell pairs. -/
  pairs : Tab PairRes := []
  /-- Keep buffers: cell n at n, stack engine s at 96 + s. -/
  keeps : Tab Keep := []
  /-- Virtual times of the fair queueing (R318) by 16 · engine + partition. -/
  vtime : Tab Nat := []
  /-- The instant each command that waits became ready on its shared engine (R318), by its number. -/
  readied : Tab Nat := []
  /-- Self-test registers (R407): a test is running, its ENGINE and INDEX, and the last RESULT. -/
  selftest : SelfTest := {}
  /-- The management controller (R415). -/
  sorrel : Sorrel := {}
  /-- The trace buffer (R416) by index, and the appends since device reset. -/
  trace : Tab TraceEntry := []
  traceHead : Nat := 0
  /-- Memory tiers (chapters 06, 07). -/
  tiers : Tiers := {}
  /-- The soft-target bridge (chapter 08). -/
  bridge : Bridge := {}
  /-- Step gates by partition (chapter 09). -/
  gates : Tab Gate := []
  /-- Link ports and transactions (chapter 10). -/
  links : Links := {}
  /-- Collectives (chapter 11). -/
  coll : Coll := {}
  /-- Serving (chapter 12). -/
  serve : Serving := {}
  /-- Power, pace and clocking (chapter 15). -/
  power : Power := {}
  /-- Security (chapter 16). -/
  sec : Sec := {}
  /-- Pins (chapters 15, 19). -/
  pins : Pins := {}
deriving DecidableEq, Repr

/-- The identity area of the flash (R386, R392, R393): the draw that made the wrapped key, and the chains of slots 0 and
1. -/
structure Identity where
  key : Option Nat := none
  chain0 : List Byte := []
  chain1 : List Byte := []
deriving DecidableEq, Repr

/-- The intent record of a lifecycle transition (R390): the code of the state it leads to, and for OWNED the hash of the new
owner key and the VENDOR_ACCEPT to fuse. -/
structure Intent where
  dest : Nat
  key : Nat := 0
  accept : Bool := false
deriving DecidableEq, Repr

/-- The fuses and what outlives every power state: Foxglove's fields (R390), the repair bank (R404) and the identity area;
`intent` is a transition begun and not completed. -/
structure Fuses where
  lifecycle : Nat := 0
  vendorRoot : Nat := 0
  ownerSlots : List (Option Nat) := [none, none, none, none]
  ownerRevoked : List Bool := [false, false, false, false]
  vendorAccept : Bool := false
  svnMin : Nat := 0
  intent : Option Intent := none
  secret : Nat := 0
  serial : Nat := 0
  repair : Repair := {}
  ident : Identity := {}
deriving DecidableEq, Repr

/-- The state of the block. -/
structure State where
  chip : Chip
  mem : Memory
  fuse : Fuses
  pending : List Instr
deriving DecidableEq, Repr

/-- The machine right after a device reset (R357, R424). -/
def State.reset : State := { chip := {}, mem := { cells := [], lines := [] }, fuse := {}, pending := [] }

end Sys2Proof.Machine
end

