-- ==== Sys2Proof/Machine/BridgeMath.lean ====
section
/-! DEFINITION. The arithmetic of the soft-target bridge (chapter 08): logits to log2 fixed point, folds, selection,
records' fields, gradients and losses, each defined to the bit. -/

namespace Sys2Proof.Machine

/-- Bisection for the largest `n` in `[lo, lo + 2^i)` with `(2n - 1)^65536 ≤ 2^(32 · 65536 + f)`. -/
def expBisect (f : Nat) : Nat → Nat → Nat
  | 0, lo => lo
  | i + 1, lo => if (2 * (lo + 2 ^ i) - 1) ^ 65536 ≤ 2 ^ (32 * 65536 + f) then expBisect f i (lo + 2 ^ i) else expBisect f i lo

/-- T[f] = rne(2^(31 + f / 65536)) (chapter 08, Teacher rows): exact at 0, irrational elsewhere. -/
def expTable (f : Nat) : Nat := if f = 0 then 2 ^ 31 else expBisect f 31 (2 ^ 31)

/-- rne(2^16 · log2 m) of a positive integer: exact for a power of two, irrational elsewhere. -/
def log2Fix (m : Nat) : Int :=
  if m = 2 ^ Nat.log2 m then 65536 * (Nat.log2 m : Int) else ((Nat.log2 (m ^ 131072) + 1) / 2 : Nat)

/-- L2 of a binary32 value (R187): rne(2^16 · log2 x). -/
def l2F32 (b : Nat) : Int :=
  match ofF32 b with
  | .num _ m e => log2Fix m + 65536 * e
  | _ => 0

/-- The constant 0x3FB8_AA3B, log2(e) in FP32 (R174, R184). -/
def log2e : Nat := 0x3FB8AA3B

/-- fix(z, scale) of a finite logit (R180). -/
def logitFix (z scale : Nat) : Int :=
  match ofF32 (fmul z scale) with
  | .inf n => if n then -(2 ^ 30) else 2 ^ 30 - 1
  | .nan => 0
  | v => clampInt (v.scale 16).rneInt (-(2 ^ 30)) (2 ^ 30 - 1)

/-- term(Y, a) (R180). -/
def termOf (y a : Int) : Nat := rneShift (expTable (y % 65536).toNat) (y / 65536 - a)

/-- fold(row, tile) (R180): a tile with no unmasked finite entry changes nothing. -/
def LogAcc.fold (r : LogAcc) (ys : List Int) : LogAcc :=
  match ys with
  | [] => r
  | y :: ys =>
    let a := ys.foldl (fun m v => max m (v / 65536)) (y / 65536)
    let s := (y :: ys).foldl (fun t v => t + termOf v a) 0
    match r.a with
    | none => { a := some a, s := s }
    | some b => if b < a then { a := some a, s := rneShift r.s (b - a) + s } else { a := some b, s := r.s + rneShift s (a - b) }

/-- lz(row): log2 Z, signed Q15.16 (R180). -/
def LogAcc.lz (r : LogAcc) : Int := r.a.getD 0 * 65536 + log2Fix r.s - 31 * 65536

/-- E(d) for d ≤ 0, as Q.31 (R180). -/
def expQ31 (d : Int) : Nat := rneShift (expTable (d % 65536).toNat) (d / 65536)

/-- pval(c): the Q.31 value of a PCODE (R182). -/
def pval (c : Nat) : Nat := if c = 0 then 0 else expQ31 (-((4095 - c : Nat) : Int) * 512)

/-- The order of a selection (R182): descending Y, equal Y to the lower index. -/
def selBefore (a b : Int × Nat) : Bool := b.1 < a.1 || (a.1 = b.1 && a.2 < b.2)

/-- An entry put into a selection of at most `k` (R182). -/
def selInsert (e : Int × Nat) : List (Int × Nat) → List (Int × Nat)
  | [] => [e]
  | x :: l => if selBefore e x then e :: x :: l else x :: selInsert e l

/-- Entries put into a selection of at most `k`, in turn (R182). -/
def selAll (k : Nat) (sel es : List (Int × Nat)) : List (Int × Nat) := es.foldl (fun l e => (selInsert e l).take k) sel

/-- PCODE of an entry (R182). -/
def pcode (l y : Int) : Nat :=
  let v := 4095 - ((Val.ofInt (l - y)).scale (-9)).rneInt
  if v < 1 then 0 else (min v 4095).toNat

/-- The FP32 rounding of (S − S_K) / S, or +0 where S ≤ S_K (R182, R184). -/
def tailF32 (s sk : Nat) : Nat := if s ≤ sk then 0 else toF32 ((Val.ofInt (s - sk : Nat)).div (Val.ofInt s))

/-- A record's entries from its bytes: INDEX and PCODE (R168). -/
def recEntries (b : List Byte) (k : Nat) : List (Nat × Nat) :=
  (List.range k).map (fun i => let w := leNat ((b.drop (24 + 4 * i)).take 4); (w % 2 ^ 20, w / 2 ^ 20))

/-- A 4-byte field of a record. -/
def recWord (b : List Byte) (off : Nat) : Nat := leNat ((b.drop off).take 4)

/-- The effective temperature (R174). -/
def tauE (tau : Nat) : Val := if tau = 0 then Val.ofInt 1 else ofF32 tau

/-- c1 and c2 of R185. -/
def gradCoeffs (alpha tau gscale : Nat) : Nat × Nat :=
  let a := ofF32 alpha
  let g := ofF32 gscale
  (toF32 (a.mul g), toF32 ((((Val.ofInt 1).sub a).mul (tauE tau)).mul g))

/-- An exact value with a zero taken as +0. -/
def Val.plusZero (v : Val) : Val := if v.isZero then Val.zero else v

/-- grad(j) of R185, before encoding. -/
def gradOf (c : Nat × Nat) (ratio : Nat) (lz1 lzt y1 yt : Int) (code : Option Nat) (label : Bool) : Val :=
  let p1 : Nat := expQ31 (min (y1 - lz1) 0)
  let pt : Nat := expQ31 (min (yt - lzt) 0)
  let q : Int := match code with
    | some e => (pval e : Int)
    | none => ((Val.ofInt pt).mul (ofF32 ratio)).rneInt
  let h : Int := if label then 2 ^ 31 else 0
  ((((ofF32 c.1).mul (Val.ofInt (p1 - h))).add ((ofF32 c.2).mul (Val.ofInt (pt - q)))).scale (-31)).plusZero

/-- ln 2 to within 2^-1250, far finer than any rounding of R187 resolves. -/
def ln2 : Val := .num false ((List.range 1264).foldl (fun s k => s + 2 ^ 1264 / ((k + 1) * 2 ^ (k + 1))) 0) (-1264)

/-- CE, KL and LOSS of a token (R187), from its label's Y1 and its entries' PCODE with Yt. -/
def lossOf (alpha tau tailT tailS : Nat) (lz1 lzt y1 : Int) (es : List (Nat × Int)) : Nat × Nat × Nat :=
  let ce := toF32 ((ln2.mul (Val.ofInt (lz1 - y1))).scale (-16)).plusZero
  let top : Int := es.foldl (fun s e => s + (pval e.1 : Int) * (-((4095 - e.1 : Nat) : Int) * 512 - (e.2 - lzt))) 0
  let tail := if (ofF32 tailT).isZero then Val.zero
    else ((ofF32 tailT).mul (Val.ofInt (l2F32 tailT - l2F32 tailS))).scale (-16)
  let kl := toF32 (ln2.mul (((Val.ofInt top).scale (-47)).add tail)).plusZero
  let a := ofF32 alpha
  let te := tauE tau
  let loss := toF32 ((a.mul (ofF32 ce)).add ((((Val.ofInt 1).sub a).mul (te.mul te)).mul (ofF32 kl))).plusZero
  (ce, kl, loss)

/-- A TAU and SCALE usable as a temperature entry (R174). -/
def tempUsable (tau scale : Nat) : Bool :=
  (tau = 0 && scale = log2e) ||
    ((match ofF32 tau with
      | .num false m e => !(Val.num false m e).lt (.num false 1 (-4)) && !(Val.num false 1 6).lt (.num false m e)
      | _ => false) && scale = toF32 (log2eExact.div (ofF32 tau)))
where
  /-- log2(e) = 1 / ln 2, to within 2^-200. -/
  log2eExact : Val := (Val.ofInt 1).div ln2

end Sys2Proof.Machine
end

