-- ==== Sys2Proof/Machine/Ops.lean ====
section
/-! DEFINITION. The named operations over memory, pages, counters, interrupts, functions and addresses that every
meaning is written with. Nothing here reads an opcode. -/

namespace Sys2Proof.Machine

/-! ### Memory -/

/-- An entry of a sparse list whose unlisted entries are `d`: keys rising, `d` never listed. -/
def sparseSet {α : Type} [DecidableEq α] (d : α) : List (Nat × α) → Nat → α → List (Nat × α)
  | [], k, v => if v = d then [] else [(k, v)]
  | (i, x) :: t, k, v =>
    if i < k then (i, x) :: sparseSet d t k v
    else if i = k then (if v = d then t else (k, v) :: t)
    else if v = d then (i, x) :: t else (k, v) :: (i, x) :: t

/-- The byte at a physical key; a byte nothing has written reads 0 (R159, R160, R365). -/
def Memory.byte (m : Memory) (k : Nat) : Byte := tabGet 0 m.cells k

/-- The bytes from a physical key on. -/
def Memory.bytes (m : Memory) (k n : Nat) : List Byte := (List.range n).map (fun i => m.byte (k + i))

/-- The health of a line. -/
def Memory.health (m : Memory) (line : Nat) : Health := tabGet .good m.lines line

/-- One byte written. -/
def Memory.setByte (m : Memory) (k : Nat) (b : Byte) : Memory := { m with cells := sparseSet 0 m.cells k b }

/-- Bytes written one after another. -/
def Memory.setBytes : Memory → Nat → List Byte → Memory
  | m, _, [] => m
  | m, k, b :: bs => (m.setByte k b).setBytes (k + 1) bs

/-- A line's health set; a good line bears no injected error. -/
def Memory.setHealth (m : Memory) (line : Nat) (h : Health) : Memory :=
  { m with
    lines := sparseSet .good m.lines line h
    injected := if h = .good then sparseSet false m.injected line false else m.injected }

/-- The error of a line was injected, wholly or in part (R419). -/
def Memory.isInjected (m : Memory) (line : Nat) : Bool := tabGet false m.injected line

/-- A line marked as bearing an injected error. -/
def Memory.mark (m : Memory) (line : Nat) : Memory := { m with injected := sparseSet false m.injected line true }

/-- The lines wholly inside a run of bytes become good: a full-line write clears poison (R153, R409). -/
def Memory.clearLines (m : Memory) (k n : Nat) : Memory :=
  let out (l : Nat) : Bool := !(k ≤ 64 * l && 64 * l + 64 ≤ k + n)
  { m with lines := m.lines.filter (fun e => out e.1), injected := m.injected.filter (fun e => out e.1) }

/-- A staged write applied. -/
def Store.apply (m : Memory) : Store → Memory
  | .bytes k d => (m.clearLines k d.length).setBytes k d
  | .zero k n => { m.clearLines k n with cells := m.cells.filter (fun e => !(k ≤ e.1 && e.1 < k + n)) }
  | .health l h => m.setHealth l h
  | .injected l h => if h = .good then m.setHealth l h else (m.setHealth l h).mark l
  | .unspecified k n s => (m.clearLines k n).setBytes k ((List.range n).map (fun i => Config.freeByte (s + i)))

/-- Staged writes applied in order: a step's outputs commit together (R39). -/
def Memory.commit (m : Memory) (ss : List Store) : Memory := ss.foldl Store.apply m

/-- Keys strictly rising and no entry equal to the default. -/
def sparseOk {α : Type} [DecidableEq α] (d : α) : List (Nat × α) → Bool
  | [] => true
  | [(_, v)] => !(v = d)
  | (i, v) :: (j, w) :: t => !(v = d) && i < j && sparseOk d ((j, w) :: t)

/-- The canonical form of memory. -/
def Memory.wf (m : Memory) : Bool := sparseOk 0 m.cells && sparseOk .good m.lines && sparseOk false m.injected

/-! ### Steps -/

/-- What a meaning reads beside the chip: memory and the fuses as they were before the step, and the frames of the pages on which ECC
injection was armed then (R417). -/
structure Ctx where
  mem : Memory
  fuse : Fuses
  ecc : List Nat := []
deriving DecidableEq, Repr

/-- Fuses are programmed one way only (R390): the lifecycle and SVN_MIN never go back, a revoked slot stays revoked. -/
def Fuses.blow (old new : Fuses) : Fuses :=
  { new with
    lifecycle := max old.lifecycle new.lifecycle
    svnMin := max old.svnMin new.svnMin
    ownerRevoked := List.zipWith (fun a b => a || b) old.ownerRevoked new.ownerRevoked
    vendorAccept := new.vendorAccept }

/-- A chip between steps: nothing staged, no vector's message counted as sent in this step, and no trace entry as its. -/
def Chip.between (c : Chip) : Chip := { c with staged := [], sentVecs := [], traced := 0 }

/-- A staged write added. -/
def Chip.stage (c : Chip) (st : Store) : Chip := { c with staged := c.staged ++ [st] }

/-- Something sent out. -/
def Chip.send (c : Chip) (o : Out) : Chip := { c with outbox := o :: c.outbox }

/-- The stamp of a new instant. -/
def Chip.tick (c : Chip) : Chip := { c with instant := c.instant + 1 }

/-- The counter of free values advanced by `n` draws. -/
def Chip.draw (c : Chip) (n : Nat) : Chip := { c with free := c.free + n }

/-! ### Page headers, counters, interrupts -/

/-- A page's header after device reset (R424). -/
def Header.reset (f : Nat) : Header :=
  match Page.ofFrame f with
  | some p => { irqMask := BitVec.ofNat 32 (2 ^ p.blk.nIrq - 1) }
  | none => { irqMask := 0 }

/-- The header at a frame. -/
def Chip.hdr (c : Chip) (f : Nat) : Header := tabGet (Header.reset f) c.headers f

/-- The header at a frame replaced. -/
def Chip.putHdr (c : Chip) (f : Nat) (h : Header) : Chip := { c with headers := tabSet c.headers f h }

/-- The pending sources (R30). -/
def Header.irqPend (h : Header) : BitVec 32 := h.irqRaw &&& ~~~ h.irqMask

/-- The page's interrupt output (R31). -/
def Header.output (h : Header) : Bool := h.irqEn && h.irqPend != 0

/-- The partition a function is bound to (R338). -/
def Chip.partOfFn (c : Chip) (fn : Nat) : Option Nat := (c.parts.find? (fun e => e.2.fn = fn)).map Prod.fst

/-- The partition's data, if formed. -/
def Chip.part? (c : Chip) (p : Nat) : Option Part := tabFind c.parts p

/-- A formed partition changed. -/
def Chip.modPart (c : Chip) (p : Nat) (f : Part → Part) : Chip :=
  { c with parts := c.parts.map (fun e => if e.1 = p then (e.1, f e.2) else e) }

/-- The earliest-formed partition that claims a pair (R314). -/
def Chip.firstClaimant (c : Chip) (q : Nat) : Option Nat :=
  ((c.parts.filter (fun e => bitAt e.2.pairs q)).foldl (fun (b : Option (Nat × Nat)) e =>
    match b with
    | none => some (e.2.formedAt, e.1)
    | some x => if e.2.formedAt < x.1 then some (e.2.formedAt, e.1) else some x) none).map Prod.snd

/-- PART_TAG of a page: the partition it is bound to (R313, R314, R421). -/
def Chip.pageTag (c : Chip) (pg : Page) : Option Nat :=
  match pg.blk with
  | .part => (c.part? pg.inst).map (fun _ => pg.inst)
  | .gate => (c.part? pg.inst).map (fun _ => pg.inst)
  | .serve => (c.part? pg.inst).map (fun _ => pg.inst)
  | .meadow => c.firstClaimant (pg.inst / 2)
  | .cdma => c.firstClaimant (pg.inst / 2)
  | _ => none

/-- The logical cells of a partition in rank order (R310). -/
def Part.cells (p : Part) : List Nat := (bitsOf 48 p.pairs).flatMap (fun q => [2 * q, 2 * q + 1])

/-- A cell's rank in a partition (R310). -/
def Part.rankOf (p : Part) (n : Nat) : Option Nat := p.cells.findIdx? (fun x => x = n)

/-- The page a slot of a virtual function's BAR0 shows, for a function bound to a partition (R342). -/
def Chip.slotPage (c : Chip) (p slot : Nat) : Option Page :=
  match c.part? p with
  | none => none
  | some pt =>
    if slot = 0 then some { blk := .part, inst := p }
    else if slot = 1 then some { blk := .gate, inst := p }
    else if slot = 2 then some { blk := .serve, inst := p }
    else if slot < 16 then none
    else match pt.cells[(slot - 16) / 2]? with
      | none => none
      | some n =>
        let pg : Page := { blk := if slot % 2 = 0 then .meadow else .cdma, inst := n }
        if c.pageTag pg = some p then some pg else none

/-- A function sees a page's interrupt output (R351). -/
def Chip.fnSeesIrq (c : Chip) (fn : Nat) (pg : Page) : Bool :=
  match c.pageTag pg with
  | none => fn % 32 = 0 && fn / 32 = c.primary
  | some p =>
    match c.part? p with
    | none => false
    | some pt => if fn % 32 = 0 then pt.fn / 32 = fn / 32 else pt.fn = fn

/-- A function's registers. -/
def Chip.fnRegs (c : Chip) (fn : Nat) : FnRegs := tabGet {} c.fns fn

/-- A function's registers replaced. -/
def Chip.putFn (c : Chip) (fn : Nat) (r : FnRegs) : Chip := { c with fns := tabSet c.fns fn r }

/-- A vector's message: the address and data of its MSI-X table entry. -/
def FnRegs.message (r : FnRegs) (fn vec : Nat) : Out :=
  .msix fn vec ((tabGet 0 r.msix (4 * vec)).toNat + 2 ^ 32 * (tabGet 0 r.msix (4 * vec + 1)).toNat) (tabGet 0 r.msix (4 * vec + 2)).toNat

/-- A PCIe port. -/
def Chip.port (c : Chip) (x : Nat) : PciePort := tabGet {} c.pcie x

/-- A PCIe port replaced. -/
def Chip.putPort (c : Chip) (x : Nat) (p : PciePort) : Chip := { c with pcie := tabSet c.pcie x p }

/-- An entry placed at index `i` of the trace buffer, below those of the `n` before it that its frame and then its source precede; these
move up (R416). -/
def traceInsert : Nat → Nat → TraceEntry → Tab TraceEntry → Tab TraceEntry
  | 0, i, e, t => tabSet t (i % 4096) e
  | n + 1, i, e, t => match tabFind t ((i + 4095) % 4096) with
    | none => tabSet t (i % 4096) e
    | some o =>
      if 64 * e.frame + e.source < 64 * o.frame + o.source then traceInsert n (i + 4095) e (tabSet t (i % 4096) o)
      else tabSet t (i % 4096) e

/-- An entry appended to the trace buffer, in the order of R416 among those of the same step. -/
def Chip.traceAppend (c : Chip) (f src info : Nat) : Chip :=
  { c with
    trace := traceInsert (min c.traced 4095) c.traceHead { time := c.time, frame := f, source := src, info := info } c.trace
    traceHead := (c.traceHead + 1) % 2 ^ 32
    traced := c.traced + 1 }

/-- ELOG_CODE (R410). -/
def Elog.code (e : Elog) : Nat := e.status * 2 ^ 24 + e.detail * 2 ^ 16 + e.unit

/-- A count, a source that fires, an output that rises, or a vector that becomes due. -/
inductive Notice where
  | count (f n k : Nat)
  | fire (f src : Nat)
  | rise (f : Nat)
  | vector (fn vec : Nat)
deriving DecidableEq, Repr

/-- A notice acted on: counters saturate and fire source 1 (R413), a firing source sets its IRQ_RAW bit and is traced
(R30, R416), an output that rises makes PAGE_VECTOR due (R351), a due vector is sent, kept pending while masked, or
counted in CTR7 where it cannot be sent (R351). Reasons of one step for one vector make one message, sent after what the last of
them announces (R344, R351). -/
def notice : Nat → Notice → Chip → Chip
  | 0, _, c => c
  | fuel + 1, .count f n k, c =>
    let h := c.hdr f
    let v := h.ctr.getD n 0
    if v + k < 2 ^ 64 then c.putHdr f { h with ctr := listSet h.ctr n (v + k) }
    else
      let was := h.satMap.getLsbD n
      let c := c.putHdr f { h with ctr := listSet h.ctr n (2 ^ 64 - 1), satMap := h.satMap ||| (1#8 <<< n) }
      if was then c else notice fuel (.fire f 1) c
  | fuel + 1, .fire f src, c =>
    let h := c.hdr f
    let h' := { h with irqRaw := h.irqRaw ||| (1#32 <<< src) }
    let c := (c.putHdr f h').traceAppend f src (if src = 0 then h.elog.code else 0)
    if h'.output && !h.output then notice fuel (.rise f) c else c
  | fuel + 1, .rise f, c =>
    match Page.ofFrame f with
    | none => c
    | some pg =>
      (List.range 64).foldl (fun c fn =>
        let r := c.fnRegs fn
        if r.pageVec.getLsbD 31 && c.fnSeesIrq fn pg then notice fuel (.vector fn (r.pageVec.toNat % 2 ^ 11)) c else c) c
  | fuel + 1, .vector fn vec, c =>
    if !(c.port (fn / 32)).linkUp then c
    else if (if fn % 32 = 0 then 2048 else 64) ≤ vec then notice fuel (.count (0x010 + fn / 32) 7 1) c
    else
      let r := c.fnRegs fn
      if !r.unmasked.contains vec then
        (if r.pendingVecs.contains vec then c else c.putFn fn { r with pendingVecs := r.pendingVecs ++ [vec] })
      else if c.sentVecs.contains (fn, vec) then { c with outbox := r.message fn vec :: c.outbox.erase (r.message fn vec) }
      else notice fuel (.count (0x010 + fn / 32) 3 1) (({ c with sentVecs := (fn, vec) :: c.sentVecs } : Chip).send (r.message fn vec))

/-- Nested notices never go deeper than this: each level saturates a counter that had not. -/
def noticeDepth : Nat := 12

/-- Counter `n` of a page raised by `k` (R413). -/
def Chip.count (c : Chip) (f n k : Nat) : Chip := notice noticeDepth (.count f n k) c

/-- An interrupt source of a page fires (R30). -/
def Chip.fire (c : Chip) (f src : Nat) : Chip := notice noticeDepth (.fire f src) c

/-- A vector of a function becomes due (R351). -/
def Chip.vector (c : Chip) (fn vec : Nat) : Chip := notice noticeDepth (.vector fn vec) c

/-- A header replaced by software: an output that rises makes PAGE_VECTOR due. -/
def Chip.setHdr (c : Chip) (f : Nat) (h : Header) : Chip :=
  let old := c.hdr f
  let c := c.putHdr f h
  if h.output && !old.output then notice noticeDepth (.rise f) c else c

/-- ERR_VECTOR of a function becomes due, if enabled (R351). -/
def Chip.errVector (c : Chip) (fn : Nat) : Chip :=
  let r := c.fnRegs fn
  if r.errVec.getLsbD 31 then c.vector fn (r.errVec.toNat % 2 ^ 11) else c

/-- An error to report (R410, R412). -/
structure LogReq where
  cls : Nat
  sev : Nat
  status : Nat := 0
  detail : Nat := 0
  unit : Nat := 0
  addr : Option Nat := none
  part : Option Nat := none
  opcode : Nat := 0
  target : Nat := 0
  injected : Bool := false
deriving DecidableEq, Repr

/-- An error reported to a page: counted, and captured when no entry is held or it is more severe (R411). -/
def Chip.log (c : Chip) (f : Nat) (r : LogReq) : Chip :=
  let h := c.hdr f
  let e := h.elog
  let n := min (e.count + 1) 0xFFFF
  if !e.valid || e.severity < r.sev then
    (c.putHdr f { h with elog :=
      { e with valid := true, severity := r.sev, injected := r.injected, cls := r.cls, count := n, status := r.status
               detail := r.detail, unit := r.unit, addr := r.addr, time := c.time, part := r.part, opcode := r.opcode
               target := r.target } }).fire f 0
  else c.putHdr f { h with elog := { e with count := n, overflow := true } }

/-! ### Power domains (R363, R364) -/

/-- A power domain. -/
def Chip.domain (c : Chip) (d : Nat) : Domain := tabGet {} c.power.domains d

/-- A power domain replaced. -/
def Chip.putDomain (c : Chip) (d : Nat) (v : Domain) : Chip := { c with power.domains := tabSet c.power.domains d v }

/-- A domain is in use now: the time from which an off condition can hold (R364). -/
def Chip.noteUse (c : Chip) (d : Nat) : Chip := c.putDomain d { c.domain d with usedAt := c.time }

/-- HBM and DDR5 cannot be accessed: the memory PLL has no lock (R381), or the tiers are in self-refresh or off (R161,
R367). An access is held. -/
def Chip.memHeld (c : Chip) : Bool := c.power.memLost || c.power.pstate ≠ 0

/-- The link complex has power: P0 outside recovery mode (R363, R367, R388). -/
def Chip.linkOn (c : Chip) : Bool := c.power.pstate = 0 && !c.power.off && !c.sec.recovery

/-- Something that only the powered link complex does. -/
def Chip.whenLinked (c : Chip) (f : Chip → Chip) : Chip := if c.linkOn then f c else c

/-! ### Stored registers -/

/-- The key of a stored register. -/
def regKey (f off : Nat) : Nat := 1024 * f + off / 4

/-- A stored block-specific register, with its reset value. -/
def Chip.reg (c : Chip) (f off : Nat) (reset : Nat) : Nat :=
  match tabFind c.regs (regKey f off) with
  | some v => v.toNat
  | none => reset

/-- A stored block-specific register set. -/
def Chip.setReg (c : Chip) (f off v : Nat) : Chip := { c with regs := tabSet c.regs (regKey f off) (BitVec.ofNat 32 v) }

/-- A per-requester selection (R32's manner). -/
def Chip.selOf (c : Chip) (req f off : Nat) : Nat := (tabGet 0 c.sel (2 ^ 24 * req + regKey f off)).toNat

/-- A per-requester selection set. -/
def Chip.setSel (c : Chip) (req f off v : Nat) : Chip :=
  { c with sel := tabSet c.sel (2 ^ 24 * req + regKey f off) (BitVec.ofNat 32 v) }

/-- The block-specific registers of a page return to their reset values (R28). -/
def Chip.resetRegs (c : Chip) (f : Nat) : Chip := { c with regs := tabDelRange c.regs (1024 * f + 64) (1024 * f + 1024) }

/-! ### The configuration space (R336, R338, R341) -/

/-- The bits of a configuration word that software writes and nothing else acts on: of a physical function command, BARs by their sizes, and
the virtual functions' BARs; of both MSI-X Control, Device Control with Relaxed Ordering, payload and read request sizes, ASPM L1,
the completion timeout, and the masks of AER. -/
def FnRegs.cfgMask (r : FnRegs) (pf : Bool) (o : Nat) : Nat :=
  let low (log : Nat) : Nat := 2 ^ 32 - 2 ^ min log 32
  let high (log : Nat) : Nat := 2 ^ 32 - 2 ^ (log - 32)
  match o with
  | 0x004 => if pf then 0x546 else 4
  | 0x040 => 0xC0000000
  | 0x078 => 0x71FF
  | 0x080 => 0x42
  | 0x098 => 0x1F
  | 0x108 => 0x07FFF030
  | 0x10C => 0x07FFF030
  | 0x114 => 0xF1C1
  | 0x010 => if pf then low 26 else 0
  | 0x014 => if pf then (2 ^ 32 - 1) else 0
  | 0x018 => if pf then low 21 else 0
  | 0x01C => if pf then (2 ^ 32 - 1) else 0
  | 0x020 => if pf then low r.bar4Log else 0
  | 0x024 => if pf then high r.bar4Log else 0
  | 0x208 => if pf then 8 else 0
  | 0x224 => if pf then low 20 else 0
  | 0x228 => if pf then (2 ^ 32 - 1) else 0
  | 0x22C => if pf then low 21 else 0
  | 0x230 => if pf then (2 ^ 32 - 1) else 0
  | 0x234 => if pf then low r.vfBar4Log else 0
  | 0x238 => if pf then high r.vfBar4Log else 0
  | _ => 0

/-- Their values after reset: Relaxed Ordering on, read requests of 512 bytes, the severities of AER. -/
def cfgReset (o : Nat) : Nat := if o = 0x078 then 0x2010 else if o = 0x10C then 0x00462030 else 0

/-- The bits of a configuration word that software has written. -/
def Chip.cfgBits (c : Chip) (fn o : Nat) : Nat :=
  let r := c.fnRegs fn
  ((tabFind r.cfg o).map (fun v => v.toNat)).getD (cfgReset o) &&& r.cfgMask (fn % 32 = 0) o

/-- Those bits written; a payload size above 512 bytes, or a read request size above 4,096, is not taken (R336). -/
def Chip.cfgPut (c : Chip) (fn o v : Nat) : Chip :=
  let r := c.fnRegs fn
  let old := c.cfgBits fn o
  let keep := if o = 0x078 then (if 2 < bitField v 7 5 then 0xE0 else 0) + (if 5 < bitField v 14 12 then 0x7000 else 0) else 0
  let m := r.cfgMask (fn % 32 = 0) o
  if m = 0 then c else c.putFn fn { r with cfg := tabSet r.cfg o (BitVec.ofNat 32 ((v &&& m &&& ((2 ^ 32 - 1) - keep)) ||| (old &&& keep))) }

/-! ### Who may see and write (R33) -/

/-- A debug session of at least a level is held by a requester (R396). -/
def Chip.session (c : Chip) (req : Requester) (level : Nat) : Bool := level ≤ c.sec.dbgLevel && 0 < level && c.sec.dbgHolder = req.code

/-- A requester may see a partition (R33). -/
def Chip.maySee (c : Chip) (req : Requester) (p : Nat) : Bool :=
  match req with
  | .mgmt => true
  | .pf x => x = c.primary || (match c.part? p with
    | some pt => pt.fn / 32 = x
    | none => false)
  | .vf x i => (match c.part? p with
    | some pt => pt.fn = 32 * x + i
    | none => false)
  | .jtag => c.sec.dbgLevel = 3

/-- Offsets a virtual function may write while VF_WRITE is 1 (R33). -/
def vfWritable (off : Nat) : Bool := off = 0x008 || off = 0x014 || off = 0x01C || 0x100 ≤ off

/-- Permission to write a page, VF_WRITE left aside (R33); a D3 session's holder writes every register (R396). -/
def Chip.mayWriteBase (c : Chip) (req : Requester) (pg : Page) : Bool :=
  c.session req 3 || match req with
  | .mgmt => true
  | .jtag => false
  | .pf x => (match c.pageTag pg with
    | none => x = c.primary
    | some p => (match c.part? p with
      | some pt => pt.fn / 32 = x
      | none => false))
  | .vf x i => (match c.pageTag pg with
    | none => false
    | some p => (match c.part? p with
      | some pt => pt.fn = 32 * x + i
      | none => false))

/-- Permission to write a register of a page (R33). -/
def Chip.mayWrite (c : Chip) (req : Requester) (pg : Page) (off : Nat) : Bool :=
  c.mayWriteBase req pg && (match req with
    | .vf _ _ => vfWritable off && (c.hdr pg.frame).vfWrite
    | _ => true)

/-- The page is bound to the partition of a debug session at D2 or above that the requester holds (R396). -/
def Chip.sessionPage (c : Chip) (req : Requester) (pg : Page) : Bool :=
  c.session req 2 && c.sec.partValid && c.sec.dbgPart.isSome && c.pageTag pg = c.sec.dbgPart

/-- Permission to write a page's QUIESCE (R33, R396). -/
def Chip.mayQuiesce (c : Chip) (req : Requester) (pg : Page) : Bool := c.mayWrite req pg 0x008 || c.sessionPage req pg

/-- Permission to read the block-specific registers of a page (R33). -/
def Chip.mayReadBlock (c : Chip) (req : Requester) (pg : Page) : Bool :=
  c.mayWriteBase req pg || (match c.pageTag pg with
    | some p => c.maySee req p
    | none => false)

/-- A refused write sets ACCESS_DENIED (R33). -/
def Chip.deny (c : Chip) (pg : Page) : Chip := c.putHdr pg.frame { c.hdr pg.frame with accessDenied := true }

/-- A reserved bit written 1 sets RSVD_WR (R9). -/
def Chip.rsvd (c : Chip) (pg : Page) (value mask : Nat) : Chip :=
  if value &&& mask = 0 then c else c.putHdr pg.frame { c.hdr pg.frame with rsvdWr := true }

/-! ### The spare map and the arrays' widths (R15, R96, R404) -/

/-- The physical cell, 52 · die + index, that carries a logical cell (R15, R404): the factory assignment, then the
field entries in order. -/
def Fuses.phys (fz : Fuses) (n : Nat) : Nat :=
  let die := n / 48
  let base := tabGet (n % 48) fz.repair.factory n
  let idx := (if die = 0 then fz.repair.west else fz.repair.east).foldl (fun b e => match e with
    | .retire l ph => if l = n then ph else b
    | .bypass _ _ _ => b) base
  52 * die + idx

/-- The logical cell was moved by a field entry (MAP.FIELD, R407). -/
def Fuses.fieldMoved (fz : Fuses) (n : Nat) : Bool :=
  (if n / 48 = 0 then fz.repair.west else fz.repair.east).any (fun e => match e with
    | .retire l _ => l = n
    | .bypass _ _ _ => false)

/-- The physical unit of an array unit: cell n at n, stack engine s at 96 + s. -/
def Fuses.physUnit (fz : Fuses) (u : Nat) : Nat := if u < 96 then fz.phys u else 104 + (u - 96)

/-- The bypassed physical columns of an array of a unit (R96). -/
def Fuses.bypassed (fz : Fuses) (u : Nat) (b : Bool) : List Nat :=
  let ph := fz.physUnit u
  ((fz.repair.factoryBypass ++ fz.repair.west ++ fz.repair.east).filterMap (fun e => match e with
    | .bypass x arr col => if x = ph && arr = b then some col else none
    | .retire _ _ => none)).eraseDups

/-- The reported width of an array: whole (0), west half (1) or east half (2) (R96). -/
def Fuses.width (fz : Fuses) (u : Nat) (b : Bool) (half : Nat) : Nat :=
  let cols := fz.bypassed u b
  if half = 0 then 128 - cols.length
  else if half = 1 then 64 - (cols.filter (· < 64)).length
  else 64 - (cols.filter (64 ≤ ·)).length

/-- W_sel: the sum of the reported widths of the selected arrays (0 A, 1 B, 2 twin) and half (R87). -/
def Fuses.wsel (fz : Fuses) (u arrays half : Nat) : Nat :=
  (if arrays = 1 then 0 else fz.width u false half) + (if arrays = 0 then 0 else fz.width u true half)

/-! ### Addresses (R10, R11, R146-R149) -/

/-- The regions of R10, and the stores with no local address: engine buffers, keep buffers of cell `u` or stack engine `u - 96`, a cell's
program store, the bridge's row store, and the flash (R408). -/
inductive Region.Kind where
  | hbm
  | scratch (cell : Nat)
  | wide (cell : Nat)
  | bridge
  | event
  | control
  | ddr
  | engine (s : Nat)
  | keep (u : Nat)
  | progs (cell : Nat)
  | rows
  | hub (n : Nat)
  | flash
deriving DecidableEq, Repr

/-- The model's own address of a byte of a stack engine's buffer, above every local address. -/
def engAddr (s off : Nat) : Nat := 2 ^ 44 + s * 2 ^ 23 + off

/-- The model's own addresses of the lines of a unit's keep buffer, of a cell's program store, and of the rows of a stream of a ring. What
these stores hold is held elsewhere in the state: only the health of their lines has these addresses. -/
def keepAddr (u : Nat) : Nat := 2 ^ 44 + 2 ^ 40 + u * 2 ^ 24

def progAddr (n : Nat) : Nat := 2 ^ 44 + 2 ^ 41 + n * 2 ^ 21

def rowAddr (ring st : Nat) : Nat := 2 ^ 44 + 2 ^ 42 + (4 * ring + st) * 2 ^ 20

/-- Those of an entry of the event table, and of the Tansy store (0), the scheduler state (1) and the hub's queue state (2), 16 MiB each. -/
def evtAddr (i : Nat) : Nat := 2 ^ 44 + 2 ^ 43 + 16 * i

def hubAddr (n : Nat) : Nat := 2 ^ 44 + 2 ^ 43 + 2 ^ 42 + n * 2 ^ 24

/-- The line of memory's health that an entry of the event table lies in. -/
def evtLine (i : Nat) : Nat := (5 * 2 ^ 48 + 2 ^ 43 + 16 * i) / 64

/-- The model's own address of a byte of the flash. -/
def flashAddr (off : Nat) : Nat := 2 ^ 45 + off

/-- An address in an engine buffer. -/
def isEng (a : Nat) : Bool := 2 ^ 44 ≤ a && a < 2 ^ 45

/-- The local address of a byte of a cell's scratchpad. -/
def scratchAddr (n off : Nat) : Nat := 0x20000000000 + n * 0x1000000 + off

/-- The local address of a byte of a cell's wide gradient buffer. -/
def wideAddr (n off : Nat) : Nat := 0x20800000000 + n * 0x200000 + off

/-- The local address of a byte of bridge SRAM. -/
def bridgeAddr (off : Nat) : Nat := 0x21000000000 + off

/-- The region of R10, and for scratchpads and wide buffers the cell, that holds a run of bytes at a local address; none where the
access fails under R11, or every HBM access after a stack failed (R159). -/
def Chip.region (c : Chip) (a n : Nat) : Option Region.Kind :=
  let last := a + (n - 1)
  if a < 0xD800000000 then (if last < 0xD800000000 && !c.tiers.hbmFailed then some .hbm else none)
  else if 0x20000000000 ≤ a && a < 0x20060000000 then
    let k := (a - 0x20000000000) / 0x1000000
    if last < scratchAddr (k + 1) 0 then some (.scratch k) else none
  else if 0x20800000000 ≤ a && a < 0x2080C000000 then
    let k := (a - 0x20800000000) / 0x200000
    if last < wideAddr (k + 1) 0 then some (.wide k) else none
  else if 0x21000000000 ≤ a && a < 0x2100A000000 then (if last < 0x2100A000000 then some .bridge else none)
  else if 0x21800000000 ≤ a && a < 0x21800100000 then (if last < 0x21800100000 then some .event else none)
  else if 0x3F000000000 ≤ a && a < 0x3F004000000 then (if last < 0x3F004000000 then some .control else none)
  else if 0x40000000000 ≤ a && a < 0x40000000000 + c.tiers.ddrBytes then
    (if last < 0x40000000000 + c.tiers.ddrBytes then some .ddr else none)
  else none

/-- A store of R408 that nothing addresses. -/
def hiddenStore (a : Nat) : Option Region.Kind :=
  if hubAddr 0 ≤ a then (if a < hubAddr 3 then some (.hub ((a - hubAddr 0) / 2 ^ 24)) else none)
  else if evtAddr 0 ≤ a then (if a < evtAddr 65536 then some .event else none)
  else if 2 ^ 44 + 2 ^ 42 ≤ a then (if a < rowAddr 8 0 then some .rows else none)
  else if 2 ^ 44 + 2 ^ 41 ≤ a then (if a < progAddr 96 then some (.progs ((a - progAddr 0) / 2 ^ 21)) else none)
  else if 2 ^ 44 + 2 ^ 40 ≤ a && a < keepAddr 108 then some (.keep ((a - keepAddr 0) / 2 ^ 24)) else none

/-- The store that holds a run of bytes by the model's addresses: a region of R10, or a store that has no local address, an engine
buffer (R278), a store that nothing addresses, or the flash. -/
def Chip.store (c : Chip) (a n : Nat) : Option Region.Kind :=
  if a < 2 ^ 44 then c.region a n
  else if a < 2 ^ 44 + 12 * 2 ^ 23 then (if (a - 2 ^ 44) % 2 ^ 23 + n ≤ 2 ^ 23 then some (.engine ((a - 2 ^ 44) / 2 ^ 23)) else none)
  else if 2 ^ 45 ≤ a then (if a + (n - 1) < 2 ^ 45 + 2 ^ 26 then some .flash else none)
  else hiddenStore a

/-- Stack and stack-local byte of an HBM address outside every window (R146). -/
def hbmInterleave (a : Nat) : Nat × Nat :=
  let p := a / 4096
  let q := p / 12
  let r := p % 12
  ((r + q + q / 12 + q / 144) % 12, q * 4096 + a % 4096)

/-- An enabled window covers an address (R148). -/
def Window.covers (w : Window) (a : Nat) : Bool := w.enable && w.base * 4096 ≤ a && a < (w.base + 12 * w.size) * 4096

/-- Stack and stack-local byte of an HBM address (R146, R148, R149). -/
def Chip.hbmMap (c : Chip) (a : Nat) : Nat × Nat :=
  match c.tiers.windows.find? (fun e => e.2.covers a) with
  | none => hbmInterleave a
  | some (_, w) =>
    let off := a - w.base * 4096
    let per := w.size * 4096
    (off / per, (w.base / 12 + off % per / 4096) * 4096 + a % 4096)

/-- The HBM local address that a stack-local byte has now: the inverse of `hbmMap`. -/
def Chip.hbmAddr (c : Chip) (s b : Nat) : Nat :=
  let q := b / 4096
  match c.tiers.windows.find? (fun e => e.2.enable && e.2.base / 12 ≤ q && q < e.2.base / 12 + e.2.size) with
  | some (_, w) => w.base * 4096 + s * (w.size * 4096) + (q - w.base / 12) * 4096 + b % 4096
  | none =>
    let r := (s + 12 * (q + 1) - (q + q / 12 + q / 144) % 12) % 12
    (12 * q + r) * 4096 + b % 4096

/-- The physical key of a byte (R16, R146, R157): windows and the spare map change addresses, never what is stored. -/
def Chip.key (c : Chip) (fz : Fuses) (a : Nat) : Nat :=
  if a < 0xD800000000 then
    let r := c.hbmMap a
    r.1 * 2 ^ 37 + r.2
  else if a < 0x20060000000 then 2 ^ 48 + fz.phys ((a - 0x20000000000) / 0x1000000) * 2 ^ 24 + (a - 0x20000000000) % 0x1000000
  else if a < 0x2080C000000 then 2 * 2 ^ 48 + fz.phys ((a - 0x20800000000) / 0x200000) * 2 ^ 21 + (a - 0x20800000000) % 0x200000
  else if a < 0x2100A000000 then 3 * 2 ^ 48 + (a - 0x21000000000)
  else if a < 2 ^ 44 then 4 * 2 ^ 48 + (a - 0x40000000000)
  else if a < 2 ^ 45 then 5 * 2 ^ 48 + (a - 2 ^ 44)
  else 6 * 2 ^ 48 + (a - 2 ^ 45)

/-- The byte at a local address. -/
def Chip.rd (c : Chip) (x : Ctx) (a : Nat) : Byte := x.mem.byte (c.key x.fuse a)

/-- The bytes from a local address on. -/
def Chip.rdBytes (c : Chip) (x : Ctx) (a n : Nat) : List Byte := (List.range n).map (fun i => c.rd x (a + i))

/-- A little-endian number read from memory. -/
def Chip.rdNat (c : Chip) (x : Ctx) (a n : Nat) : Nat := leNat (c.rdBytes x a n)

/-- A run of bytes cut at every 4 KiB, within which keys are contiguous. -/
def pieces : Nat → Nat → Nat → List (Nat × Nat)
  | 0, _, _ => []
  | fuel + 1, a, n =>
    if n = 0 then []
    else
      let k := min n (4096 - a % 4096)
      (a, k) :: pieces fuel (a + k) (n - k)

/-- Two ranges share a byte. -/
def overlap (a n b k : Nat) : Bool := a < b + k && b < a + n && 0 < n && 0 < k

/-- Residency entries that a write touches go (R141). -/
def Chip.dropResid (c : Chip) (a n : Nat) : Chip :=
  match c.region a 1 with
  | some (.scratch cell) =>
    let l := tabGet [] c.tiers.resid cell
    if l.any (fun r => overlap (a % 0x1000000) n r.off r.len) then
      { c with tiers.resid := tabSet c.tiers.resid cell (l.filter (fun r => !overlap (a % 0x1000000) n r.off r.len)) }
    else c
  | _ => c

/-- Memory as this step has staged it so far: what a later part of the same step reads. -/
def Ctx.now (x : Ctx) (c : Chip) : Ctx := { x with mem := x.mem.commit c.staged }

/-- Bytes staged for writing at a local address. -/
def Chip.wr (c : Chip) (x : Ctx) (a : Nat) (d : List Byte) : Chip :=
  (pieces (d.length / 4096 + 2) a d.length).foldl (fun c pc =>
    c.stage (.bytes (c.key x.fuse pc.1) ((d.drop (pc.1 - a)).take pc.2))) (c.dropResid a d.length)

/-- A range left unspecified by a failed transfer (R39). -/
def Chip.wrUnspecified (c : Chip) (x : Ctx) (a n : Nat) : Chip :=
  (pieces (n / 4096 + 2) a n).foldl (fun c pc => (c.stage (.unspecified (c.key x.fuse pc.1) pc.2 c.free)).draw pc.2) (c.dropResid a n)

/-- The address a stored byte has now. -/
def Chip.addrOf (c : Chip) (fz : Fuses) (k : Nat) : Option Nat :=
  let tag := k / 2 ^ 48
  let off := k % 2 ^ 48
  if tag = 0 then some (c.hbmAddr (off / 2 ^ 37) (off % 2 ^ 37))
  else if tag = 1 then
    ((List.range 96).find? (fun n => fz.phys n = off / 2 ^ 24)).map (fun n => scratchAddr n (off % 2 ^ 24))
  else if tag = 2 then
    ((List.range 96).find? (fun n => fz.phys n = off / 2 ^ 21)).map (fun n => wideAddr n (off % 2 ^ 21))
  else if tag = 3 then some (bridgeAddr off)
  else if tag = 4 then some (0x40000000000 + off)
  else if tag = 5 then some (2 ^ 44 + off)
  else some (2 ^ 45 + off)

/-- The part of a stored run that lies in a range of local addresses; a run lies within 4 KiB, so its addresses follow one
another. -/
def Chip.runIn (c : Chip) (x : Ctx) (a n k len : Nat) : List (Nat × Nat) :=
  match c.addrOf x.fuse k with
  | none => []
  | some b =>
    let lo := max a b
    let hi := min (a + n) (b + len)
    if lo < hi then [(k + (lo - b), hi - lo)] else []

/-- What a staged write leaves in a range of local addresses, zeroed (R317). -/
def Store.zeroed (st : Store) (c : Chip) (x : Ctx) (a n : Nat) : List Store :=
  match st with
  | .bytes k d => (c.runIn x a n k d.length).map (fun r => .zero r.1 r.2)
  | .zero _ _ => []
  | .health l _ => (c.runIn x a n (64 * l) 1).map (fun _ => .health l .good)
  | .injected l _ => (c.runIn x a n (64 * l) 1).map (fun _ => .health l .good)
  | .unspecified k len _ => (c.runIn x a n k len).map (fun r => .zero r.1 r.2)

/-- A range of local addresses zeroed: the listed bytes and lines in it go, and what the step has staged there (R317, R327). -/
def Chip.wrZero (c : Chip) (x : Ctx) (a n : Nat) : Chip :=
  let hit (k : Nat) : Bool := match c.addrOf x.fuse k with
    | some b => a ≤ b && b < a + n
    | none => false
  let c := { c with staged := c.staged ++ c.staged.flatMap (fun st => st.zeroed c x a n) }
  let c := (x.mem.cells.filter (fun e => hit e.1)).foldl (fun c e => c.stage (.bytes e.1 [0])) c
  (x.mem.lines.filter (fun e => hit (64 * e.1))).foldl (fun c e => c.stage (.health e.1 .good)) c

/-! ### Reading lines that may be bad (R152, R153, R408, R409) -/

/-- The 64-byte lines of a run of bytes, by their first address. -/
def linesOf (a n : Nat) : List Nat := if n = 0 then [] else (List.range ((a + n - 1) / 64 - a / 64 + 1)).map (fun i => 64 * (a / 64 + i))

/-- The health of the line at an address. -/
def Chip.lineHealth (c : Chip) (x : Ctx) (a : Nat) : Health := x.mem.health (c.key x.fuse a / 64)

/-- The DETAIL of ECC_UNCORRECTED for a region (R42, R408). -/
def Region.Kind.eccDetail : Region.Kind → Nat
  | .hbm => 0
  | .ddr => 1
  | .scratch _ => 2
  | .engine _ => 2
  | .keep _ => 2
  | .progs _ => 2
  | .wide _ => 3
  | .bridge => 4
  | .rows => 4
  | _ => 5

/-- The channel of a DDR5 address (R157). -/
def Chip.ddrChannel (c : Chip) (a : Nat) : Nat :=
  let n := c.tiers.ddrChannels.length
  c.tiers.ddrChannels.getD ((a - 0x40000000000) / 4096 % (max n 1)) 0

/-- The bank of a scratchpad byte (R124). -/
def scratchBank (off : Nat) : Nat := (off / 64 % 64) ^^^ (off / 4096 % 64)

/-- The bank of an engine-buffer byte (R278): 32 banks. -/
def engineBank (off : Nat) : Nat := (off / 64 % 32) ^^^ (off / 2048 % 32)

/-- The page of a storage and the sub-unit its log names: a bank, or for a DRAM tier the channel (R408, R412). -/
def Chip.storagePage (c : Chip) (a : Nat) : Option (Page × Nat) :=
  match c.store a 1 with
  | some .hbm =>
    let r := c.hbmMap a
    some ({ blk := .hbm, inst := r.1 }, bitField r.2 11 7 ^^^ bitField r.2 20 16)
  | some .ddr => some ({ blk := .ddr, inst := c.ddrChannel a }, c.ddrChannel a)
  | some (.scratch n) => some ({ blk := .cdma, inst := n }, scratchBank (a % 0x1000000))
  | some (.wide n) => some ({ blk := .cdma, inst := n }, a % 0x200000 / 64 % 16)
  | some (.engine s) => some ({ blk := .cowslip, inst := s }, engineBank (a % 0x800000))
  | some .bridge => some ({ blk := .teasel, inst := 0 }, 0)
  | some (.keep u) => some (if u < 96 then { blk := .meadow, inst := u } else { blk := .cowslip, inst := u - 96 }, 0)
  | some (.progs n) => some ({ blk := .meadow, inst := n }, 0)
  | some .rows => some ({ blk := .teasel, inst := 0 }, 0)
  | some (.hub n) => some (if n = 0 then { blk := .tansy, inst := 0 } else { blk := .pcie, inst := c.primary }, n)
  | _ => none

/-- A tier unit: stack s at s, channel c at 16 + c. -/
def Chip.tier (c : Chip) (u : Nat) : Tier := tabGet {} c.tiers.units u

/-- Every stack shows ZERO_DONE (R159). -/
def Chip.hbmUp (c : Chip) : Bool := (List.range 12).all (fun s => (c.tier s).zeroDone)

/-- Every used DDR5 channel shows ZERO_DONE (R160). -/
def Chip.ddrUp (c : Chip) : Bool := c.tiers.ddrBytes = 0 || c.tiers.ddrChannels.all (fun ch => (c.tier (16 + ch)).zeroDone)

/-- A tier unit replaced. -/
def Chip.putTier (c : Chip) (u : Nat) (t : Tier) : Chip := { c with tiers.units := tabSet c.tiers.units u t }

/-! ### Injected errors (R417, R419) -/

/-- The kinds of store by the tag of a key: 0 HBM, 1 scratchpad, 2 wide buffer, 3 bridge, 4 DDR5, 5 engine buffer and the stores that
nothing addresses, 6 flash. -/
def Region.Kind.tag : Region.Kind → Nat
  | .hbm => 0
  | .scratch _ => 1
  | .wide _ => 2
  | .bridge => 3
  | .ddr => 4
  | .engine _ => 5
  | .keep _ => 5
  | .progs _ => 5
  | .rows => 5
  | .hub _ => 5
  | _ => 6

/-- Bits of a code word on chip (R408): 39 over a word of a wide buffer, else 72 over 8 bytes. -/
def codeBits (tag : Nat) : Nat := if tag = 2 then 39 else 72

/-- Places of a line (R152, R158, R408): 72 symbols of an HBM line, 80 of a DDR5 line, the bits of the code words on chip. -/
def codePlaces (tag : Nat) : Nat := if tag = 0 then 72 else if tag = 4 then 80 else if tag = 2 then 16 * 39 else 8 * 72

/-- The code corrects a change of these places: up to 4 symbols in HBM, up to 8 in DDR5, one bit of each code word on chip. -/
def codeCorrects (tag : Nat) (places : List Nat) : Bool :=
  if tag = 0 then places.length ≤ 4
  else if tag = 4 then places.length ≤ 8
  else (places.map (· / codeBits tag)).eraseDups.length = places.length

/-- A perturbation kind is armed on a page for commands of a partition: without REPEAT, each error kind until its first injection. -/
def Pert.armed (t : Pert) (kind : Nat) (p : Option Nat) : Bool :=
  t.ctrl.getLsbD 31 && t.ctrl.getLsbD kind && (t.ctrl.getLsbD 30 || !t.used.contains kind) &&
    (!t.ctrl.getLsbD 29 || p = some (bitField t.ctrl.toNat 27 24))

/-- An injection of an error kind took place: FIRED; without REPEAT, ARM clears and EXPIRED is set once each armed error kind has had
its first (R417). -/
def Pert.injected (t : Pert) (kind : Nat) : Pert :=
  let t := { t with fired := true, used := if t.used.contains kind then t.used else t.used ++ [kind] }
  if t.ctrl.getLsbD 30 || [3, 4, 5, 6].any (fun i => t.ctrl.getLsbD i && !t.used.contains i) then t
  else { t with expired := true, ctrl := t.ctrl &&& ~~~ (1#32 <<< 31) }

/-- The perturbation of a page after an injection. -/
def Chip.injected (c : Chip) (pg : Page) (kind : Nat) : Chip :=
  let h := c.hdr pg.frame
  c.putHdr pg.frame { h with pert := h.pert.injected kind }

/-- The place that holds a data bit of a line (R152, R158, R408): a symbol holds 8 bits of a DRAM line. -/
def bitPlace (tag b : Nat) : Nat :=
  if tag = 0 || tag = 4 then b / 8 else if tag = 2 then 39 * (b / 32) + b % 32 else 72 * (b / 64) + b % 64

/-- What one or two flipped bits of a good line make of it under the code of its store (R152, R158, R408, R417). -/
def eccHealth (tag mode b0 b1 : Nat) : Health :=
  let ps := ((if mode = 0 then [b0] else [b0, b1]).map (bitPlace tag)).eraseDups
  if mode = 2 then .poison else if mode = 1 && b0 = b1 then .good else if codeCorrects tag ps then .ce ps else .ue

/-- An error on top of what a line bears already. -/
def Health.plus (tag : Nat) (old new : Health) : Health :=
  match old, new with
  | .good, h => h
  | .ce ps, .ce qs => (let u := (ps ++ qs).eraseDups
                       if codeCorrects tag u then .ce u else .ue)
  | .ce ps, .good => .ce ps
  | .ce _, h => h
  | h, _ => h

/-- The frames of the pages on which ECC injection is armed. -/
def Chip.eccFrames (c : Chip) : List Nat := (c.headers.filter (fun e => e.2.pert.ctrl.getLsbD 31 && e.2.pert.ctrl.getLsbD 3)).map Prod.fst

/-- ECC injection meets an access to the line at an address, for a partition: the page of its storage and the error. `onRead` says
whether the access reads; a line of an engine buffer is named by its offset there, and a line that nothing addresses is not met. -/
def Chip.eccHit (c : Chip) (p : Option Nat) (onRead : Bool) (a : Nat) : Option (Page × Health) :=
  match (hiddenStore a).elim (c.storagePage a) (fun _ => none) with
  | none => none
  | some (pg, _) =>
    let t := (c.hdr pg.frame).pert
    let e := t.ecc.toNat
    let at_ := if isEng a then (a - 2 ^ 44) % 2 ^ 23 else a
    if t.armed 3 p && bitField e 31 30 ≠ 3 && bitAt e 29 == onRead &&
        (t.addrHi.getLsbD 31 || (t.addrLo.toNat + t.addrHi.toNat % 2 ^ 12 * 2 ^ 32) / 64 = at_ / 64) then
      some (pg, eccHealth ((c.store a 1).elim 6 Region.Kind.tag) (bitField e 31 30) (bitField e 8 0) (bitField e 24 16))
    else none

/-- Reads of lines meet ECC injections with ON_READ (R417): memory as these reads see it. -/
def Chip.onRead (c : Chip) (x : Ctx) (p : Option Nat) (ls : List Nat) : Chip × Ctx :=
  if x.ecc.isEmpty then (c, x)
  else ls.foldl (fun (q : Chip × Ctx) a =>
    match q.1.eccHit p true a with
    | none => q
    | some (pg, h) =>
      let l := q.1.key x.fuse a / 64
      (q.1.injected pg 3, { q.2 with mem := (Store.injected l (Health.plus (q.1.key x.fuse a / 2 ^ 48) (q.2.mem.health l) h)).apply q.2.mem })) (c, x)

/-- The lines that a staged write writes. -/
def Store.lines : Store → List Nat
  | .bytes k d => (linesOf k d.length).map (· / 64)
  | .unspecified k n _ => (linesOf k n).map (· / 64)
  | _ => []

/-- A line that the step writes meets ECC injection without ON_READ (R417): it is stored with the error, on top of what it bears (R409). -/
def Chip.eccLine (x : Ctx) (p : Option Nat) (c : Chip) (l : Nat) : Chip :=
  match c.addrOf x.fuse (64 * l) with
  | none => c
  | some a => match c.eccHit p false a with
    | none => c
    | some (pg, h) =>
      let old := (x.now c).mem.health l
      let new := Health.plus (64 * l / 2 ^ 48) old h
      (if new = old then c else c.stage (.injected l new)).injected pg 3

/-- The lines a step has staged meet the ECC injections that were armed before it, in order (R417, R419). -/
def Chip.eccStored (c : Chip) (x : Ctx) (p : Option Nat) : Chip :=
  if x.ecc.isEmpty then c else (c.staged.flatMap Store.lines).foldl (Chip.eccLine x p) c

/-! ### The shape of a meaning -/

/-- A step that changes the chip and, through staged writes, memory, for the partition that `part` finds in the chip before it. Fuses and
queue stay. -/
def onStep (part : Chip → Option Nat) (f : Ctx → Chip → Chip) (s : State) : Host.Outcome State Fault Refusal :=
  let x : Ctx := { mem := s.mem, fuse := s.fuse, ecc := s.chip.eccFrames }
  let c := (f x s.chip.between).eccStored x (part s.chip)
  .next { chip := c.between, mem := s.mem.commit c.staged, fuse := s.fuse, pending := s.pending }

/-- A step of no partition's command. -/
def onChip (f : Ctx → Chip → Chip) : State → Host.Outcome State Fault Refusal := onStep (fun _ => none) f

/-- A step that may also program fuses; what it stores in memory meets no injection. -/
def onFuse (f : Ctx → Chip → Chip × Fuses) (s : State) : Host.Outcome State Fault Refusal :=
  let r := f { mem := s.mem, fuse := s.fuse, ecc := s.chip.eccFrames } s.chip.between
  .next { chip := r.1.between, mem := s.mem.commit r.1.staged, fuse := s.fuse.blow r.2, pending := s.pending }

/-! ### What a read meets -/

/-- Who a line's error is charged to in a log entry. -/
structure Consumer where
  page : Option Page
  part : Option Nat
  opcode : Nat
  target : Nat
deriving DecidableEq, Repr

/-- The bank of an HBM line within its stack, pseudo-channel, channel, bank and SID from the bottom up, and its row (R147). -/
def hbmBank (b : Nat) : Nat × Nat :=
  (b / 64 % 2 + 2 * (bitField b 11 7 ^^^ bitField b 20 16) + 64 * bitField b 21 16, b / 2 ^ 22)

/-- The bank of a DDR5 line within its channel, subchannel, bank group, bank and rank from the bottom up, and its row (R157). -/
def ddrBank (t : Tier) (b : Nat) : Nat × Nat :=
  let v := b / 2 ^ (if t.x8 then 13 else 14)
  let row := v / (if t.ranks = 2 then 64 else 32)
  let rank := if t.ranks = 2 then v / 32 % 2 else 0
  (b / 64 % 2 + 2 * ((v % 8 ^^^ row % 8) + 8 * (v / 8 % 4 + 4 * rank)), row)

/-- The tier unit of a DRAM address, its bank and row, and the address its page reports (R147, R153, R157). -/
def Chip.tierOf (c : Chip) (a : Nat) : Option (Nat × (Nat × Nat) × Nat) :=
  match c.region a 1 with
  | some .hbm =>
    let r := c.hbmMap a
    some (r.1, hbmBank r.2, r.2)
  | some .ddr =>
    let off := a - 0x40000000000
    let n := max c.tiers.ddrChannels.length 1
    let b := off / 4096 / n * 4096 + off % 4096
    let u := 16 + c.ddrChannel a
    some (u, ddrBank (c.tier u) b, b)
  | _ => none

/-- One line access of a DRAM tier: READ_LINES or WRITE_LINES, and a row hit or miss (R151, R163). -/
def Chip.tierLine (c : Chip) (a : Nat) (write : Bool) : Chip :=
  match c.tierOf a, c.storagePage a with
  | some (u, (bank, row), _), some (pg, _) =>
    let t := c.tier u
    let hit := tabFind t.open_ bank = some row
    let idle := c.reg pg.frame 0x104 32
    let c := c.putTier u { t with open_ := if idle = 0 then tabDel t.open_ bank else tabSet t.open_ bank row }
    (c.count pg.frame (if write then 1 else 0) 1).count pg.frame (if hit then 5 else 6) 1
  | _, _ => c

/-- The lines of runs of bytes written in DRAM. -/
def Chip.tierWrites (c : Chip) (runs : List (Nat × Nat)) : Chip :=
  (runs.flatMap (fun r => linesOf r.1 r.2)).foldl (fun c a => c.tierLine a true) c

/-- The device of a DDR5 symbol within its subchannel: a symbol is half a burst of a pin, a device 4 pins, or 8 (R158). -/
def ddrDevice (x8 : Bool) (s : Nat) : Nat := s / (if x8 then 16 else 8)

/-- A correction in a DDR5 channel (R158, R165): CTR4 where it changed more than one symbol, and ERR_DEVICE where all lie in one
device. -/
def Chip.ddrCorrected (c : Chip) (u b : Nat) (places : List Nat) : Chip :=
  let t := c.tier u
  let c := if 1 < places.length then c.count (0x070 + (u - 16)) 4 1 else c
  match (places.map (ddrDevice t.x8)).eraseDups with
  | [d] => c.putTier u { c.tier u with errDevice := (ddrBank t b).1 / 64 * 512 + b / 64 % 2 * 256 + d }
  | _ => c

/-- The error of the line at an address was injected. -/
def Chip.lineInjected (c : Chip) (x : Ctx) (a : Nat) : Bool := x.mem.isInjected (c.key x.fuse a / 64)

/-- A corrected read (R153): the line is written back good, counted, logged, and its row's count may reach the limit. -/
def Chip.corrected (c : Chip) (x : Ctx) (a : Nat) (w : Consumer) (places : List Nat) : Chip :=
  let c := c.stage (.health (c.key x.fuse a / 64) .good)
  match c.storagePage a with
  | none => c
  | some (pg, u) =>
    let c := c.log pg.frame { cls := 1, sev := 0, unit := u, addr := if a < 2 ^ 44 then some a else none, part := w.part, opcode := w.opcode, target := w.target, injected := c.lineInjected x a }
    match c.tierOf a with
    | none => c
    | some (tu, (bank, row), b) =>
      let c := c.count pg.frame 2 1
      let c := if tu < 16 then c else c.ddrCorrected tu b places
      let t := c.tier tu
      let n := tabGet 0 t.rowCe (4096 * row + bank) + 1
      let c := c.putTier tu { t with rowCe := tabSet t.rowCe (4096 * row + bank) n }
      let lim := c.reg pg.frame 0x118 4
      if lim ≠ 0 && n = lim then c.fire pg.frame 3 else c

/-- An uncorrected read (R153, R408): the line becomes poisoned, ERR_ADDR and CTR3 record it, the error is logged and
source 2 of a DRAM page fires. -/
def Chip.uncorrected (c : Chip) (x : Ctx) (a : Nat) (w : Consumer) : Chip :=
  let l := c.key x.fuse a / 64
  let c := c.stage (if c.lineInjected x a then .injected l .poison else .health l .poison)
  match c.storagePage a, c.store a 1 with
  | some (pg, u), some k =>
    let c := c.log pg.frame { cls := 2, sev := 1, status := if w.opcode = 0 && w.page.isNone then 0 else 7, detail := k.eccDetail, unit := u, addr := if a < 2 ^ 44 then some a else none, part := w.part, opcode := w.opcode, target := w.target, injected := c.lineInjected x a }
    match c.tierOf a with
    | none => c
    | some (tu, _, b) => ((c.putTier tu { c.tier tu with errAddr := b }).count pg.frame 3 1).fire pg.frame 2
  | _, _ => c

/-- A read of a poisoned line is logged in the consuming block's page (R409). -/
def Chip.poisonRead (c : Chip) (x : Ctx) (a : Nat) (w : Consumer) : Chip :=
  match w.page with
  | none => c
  | some pg => c.log pg.frame { cls := 3, sev := 1, status := 8, addr := if a < 2 ^ 44 then some a else none, part := w.part, opcode := w.opcode, target := w.target, injected := c.lineInjected x a }

/-- The worst of what a read of some lines met: an uncorrected error with its DETAIL, or poison. -/
inductive ReadFault where
  | ecc (detail : Nat)
  | poison
deriving DecidableEq, Repr

/-- Lines read one after another: each an access of its tier, errors handled, and the first failure of the read (R151-R153, R408). -/
def Chip.readLines (x : Ctx) (w : Consumer) : List Nat → Chip → Chip × Option ReadFault
  | [], c => (c, none)
  | a :: as, c =>
    let q := (c.tierLine a false).onRead x w.part [a]
    match q.1.lineHealth q.2 a with
    | .good => readLines x w as q.1
    | .ce places => readLines x w as (q.1.corrected q.2 a w places)
    | .ue => (q.1.uncorrected q.2 a w, some (.ecc ((q.1.store a 1).elim 0 Region.Kind.eccDetail)))
    | .poison => (q.1.poisonRead q.2 a w, some .poison)

/-- The places an error that the code corrects has changed. -/
def healthPlaces : Health → List Nat
  | .ce ps => ps
  | _ => []

/-- What an upset makes of a line (R152, R158): within the code's bound an error it corrects; beyond it, or where the line answers
for another address, an error that is detected, unless a Reed-Solomon code takes it for another line's. -/
def upsetHit (u : Upset) (old : Health) : Health × Option (List Byte) :=
  let tag := u.key / 2 ^ 48
  let ps := (healthPlaces old ++ u.places.filter (· < codePlaces tag)).eraseDups
  if old = .ue || old = .poison then (old, none)
  else if ps.isEmpty && !u.misread then (.good, none)
  else if !u.misread && codeCorrects tag ps then (.ce ps, none)
  else if tag = 0 || tag = 4 then (match Config.miscorrected u.key ps with
    | none => (.ue, none)
    | some (qs, b) => (.ce qs, some ((b ++ List.replicate 64 0).take 64)))
  else (.ue, none)

/-- The writes that an upset is. -/
def upsetStores (u : Upset) (m : Memory) : List Store :=
  let l := u.key / 64
  let r := upsetHit u (m.health l)
  (match r.2 with
    | none => []
    | some b => [.bytes (64 * l) b]) ++ [.health l r.1]

/-- Lines that upsets of the outside world have changed (R152): the writes they are, and memory as the step's reads see it. -/
def Memory.upset (m : Memory) (us : List Upset) : List Store × Memory :=
  us.foldl (fun acc u => (acc.1 ++ upsetStores u acc.2, acc.2.commit (upsetStores u acc.2))) ([], m)

/-- Memory as the step's reads see it after upsets. -/
def Ctx.upset (x : Ctx) (us : List Upset) : Ctx := { x with mem := (x.mem.upset us).2 }

/-- The same upsets staged, so that they last beyond the step. -/
def Chip.upset (c : Chip) (x : Ctx) (us : List Upset) : Chip := { c with staged := c.staged ++ (x.mem.upset us).1 }

/-- Status and DETAIL of a failed read (R42). -/
def ReadFault.code : ReadFault → Nat × Nat
  | .ecc d => (7, d)
  | .poison => (8, 0)

/-- What the first bad line of a run read before a command starts answers: ECC_UNCORRECTED or POISON (R153, R409). -/
def Chip.runFail (c : Chip) (x : Ctx) (p : Option Nat) (a n : Nat) : Option (Nat × Nat) :=
  let x := (c.onRead x p (linesOf a n)).2
  (linesOf a n).findSome? (fun l => match c.lineHealth x l with
    | .ue => some (7, (c.region l 1).elim 0 Region.Kind.eccDetail)
    | .poison => some (8, 0)
    | _ => none)

/-! ### Memory ownership (R315, R316) -/

/-- A run of bytes is covered by regions, one after another. -/
def coveredBy : Nat → List (Nat × Nat) → Nat → Nat → Bool
  | 0, _, _, _ => false
  | fuel + 1, rs, a, last =>
    match rs.find? (fun r => r.1 ≤ a && a < r.1 + r.2) with
    | none => false
    | some r => if last < r.1 + r.2 then true else coveredBy fuel rs (r.1 + r.2) last

/-- The ranges of a partition's regions, all or those it may write. -/
def Part.ranges (p : Part) (writable : Bool) : List (Nat × Nat) :=
  (p.regions.filter (fun e => !(writable && e.2.readOnly))).map (fun e => (e.2.base, e.2.bytes))

/-- The page tables of a serving context: address and bytes (R283, R285). -/
def Serve.tables (s : Serve) : Nat × Nat :=
  let f (off n : Nat) : Nat := leNat ((s.ctx.drop off).take n)
  (f 40 8 + 4 * f 0 2 * f 48 4, 4 * f 2 2 * f 48 4)

/-- A partition's regulator `i` lets a request proceed (R319): RATE 0 passes all, else the level is above 0. -/
def Chip.regLets (c : Chip) (p i : Nat) : Bool :=
  match c.part? p with
  | none => true
  | some pt => (pt.regs.getD i (0, 0)).1 = 0 || 0 < pt.levels.getD i 0

/-- `n` lines charged to a partition's regulator `i` (R319). -/
def Chip.regTake (c : Chip) (p i n : Nat) : Chip :=
  c.modPart p (fun pt => if (pt.regs.getD i (0, 0)).1 = 0 then pt else { pt with levels := listSet pt.levels i (pt.levels.getD i 0 - n) })

/-- Bytes of a bound context's page tables (R285). -/
def Chip.tableHit (c : Chip) (a n : Nat) : Bool := c.serve.parts.any (fun e => overlap a n e.2.tables.1 e.2.tables.2)

/-- Bytes that only the hub writes: a bound group's stage region (R254), a bound context's page tables (R285). -/
def Chip.stageHit (c : Chip) (a n : Nat) : Bool :=
  c.coll.groups.any (fun e => overlap a n e.2.stageBase e.2.stageBytes) || c.tableHit a n

/-- Bytes of a record slot (R167). -/
def Ring.slotBytes (r : Ring) : Nat := 8 * ceilDiv (24 + 4 * r.k) 8

/-- Bytes of a ring's region (R167). -/
def Ring.regionBytes (r : Ring) : Nat := 64 * ceilDiv (r.depth * r.slotBytes) 64

/-- The bytes lie in the regions of open rings of the partition (R170). -/
def Bridge.reads (b : Bridge) (p a n : Nat) : Bool :=
  coveredBy 9 ((b.rings.filter (fun e => e.2.tPart = p || e.2.sPart = p)).map (fun e => (bridgeAddr e.2.base, e.2.regionBytes))) a (a + (n - 1))

/-- A partition's memory (R316): its regions, those not READ_ONLY for writing, its own cells' memories, and its rings for
reading. Engine buffers and events have rules of their own. -/
def Chip.partOwns (c : Chip) (p a n : Nat) (write : Bool) : Bool :=
  match c.part? p, c.region a n with
  | some pt, some .hbm => coveredBy 18 (pt.ranges write) a (a + (n - 1))
  | some pt, some .ddr => coveredBy 18 (pt.ranges write) a (a + (n - 1))
  | some pt, some (.scratch k) => pt.cells.contains k
  | some pt, some (.wide k) => pt.cells.contains k
  | some _, some .bridge => !write && c.bridge.reads p a n
  | _, _ => false

/-- Memory that a collective may write for a partition: what it owns but for bound page tables, which no collective writes (R285). -/
def Chip.hubMay (c : Chip) (p a n : Nat) : Bool := c.partOwns p a n true && !c.tableHit a n

/-- A partition's access to memory: what it owns, and what only the hub writes for reading alone (R254, R285,
R316). -/
def Chip.partMay (c : Chip) (p a n : Nat) (write : Bool) : Bool := c.partOwns p a n write && !(write && c.stageHit a n)

/-- Every region and spill area of every partition. -/
def Chip.ownedRanges (c : Chip) : List (Nat × Nat) :=
  c.parts.flatMap (fun e => (e.2.regions.map (fun r => (r.2.base, r.2.bytes))) ++ [(e.2.spillBase, e.2.spillBytes)])

/-- HBM or DDR5 that lies in no partition's region or spill area (R343, R443). -/
def Chip.unowned (c : Chip) (a n : Nat) : Bool :=
  (match c.region a n with
    | some .hbm => true
    | some .ddr => true
    | _ => false) && !c.ownedRanges.any (fun r => overlap a n r.1 r.2)

end Sys2Proof.Machine
end

