-- ==== Sys2Proof/Machine/Operands.lean ====
section
/-! DEFINITION. The operand forms of commands: descriptor fields (R34), targets, loadable objects (R49) and the formats a
command names (R56-R59), and the array unit's operands (R86). -/

namespace Sys2Proof.Machine

/-! ### Descriptor fields (R34) -/

/-- `n` bytes of a descriptor at an offset. -/
def Cmd.fld (k : Cmd) (off n : Nat) : Nat := k.desc.toNat / 2 ^ (8 * off) % 2 ^ (8 * n)

/-- A signed byte of a descriptor. -/
def Cmd.sfld (k : Cmd) (off : Nat) : Int := signedOf 8 (k.fld off 1)

/-- OPCODE. -/
def Cmd.opcode (k : Cmd) : Nat := k.fld 0 1

/-- A FLAGS bit: 0 IRQ, 1 FENCE, 2 WAIT_EN, 3 SIGNAL_EN, 4 CHEAP. -/
def Cmd.flag (k : Cmd) (i : Nat) : Bool := bitAt (k.fld 1 1) i

/-- TARGET. -/
def Cmd.target (k : Cmd) : Nat := k.fld 2 2

/-- The target class. -/
def Cmd.tclass (k : Cmd) : Nat := k.target / 2 ^ 12

/-- The target instance. -/
def Cmd.inst (k : Cmd) : Nat := k.target % 2 ^ 12

/-- The queue's key. -/
def Cmd.queue (k : Cmd) : Nat := 256 * k.fn + k.sq

/-- The partition a command acts for (R339). -/
def Chip.cmdPart (c : Chip) (k : Cmd) : Option Nat := c.partOfFn k.fn

/-- The function is the unbound physical function of the primary port (R339). -/
def Chip.isManager (c : Chip) (fn : Nat) : Bool := fn = 32 * c.primary && (c.partOfFn fn).isNone

/-- The first non-zero byte of a run of operand bytes that must be 0. -/
def Cmd.firstSet (k : Cmd) (off n : Nat) : Option Nat := ((List.range n).map (off + ·)).find? (fun i => k.fld i 1 ≠ 0)

/-- BAD_OPERAND at a byte offset. -/
def badOp (off : Nat) : Option (Nat × Nat) := some (5, off)

/-- The first check that fails. -/
def firstFail : List (Option (Nat × Nat)) → Option (Nat × Nat)
  | [] => none
  | some r :: _ => some r
  | none :: l => firstFail l

/-- A check: the status and DETAIL where the condition holds. -/
def failIf (b : Bool) (status detail : Nat) : Option (Nat × Nat) := if b then some (status, detail) else none

/-- The lowest offending offset of a row of a refusal table. -/
def badAt (l : List (Bool × Nat)) : Option (Nat × Nat) := (l.find? (fun e => e.1)).map (fun e => (5, e.2))

/-- A row of a refusal table with a status of its own that names the lowest offending field. -/
def failAt (status : Nat) (l : List (Bool × Nat)) : Option (Nat × Nat) := (badAt l).map (fun e => (status, e.2))

/-! ### Engines with fair queueing (R318) -/

/-- The shared engine a target names: 0 to 11 stack engines, 12 bridge, 13 collectives, 14 and 15 host DMA, 16 Tansy. -/
def engineOf (tclass inst : Nat) : Option Nat :=
  if tclass = 2 then some inst else if tclass = 3 then some 12 else if tclass = 6 then some 13
  else if tclass = 5 then some (14 + inst) else if tclass = 7 then some 16 else none

/-- A round command (R280). -/
def Cmd.isRound (k : Cmd) : Bool := k.tclass = 2 && 0x68 ≤ k.opcode && k.opcode ≤ 0x6D

/-- The shared engine that runs a command; the stack engine that a round command names has no effect (R280). -/
def Cmd.engine (k : Cmd) : Option Nat := if k.isRound then none else engineOf k.tclass k.inst

/-- The SHARES byte for an engine (R312). -/
def shareIndex (e : Nat) : Nat := if e < 12 then 0 else e - 11

/-- A partition's share of an engine. -/
def Part.share (p : Part) (e : Nat) : Nat := p.shares.getD (shareIndex e) 0

/-! ### Loadable objects (R49) -/

/-- A row of R49: partition scope, instances, entries, whether that many exactly, bytes of an entry. -/
structure ObjInfo where
  perPart : Bool
  instances : Nat
  entries : Nat
  exact : Bool
  bytes : Nat
deriving DecidableEq, Repr

/-- The table of R49. -/
def objInfo : Nat → Option ObjInfo
  | 0 => some { perPart := true, instances := 64, entries := 16384, exact := false, bytes := 16 }
  | 1 => some { perPart := true, instances := 1, entries := 16, exact := true, bytes := 16 }
  | 2 => some { perPart := true, instances := 32, entries := 256, exact := true, bytes := 32 }
  | 3 => some { perPart := true, instances := 1, entries := 256, exact := true, bytes := 8 }
  | 4 => some { perPart := true, instances := 16, entries := 256, exact := false, bytes := 16 }
  | 5 => some { perPart := false, instances := 61, entries := 32, exact := true, bytes := 8 }
  | 6 => some { perPart := false, instances := 1, entries := 64, exact := true, bytes := 32 }
  | 7 => some { perPart := false, instances := 1, entries := 4096, exact := true, bytes := 8 }
  | 8 => some { perPart := false, instances := 1, entries := 4096, exact := true, bytes := 8 }
  | _ => none

/-- The key of an instance of an object in a scope: a partition, or 16 for the device. -/
def tableKey (id scope inst : Nat) : Nat := id * 2 ^ 16 + scope * 2 ^ 8 + inst

/-- An instance of an object. -/
def Chip.table (c : Chip) (key : Nat) : Table := tabGet {} c.tables key

/-- An instance replaced. -/
def Chip.putTable (c : Chip) (key : Nat) (t : Table) : Chip := { c with tables := tabSet c.tables key t }

/-- The active image of an instance. -/
def Chip.active (c : Chip) (key : Nat) : Option Image := (c.table key).active

/-- The image of a generation a command bound: active or draining (R53). -/
def Chip.imageGen (c : Chip) (key gen : Nat) : Option Image :=
  let t := c.table key
  match t.active with
  | some im => if im.gen = gen then some im else t.image.filter (fun i => i.gen = gen)
  | none => t.image.filter (fun i => i.gen = gen)

/-- The image a command uses: the generation it bound at its start (R53), else the active one. -/
def Chip.imageFor (c : Chip) (k : Cmd) (key : Nat) : Option Image :=
  match k.binds.find? (fun b => b.1 = key) with
  | some b => c.imageGen key b.2
  | none => c.active key

/-- An entry of an image, as bytes. -/
def Image.entry (im : Image) (bytes i : Nat) : List Byte := (im.body.drop (bytes * i)).take bytes

/-- The format a code names for a command of partition `p` (R56-R58). -/
def Chip.fmt (c : Chip) (k : Cmd) (p code : Nat) : Fmt :=
  if code < 13 then Fmt.published code
  else match c.imageFor k (tableKey 1 p 0) with
    | some im => Fmt.ofBytes (im.entry 16 code)
    | none => Fmt.ofBytes []

/-- The format code is one a partition can name: a fixed one, or a usable owner entry (R58). -/
def Chip.fmtUsable (c : Chip) (k : Cmd) (p code : Nat) : Bool := code < 13 || (c.fmt k p code).usable code

/-- The partition has an active format table (R58). -/
def Chip.hasFormats (c : Chip) (p : Nat) : Bool := (c.active (tableKey 1 p 0)).isSome

/-- A code accepted as an array operand (R59), owner entries by their usability. -/
def arrayOperand (code : Nat) : Bool := (1 ≤ code && code ≤ 9) || 13 ≤ code

/-- A code accepted as an array output (R59). -/
def arrayOutput (code : Nat) : Bool := code ≤ 9 || code = 11 || 13 ≤ code

/-- A code accepted in a cell DMA conversion (R59). -/
def dmaFormat (code : Nat) : Bool := code ≤ 9 || 13 ≤ code

/-! ### Where array commands find their operands (R86, R88) -/

/-- The array units a command runs on: cells at n, stack engines at 96 + s. -/
def Cmd.units (k : Cmd) : List Nat :=
  if k.tclass = 0 then [k.inst] else if k.tclass = 1 then [2 * k.inst, 2 * k.inst + 1] else [96 + k.inst]

/-- The address of byte 0 of a unit's operand store (R85). -/
def storeBase (u : Nat) : Nat := if u < 96 then scratchAddr u 0 else engAddr (u - 96) 0

/-- The size of a unit's operand store. -/
def storeSize (u : Nat) : Nat := if u < 96 then 0x1000000 else 0x800000

/-- The page of a unit. -/
def unitPage (u : Nat) : Page := if u < 96 then { blk := .meadow, inst := u } else { blk := .cowslip, inst := u - 96 }

/-- Products per element per beat, in halves: 4 for two products, 2 for one, 1 for a half (R82). -/
def vHalves (w x : Fmt) : Nat :=
  if w.elem = 4 && x.elem = 4 then 4 else if w.elem = 16 || x.elem = 16 then 1 else 2

/-- `⌈n / v⌉` with v in halves. -/
def divV (n vh : Nat) : Nat := ceilDiv (2 * n) vh

/-- SPLIT_EN and GATE_EN in force for a partition on a cell (R102). -/
def Chip.cellCtrl (c : Chip) (p n : Nat) : Nat :=
  if c.firstClaimant (n / 2) = some p then c.reg (0x100 + n) 0x12C 3 else c.reg (0x020 + p) 0x15C 3

/-- SPLIT_EN and GATE_EN in force on a unit; an engine's page holds its own. -/
def Chip.unitCtrl (c : Chip) (p u : Nat) : Nat := if u < 96 then c.cellCtrl p u else c.reg (0x080 + (u - 96)) 0x12C 3

/-! ### DRAM traffic: regulators (R319) -/

/-- The lines of runs that lie in HBM (true) or DDR5 (false). -/
def Chip.dramLines (c : Chip) (runs : List (Nat × Nat)) (hbm : Bool) : Nat :=
  ((runs.flatMap (fun r => linesOf r.1 r.2)).filter (fun a => match c.region a 1 with
    | some .hbm => hbm
    | some .ddr => !hbm
    | _ => false)).length

/-- Both regulators of a partition let traffic over these runs proceed, the memory PLL is locked (R381), and the tier is up
(R159, R160). -/
def Chip.dramLets (c : Chip) (p : Nat) (runs : List (Nat × Nat)) : Bool :=
  (c.dramLines runs true = 0 || (c.regLets p 0 && !c.memHeld && c.hbmUp)) && (c.dramLines runs false = 0 || (c.regLets p 1 && !c.memHeld && c.ddrUp))

/-- Traffic over runs charged to both regulators of a partition. -/
def Chip.dramCharge (c : Chip) (p : Nat) (runs : List (Nat × Nat)) : Chip :=
  (c.regTake p 0 (c.dramLines runs true)).regTake p 1 (c.dramLines runs false)

/-- Traffic of a command over these runs may proceed: of a partition under its regulators, of Management, which has none (R319). -/
def Chip.trafficLets (c : Chip) (p : Option Nat) (runs : List (Nat × Nat)) : Bool :=
  match p with
  | some p => c.dramLets p runs
  | none => (c.dramLines runs true = 0 || (!c.memHeld && c.hbmUp)) && (c.dramLines runs false = 0 || (!c.memHeld && c.ddrUp))

/-- That traffic charged. -/
def Chip.trafficCharge (c : Chip) (p : Option Nat) (runs : List (Nat × Nat)) : Chip := p.elim c (fun p => c.dramCharge p runs)

end Sys2Proof.Machine
end

