-- ==== Sys2Proof/Machine/ChecksArray.lean ====
section
/-! DEFINITION. The refusal tables of array commands (R87, R94) and cell and host DMA (R140, R143), as checks made before
a command starts. A check answers the status and DETAIL of the first failure. -/

namespace Sys2Proof.Machine

/-! ### ARRAY_MM (R85, R87) -/

/-- Elements of the divided dimension that cell 2p of a pair takes (R88). -/
def Chip.pairSplit (x : Ctx) (k : Cmd) (outMx : Bool) : Nat :=
  let w := x.fuse.wsel (2 * k.inst) (bitField (k.fld 16 1) 3 2) 0
  if outMx && bitField (k.fld 16 1) 1 0 ≠ 2 then w / 32 * 32 else w

/-- What a continuation must share with the command that kept the state (R93). -/
def Cmd.mmShape (k : Cmd) : List Nat :=
  [k.fld 22 2, k.fld 24 2, k.fld 16 1 % 16, k.fld 17 1, k.fld 18 1, k.fld 20 1, k.fld 19 1 % 4, k.fld 26 1, k.fld 27 1, k.fld 21 1]

/-- The kept state of every unit of a command matches (R93). -/
def Chip.keepMatches (c : Chip) (k : Cmd) : Bool :=
  k.units.all (fun u => match tabFind c.keeps u with
    | some kp => kp.shape = k.mmShape
    | none => false)

/-- A keep-lost mark of the command's partition stands on one of its cells (R326). -/
def Chip.keepLostOn (c : Chip) (p : Nat) (k : Cmd) : Bool :=
  match c.part? p with
  | some pt => k.units.any (fun u => pt.keepLost.contains u)
  | none => false

/-- A T field outside −64 to 63. -/
def badT (t : Int) : Bool := t < -64 || 63 < t

/-- The last byte of `rows` rows of `len` bytes at a pitch. -/
def planeEnd (base pitch rows len : Nat) : Nat := base + pitch * (rows - 1) + len

/-- The checks of ARRAY_MM in the order of R87. -/
def Chip.checkMm (c : Chip) (x : Ctx) (p : Nat) (k : Cmd) : Option (Nat × Nat) :=
  let mode := k.fld 16 1
  let flow := bitField mode 1 0
  let arrays := bitField mode 3 2
  let half := bitField mode 5 4
  let fw := k.fld 17 1 % 16
  let fx := k.fld 17 1 / 16
  let fo := k.fld 18 1 % 16
  let acc := k.fld 19 1
  let m := k.fld 22 2
  let n := k.fld 24 2
  let kk := k.fld 28 4
  let w := c.fmt k p fw
  let xf := c.fmt k p fx
  let o := c.fmt k p fo
  let pair := k.tclass = 1
  let s := Chip.pairSplit x k o.isMx
  let mShare := if pair && flow ≠ 2 then min m s else m
  let kp := ceilDiv kk 128
  let sel (u : Nat) : Nat := x.fuse.wsel u arrays half
  let limit := if pair then s + sel (2 * k.inst + 1) else sel (k.units.getD 0 0)
  let div := if flow = 2 then n else m
  let size := storeSize (k.units.getD 0 0)
  let wRows := if pair && flow ≠ 2 then max (min m s) (m - s) else m
  let xRows := if pair && flow = 2 then max (min n s) (n - s) else n
  let bigShare := if pair && flow ≠ 2 then max mShare (m - mShare) else m
  firstFail
    [ badAt
        [ (flow = 3 || arrays = 3 || half = 3 || mode / 64 ≠ 0, 16), (k.fld 18 1 / 16 ≠ 0, 18), (acc / 16 ≠ 0, 19),
          (115 < k.sfld 20, 20), (badT (k.sfld 21), 21), (m = 0 || 2048 < m, 22), (n = 0 || 2048 < n, 24),
          (badT (k.sfld 26), 26), (badT (k.sfld 27), 27), (kk = 0, 28),
          (k.fld 35 1 ≠ 0 || k.fld 32 4 % 64 ≠ 0, 32), (k.fld 39 1 ≠ 0 || k.fld 36 4 % 64 ≠ 0, 36),
          (k.fld 43 1 ≠ 0 || k.fld 40 4 % 64 ≠ 0, 40), (w.isMx && k.fld 47 1 ≠ 0, 44), (xf.isMx && k.fld 51 1 ≠ 0, 48),
          (o.isMx && k.fld 55 1 ≠ 0, 52), (64 * k.fld 56 2 < w.rowBytes kk, 56), (64 * k.fld 58 2 < xf.rowBytes kk, 58),
          (64 * k.fld 60 2 < o.rowBytes bigShare, 60), (k.fld 62 2 ≠ 0, 62) ],
      failIf (!c.hasFormats p) 13 7,
      badAt
        [ (!arrayOperand fw || !arrayOperand fx || !c.fmtUsable k p fw || !c.fmtUsable k p fx, 17),
          (!arrayOutput fo || !c.fmtUsable k p fo, 18) ],
      badAt [ (fo = 11 && bitField acc 3 2 ≠ 0, 19), (fo = 11 && k.fld 21 1 ≠ 0, 21) ],
      failIf (half ≠ 0 && (pair || !bitAt (c.unitCtrl p (k.units.getD 0 0)) 0 || bitField acc 3 2 ≠ 0)) 5 16,
      failIf (bitAt acc 2 && k.flag 4) 5 19,
      failIf (bitAt acc 3 && c.keepLostOn p k) 10 0,
      failIf (bitAt acc 3 && !c.keepMatches k) 5 19,
      failAt 6 [(limit < div, if flow = 2 then 24 else 22)],
      failAt 6 [(o.isMx && m % 32 ≠ 0, 22), ((w.isMx || xf.isMx) && kk % 32 ≠ 0, 28)],
      failAt 6 [(fo = 11 && 2 ^ (acc % 4) < kp, 28)],
      failAt 1
        [ (size < planeEnd (k.fld 32 4) (64 * k.fld 56 2) wRows (w.rowBytes kk), 32),
          (size < planeEnd (k.fld 36 4) (64 * k.fld 58 2) xRows (xf.rowBytes kk), 36),
          (size < planeEnd (k.fld 40 4) (64 * k.fld 60 2) xRows (o.rowBytes bigShare), 40),
          (w.isMx && size < k.fld 44 4 + wRows * (kk / 32), 44), (xf.isMx && size < k.fld 48 4 + xRows * (kk / 32), 48),
          (o.isMx && size < k.fld 52 4 + xRows * (bigShare / 32), 52) ] ]

/-! ### ARRAY_EW (R94) -/

/-- The checks of ARRAY_EW: those of R87 where they apply. -/
def Chip.checkEw (c : Chip) (p : Nat) (k : Cmd) : Option (Nat × Nat) :=
  let op := k.fld 16 1
  let fa := k.fld 17 1 % 16
  let fb := k.fld 17 1 / 16
  let fo := k.fld 18 1 % 16
  let fc := k.fld 18 1 / 16
  let arrays := k.fld 19 1
  let len := k.fld 24 4
  let a := c.fmt k p fa
  let b := c.fmt k p fb
  let o := c.fmt k p fo
  let cf := c.fmt k p fc
  let add := op = 1
  let mx := a.isMx || b.isMx || o.isMx || (add && cf.isMx)
  let size := storeSize (k.units.getD 0 0)
  let addrBad (off : Nat) : Bool := k.fld (off + 3) 1 ≠ 0 || k.fld off 4 % 64 ≠ 0
  firstFail
    [ badAt
        [ (1 < op, 16), (2 < arrays, 19), (badT (k.sfld 20), 20), ((k.firstSet 21 3).isSome, (k.firstSet 21 3).getD 21),
          (len = 0 || (if arrays = 2 then 524288 else 262144) < len || (mx && len % 32 ≠ 0), 24), (addrBad 28, 28),
          (addrBad 32, 32), (add && addrBad 36, 36), (addrBad 40, 40), (a.isMx && k.fld 47 1 ≠ 0, 44),
          (b.isMx && k.fld 51 1 ≠ 0, 48), (add && cf.isMx && k.fld 55 1 ≠ 0, 52), (o.isMx && k.fld 59 1 ≠ 0, 56),
          ((k.firstSet 60 4).isSome, (k.firstSet 60 4).getD 60) ],
      failIf (!c.hasFormats p) 13 7,
      badAt
        [ (!arrayOperand fa || !arrayOperand fb || !c.fmtUsable k p fa || !c.fmtUsable k p fb, 17),
          (!arrayOutput fo || fo = 11 || !c.fmtUsable k p fo, 18),
          (add && !((arrayOperand fc || fc = 0) && c.fmtUsable k p fc), 18) ],
      failAt 1
        [ (size < k.fld 28 4 + a.rowBytes len, 28), (size < k.fld 32 4 + b.rowBytes len, 32),
          (add && size < k.fld 36 4 + cf.rowBytes len, 36), (size < k.fld 40 4 + o.rowBytes len, 40),
          (a.isMx && size < k.fld 44 4 + len / 32, 44), (b.isMx && size < k.fld 48 4 + len / 32, 48),
          (add && cf.isMx && size < k.fld 52 4 + len / 32, 52), (o.isMx && size < k.fld 56 4 + len / 32, 56) ] ]

/-! ### DMA_MOVE (R133-R140) -/

/-- One end of a move as runs of bytes: its rows, and its aux plane. -/
structure MoveEnd where
  host : Bool
  addr : Nat
  pitch : Nat
  rows : Nat
  rowLen : Nat
  fmt : Fmt
  aux : Nat
deriving DecidableEq, Repr

/-- The bytes of the aux plane per row: scales, or tails of FP32X (R133). -/
def MoveEnd.auxRow (e : MoveEnd) : Nat := if e.fmt.isMx then e.rowLen / 32 else if e.fmt.code = 12 then 2 * e.rowLen else 0

/-- The bytes of one row: PB8 rows are 34 bytes per 32 elements. -/
def MoveEnd.rowBytes (e : MoveEnd) : Nat := if e.fmt.code = 10 then 34 * e.rowLen / 32 else e.fmt.rowBytes e.rowLen

/-- The address of a row. -/
def MoveEnd.row (e : MoveEnd) (i : Nat) : Nat := e.addr + (if e.pitch = 0 then e.rowBytes else 64 * e.pitch) * i

/-- The runs of bytes of an end: one run where the rows are packed, else one per row; then the aux plane. -/
def MoveEnd.runs (e : MoveEnd) : List (Nat × Nat) :=
  (if e.pitch = 0 then [(e.addr, e.rowBytes * e.rows)] else (List.range e.rows).map (fun i => (e.row i, e.rowBytes))) ++
    (if e.auxRow = 0 then [] else [(e.aux, e.auxRow * e.rows)])

/-- The span of an end's rows from first to last byte. -/
def MoveEnd.span (e : MoveEnd) : Nat := e.row (e.rows - 1) + e.rowBytes - e.addr

/-- The range an end takes: from its first byte to its last, aux plane included. -/
def MoveEnd.hull (e : MoveEnd) : Nat × Nat :=
  let lo := e.runs.foldl (fun m r => min m r.1) e.addr
  let hi := e.runs.foldl (fun m r => max m (r.1 + r.2)) 0
  (lo, hi - lo)

/-- An end fails R11: its rows leave the region, the cell's buffer or the engine buffer that holds its first byte, its aux plane
does, or an end of a scratchpad or engine buffer crosses its boundary (R140, R281). A host end has no local address. -/
def Chip.endFails (c : Chip) (e : MoveEnd) : Bool :=
  !e.host &&
    ((c.store e.addr e.span).isNone || (e.auxRow ≠ 0 && ((c.store e.aux (e.auxRow * e.rows)).isNone || (!isEng e.addr && 2 ^ 44 ≤ e.aux))) ||
      (match c.store e.addr 1 with
        | some (.scratch _) => (c.store e.hull.1 e.hull.2).isNone
        | some (.engine _) => (c.store e.hull.1 e.hull.2).isNone
        | _ => false))

/-- The source end of a move. -/
def Chip.moveSrc (c : Chip) (p : Nat) (k : Cmd) : MoveEnd :=
  let a := k.fld 32 8
  { host := bitAt a 63, addr := a % 2 ^ 63, pitch := k.fld 26 2, rows := k.fld 20 3, rowLen := k.fld 23 3
    fmt := c.fmt k p (k.fld 17 1 % 16), aux := a % 2 ^ 63 + 64 * k.fld 48 4 }

/-- The destination end of a move: transposed, its rows are the source's columns (R133). -/
def Chip.moveDst (c : Chip) (p : Nat) (k : Cmd) : MoveEnd :=
  let a := k.fld 40 8
  let t := bitAt (k.fld 16 1) 0
  { host := bitAt a 63, addr := a % 2 ^ 63, pitch := k.fld 28 2, rows := if t then k.fld 23 3 else k.fld 20 3
    rowLen := if t then k.fld 20 3 else k.fld 23 3, fmt := c.fmt k p (k.fld 17 1 / 16)
    aux := a % 2 ^ 63 + 64 * k.fld 52 4 }

/-- A copy move (R135). -/
def Chip.copyMove (c : Chip) (p : Nat) (k : Cmd) : Bool :=
  let mode := k.fld 16 1
  k.fld 17 1 % 16 = k.fld 17 1 / 16 && k.fld 18 1 = k.fld 19 1 && !bitAt mode 1 &&
    (!bitAt mode 0 || !(c.fmt k p (k.fld 17 1 % 16)).isMx)

/-- Where a local end of a move lies, for the rules of R134. -/
inductive EndKind where
  | dram
  | bridge
  | scratch (n : Nat)
  | wide (n : Nat)
  | other
  | gap
deriving DecidableEq, Repr

/-- The kind of the region that holds an address. DDR5 that is not installed counts as DDR5; an address in no region of R10 is no
end that R134 shuts out, and fails under R11. -/
def endKind (a : Nat) : EndKind :=
  if a < 0xD800000000 then .dram
  else if a < 0x20000000000 then .gap
  else if a < 0x20060000000 then .scratch ((a - 0x20000000000) / 0x1000000)
  else if 0x20800000000 ≤ a && a < 0x2080C000000 then .wide ((a - 0x20800000000) / 0x200000)
  else if 0x21000000000 ≤ a && a < 0x2100A000000 then .bridge
  else if (0x21800000000 ≤ a && a < 0x21800100000) || (0x3F000000000 ≤ a && a < 0x3F004000000) then .other
  else if 0x40000000000 ≤ a then .dram
  else .gap

/-- A mode or end is not allowed under R134. `teacher` says the partition is the T_PART of an open ring (R192).
The model's choice in it: log 104. -/
def Chip.moveEndsBad (c : Chip) (p : Nat) (k : Cmd) : Bool :=
  let mode := k.fld 16 1
  let s := c.moveSrc p k
  let d := c.moveDst p k
  let sk := endKind s.addr
  let dk := endKind d.addr
  let tag := k.fld 30 2
  let own (e : EndKind) : Bool := e = .wide k.inst
  if k.tclass = 5 then
    mode ≠ 0 || tag ≠ 0 || s.host == d.host ||
      (let e := if s.host then dk else sk
       match e with
        | .dram => false
        | .scratch _ => false
        | .gap => false
        | _ => true)
  else
    s.host || d.host ||
      (match sk with
        | .wide n => n ≠ k.inst || k.fld 17 1 % 16 ≠ 0
        | .other => true
        | _ => false) ||
      (match dk with
        | .wide n => n ≠ k.inst || k.fld 17 1 / 16 ≠ 0
        | .other => true
        | _ => false) ||
      (bitAt mode 2 && !(own dk && k.fld 17 1 / 16 = 0)) || (bitAt mode 3 && !(own sk && k.fld 17 1 % 16 = 0)) ||
      ((bitAt mode 4 || tag ≠ 0) && dk ≠ .scratch k.inst)

/-- An address in the wide gradient buffer of another cell than `own`: what only that cell's arrays and DMA, and the launch path, reach (R128). -/
def wideElsewhere (own : Option Nat) (a : Nat) : Bool :=
  match endKind a with
  | .wide n => own ≠ some n
  | _ => false

/-- The cell whose wide buffer a move reaches. -/
def Cmd.wideOwn (k : Cmd) : Option Nat := if k.tclass = 4 then some k.inst else none

/-- A delta set's header (R137): T_DELTA and N_TILES fields, and whether a reserved field or value is set. -/
def Chip.deltaHeaderBad (c : Chip) (x : Ctx) (p : Nat) (k : Cmd) (a : Nat) : Bool :=
  let h := c.rdBytes x a 32
  let b (i : Nat) : Nat := (h.getD i 0).toNat
  1023 < b 0 + 256 * b 1 || !arrayOperand (b 2) || 15 < b 2 || !c.fmtUsable k p (b 2) || 1 < b 3 || badT (signedOf 8 (b 4)) ||
    b 5 ≠ 0 || b 6 ≠ 0 || b 7 ≠ 0 || leNat ((h.drop 8).take 4) = 0 || 65536 < leNat ((h.drop 8).take 4) ||
    leNat (h.drop 12) ≠ 0

/-- The formats of a move are not allowed (R59, R135, R136). -/
def Chip.moveFormatsBad (c : Chip) (p : Nat) (k : Cmd) : Bool :=
  let fs := k.fld 17 1 % 16
  let fd := k.fld 17 1 / 16
  !c.fmtUsable k p fs || !c.fmtUsable k p fd ||
    (bitAt (k.fld 16 1) 0 && (fs = 10 || fs = 12 || fd = 10 || fd = 12)) ||
    (!c.copyMove p k && (!dmaFormat fs || !dmaFormat fd))

/-- The checks of DMA_MOVE in the order of R140. `readable` and `writable` are the memory rules of R134 and R316 for the
ends, which the bridge's rings widen (R170). The model's choices in it: log 104. -/
def Chip.checkMove (c : Chip) (x : Ctx) (p : Nat) (k : Cmd) (teacher : Bool) :
    Option (Nat × Nat) :=
  let mode := k.fld 16 1
  let s := c.moveSrc p k
  let d := c.moveDst p k
  let localBits (off : Nat) : Bool := !bitAt (k.fld off 8) 63 && bitField (k.fld off 8) 62 44 ≠ 0
  let t := bitAt mode 0
  let delta := bitAt mode 1
  let da := k.fld 56 8
  let nTiles := c.rdNat x (da + 8) 4
  let runsOk (f : Nat → Nat → Bool) (e : MoveEnd) : Bool := e.host || e.runs.all (fun r => f r.1 r.2)
  let readOk (a n : Nat) : Bool := c.partMay p a n false
  let writeOk (a n : Nat) : Bool := c.partMay p a n true
  let mxBad (e : MoveEnd) : Bool := e.fmt.isMx && e.rowLen % 32 ≠ 0
  firstFail
    [ badAt
        [ (mode / 32 ≠ 0, 16), (badT (k.sfld 18), 18), (badT (k.sfld 19), 19), (s.rows = 0, 20), (s.rowLen = 0, 23),
          (s.pitch ≠ 0 && 64 * s.pitch < s.rowBytes, 26), (d.pitch ≠ 0 && 64 * d.pitch < d.rowBytes, 28),
          (localBits 32 || s.addr % 64 ≠ 0, 32), (localBits 40 || d.addr % 64 ≠ 0, 40),
          (if delta then da % 64 ≠ 0 || 2 ^ 44 ≤ da else da ≠ 0, 56) ],
      failIf (bitAt mode 2 && teacher && k.tclass = 4) 2 0,
      failIf (c.moveEndsBad p k) 5 16,
      failIf (!c.hasFormats p) 13 7,
      failIf (c.moveFormatsBad p k) 5 17,
      if delta && (c.region da 32).isSome then c.runFail x (some p) da 32 else none,
      failIf (delta && (c.region da 32).isSome && c.deltaHeaderBad x p k da) 5 56,
      failIf (mxBad s || mxBad d || (t && s.fmt.isMx && d.fmt.isMx && (s.rows % 32 ≠ 0 || s.rowLen % 32 ≠ 0)) ||
          (s.fmt.code = 10 && s.rowLen % 32 ≠ 0)) 6 0,
      failIf (c.endFails s || c.endFails d || (delta && (c.region da (32 + 8 * nTiles)).isNone)) 1 0,
      failIf (!runsOk readOk s || !runsOk writeOk d || (delta && (!c.partMay p da (32 + 8 * nTiles) false || wideElsewhere k.wideOwn da))) 2 0 ]

/-- The checks of GRADBUF_ZERO (R143), with statuses of log 104. -/
def Cmd.checkGradZero (k : Cmd) : Option (Nat × Nat) :=
  firstFail
    [ badAt
        [ (k.fld 16 4 % 1024 ≠ 0 || 0x200000 < k.fld 16 4, 16),
          (k.fld 20 4 % 1024 ≠ 0 || 0x200000 < k.fld 16 4 + k.fld 20 4, 20),
          ((k.firstSet 24 40).isSome, (k.firstSet 24 40).getD 24) ] ]

/-- The checks of RESID_DROP (R143). -/
def Cmd.checkResidDrop (k : Cmd) : Option (Nat × Nat) := (k.firstSet 18 46).bind badOp

end Sys2Proof.Machine
end

