-- ==== Sys2Proof/Machine/ChecksCtl.lean ====
section
/-! DEFINITION. The refusal tables of control commands: who may submit what (R311, R339), contexts (R443), EVENT_RESET
(R47), the Tansy commands (R51, R55) and the partition commands (R311-R315, R324). -/

namespace Sys2Proof.Machine

/-! ### Opcodes and classes (R35) -/

/-- The opcode is defined for the class (R35, and the lists of its chapters). -/
def opcodeAllotted (op cls : Nat) : Bool :=
  if op = 0 then cls ≤ 8
  else if op = 1 then cls = 8
  else if op = 0x10 || op = 0x11 then cls ≤ 2
  else if 0x18 ≤ op && op ≤ 0x3F then cls = 0 && op ≤ 0x22
  else if op = 0x40 then cls = 4 || cls = 5
  else if op = 0x41 || op = 0x42 then cls = 4
  else if 0x50 ≤ op && op ≤ 0x54 then cls = 3
  else if 0x60 ≤ op && op ≤ 0x62 then cls = 2
  else if 0x68 ≤ op && op ≤ 0x6D then cls = 2
  else if 0x70 ≤ op && op ≤ 0x73 then cls = 6
  else if op = 0x80 || op = 0x81 then cls = 7
  else if 0x90 ≤ op && op ≤ 0x96 then cls = 7
  else false

/-- Instances of a target class (R34). -/
def classInstances : Nat → Nat
  | 0 => 96 | 1 => 48 | 2 => 12 | 3 => 1 | 4 => 96 | 5 => 2 | 6 => 1 | 7 => 1 | 8 => 1
  | _ => 0

/-- The submitting function may not submit the command (R311, R339). -/
def Chip.maySubmit (c : Chip) (k : Cmd) : Bool :=
  match c.cmdPart k with
  | some p =>
    if 0x90 ≤ k.opcode && k.opcode ≤ 0x93 then false
    else if k.opcode = 0x94 then k.fld 16 1 % 16 = p
    else if k.tclass = 5 then k.inst = k.fn / 32
    else true
  | none =>
    if k.opcode = 0 then true
    else c.isManager k.fn && ([0x80, 0x81, 0x90, 0x91, 0x92, 0x93, 0x94].contains k.opcode)

/-- The instance lies outside the submitting function's partition (R36, R318, R406). -/
def Chip.outsidePart (c : Chip) (x : Ctx) (k : Cmd) : Bool :=
  match c.cmdPart k with
  | none => false
  | some p =>
    match c.part? p with
    | none => true
    | some pt =>
      if k.tclass = 0 || k.tclass = 4 then !pt.cells.contains k.inst
      else if k.tclass = 1 then !bitAt pt.pairs k.inst
      else if k.tclass = 2 then !k.isRound && x.fuse.repair.engFail.contains k.inst
      else false

/-- The target is a stack engine that failed its self-test (R406), or a stack engine or the bridge in a FAILED power domain
(R366): its commands complete with ACCESS_ERROR and do not wait for READY. -/
def Chip.targetLost (c : Chip) (x : Ctx) (k : Cmd) : Bool :=
  (k.tclass = 2 && !k.isRound && (x.fuse.repair.engFail.contains k.inst || (c.domain (48 + k.inst)).failed)) ||
    (k.tclass = 3 && (c.domain 60).failed)

/-- The share of the partition on the engine that runs the command is 0 (R318). -/
def Chip.noShare (c : Chip) (k : Cmd) : Bool :=
  match c.cmdPart k, k.engine with
  | some p, some e => (match c.part? p with
    | some pt => pt.share e = 0
    | none => false)
  | _, _ => false

/-! ### Contexts (R443) -/

/-- The submitter may read a context (R443). -/
def Chip.ctxReadable (c : Chip) (k : Cmd) (a n : Nat) : Bool :=
  match c.cmdPart k with
  | some p => c.partMay p a n false
  | none => c.unowned a n

/-- The address checks of a context of `n` bytes named at bytes 24-31, and its one read, ahead of every check of what it
holds (R443). -/
def Chip.ctxCheck (c : Chip) (x : Ctx) (k : Cmd) (n : Nat) : Option (Nat × Nat) :=
  let a := k.fld 24 8
  firstFail
    [ failIf (a % 64 ≠ 0 || 2 ^ 44 ≤ a) 5 24,
      failIf (match c.region a n with
        | some .hbm => false
        | some .ddr => false
        | _ => true) 1 0,
      failIf (!c.ctxReadable k a n) 2 0,
      c.runFail x (c.cmdPart k) a n ]

/-! ### EVENT_RESET (R47) and the Tansy commands (R51, R54, R55) -/

/-- The checks of EVENT_RESET. -/
def Chip.checkEventReset (c : Chip) (p : Nat) (k : Cmd) : Option (Nat × Nat) :=
  firstFail
    [ (k.firstSet 18 46).bind badOp,
      failIf ((tabGet ({} : Event) c.events (k.fld 16 2)).owner ≠ some p) 2 0 ]

/-- The checks of TABLE_LOAD before it starts: reserved operands (R54). -/
def Cmd.checkTableLoad (k : Cmd) : Option (Nat × Nat) :=
  firstFail
    [ failIf (!bitAt (k.fld 16 8) 63 && bitField (k.fld 16 8) 62 44 ≠ 0) 5 16,
      (k.firstSet 28 36).bind badOp ]

/-- The checks of TABLE_ACTIVATE before it starts (R51). -/
def Cmd.checkTableActivate (k : Cmd) : Option (Nat × Nat) :=
  firstFail
    [ failIf (objInfo (k.fld 16 1)).isNone 5 16,
      failIf (match objInfo (k.fld 16 1) with
        | some o => o.instances ≤ k.fld 17 1
        | none => false) 5 17,
      (k.firstSet 18 2).bind badOp, (k.firstSet 24 40).bind badOp ]

/-- The requester may load, or activate, the object (R49): a partition its own objects, Management the device's. -/
def Chip.mayLoad (c : Chip) (k : Cmd) (o : ObjInfo) : Bool :=
  if o.perPart then (c.cmdPart k).isSome else k.fn = 32 * c.primary

/-- The scope of an object for a command: its partition, or 16 for the device. -/
def Chip.scopeOf (c : Chip) (k : Cmd) (o : ObjInfo) : Nat := if o.perPart then (c.cmdPart k).getD 16 else 16

/-! ### Partition commands (R311-R315) -/

/-- Bytes of a context as a number. -/
def ctxFld (b : List Byte) (off n : Nat) : Nat := leNat ((b.drop off).take n)

/-- A function exists: physical functions always, virtual functions while VF Enable is set (R338). -/
def Chip.fnExists (c : Chip) (fn : Nat) : Bool :=
  fn % 32 = 0 || ((c.port (fn / 32)).vfEnable && fn % 32 ≤ (c.port (fn / 32)).numVfs)

/-- A function's BARs can be reached: it exists, the device runs or stands by, and recovery mode leaves only the primary
port's physical function (R338, R367, R388). -/
def Chip.fnReach (c : Chip) (fn : Nat) : Bool :=
  c.fnExists fn && fn < 64 && c.power.pstate ≠ 4 && !c.power.off && (!c.sec.recovery || fn = 32 * c.primary)

/-- A function's BAR writes have an effect: not in the fatal state (R358, R427). -/
def Chip.fnWrites (c : Chip) (fn : Nat) : Bool := c.fnReach fn && c.fatal = 0

/-- The lowest byte offset of the partition context that breaks its layout (R312, R313), plus 64. -/
def partCtxBad (b : List Byte) : Option (Nat × Nat) :=
  let f := ctxFld b
  badAt
    [ (f 0 6 = 0, 64), (f 6 1 / 64 ≠ 0, 70), (f 7 1 / 64 ≠ 0, 71), (f 8 2 = 0, 72), (f 10 2 = 0, 74), (f 12 4 = 0, 76),
      (65536 < f 24 2 + f 26 2, 90), (f 28 1 ≠ 0, 92), (f 29 1 ≠ 0, 93), (f 30 1 ≠ 0, 94), (f 31 1 ≠ 0, 95),
      (f 32 8 % 4096 ≠ 0 || (f 40 8 = 0 && f 32 8 ≠ 0), 96), (f 40 8 % 4096 ≠ 0, 104), (f 54 1 ≠ 0, 118), (f 55 1 ≠ 0, 119),
      (f 58 2 = 0, 122), (f 62 2 = 0, 126), (f 66 2 = 0, 130), (f 70 2 = 0, 134), (f 74 2 = 0, 138),
      (((List.range 52).find? (fun i => f (76 + i) 1 ≠ 0)).isSome, 140 + ((List.range 52).find? (fun i => f (76 + i) 1 ≠ 0)).getD 0) ]

/-- The checks of PART_FORM (`set_` false) and PART_SET (R313). -/
def Chip.checkPartForm (c : Chip) (x : Ctx) (k : Cmd) (set_ : Bool) : Option (Nat × Nat) :=
  let p := k.fld 16 1 % 16
  let a := k.fld 24 8
  let b := c.rdBytes x a 128
  let f := ctxFld b
  let others := c.parts.filter (fun e => e.1 ≠ p)
  let spillBase := f 32 8
  let spillBytes := f 40 8
  firstFail
    [ c.ctxCheck x k 128,
      failIf (16 ≤ k.fld 16 1) 5 16, (k.firstSet 17 7).bind badOp, (k.firstSet 32 32).bind badOp,
      failIf ((c.part? p).isSome != set_) 5 16,
      partCtxBad b,
      failIf (!c.fnExists (f 7 1) || others.any (fun e => e.2.fn = f 7 1)) 5 71,
      failIf (others.any (fun e => overlap (f 24 2) (f 26 2) e.2.evtBase e.2.evtCount)) 5 88,
      failIf (spillBytes ≠ 0 && ((match c.region spillBase spillBytes with
          | some .hbm => false
          | _ => true) ||
        others.any (fun e => overlap spillBase spillBytes e.2.spillBase e.2.spillBytes) ||
        c.parts.any (fun e => e.2.regions.any (fun r => overlap spillBase spillBytes r.2.base r.2.bytes)))) 5 96,
      failIf (bitAt (f 6 1) 4 && spillBytes < 18 * 2 ^ 20 * (2 * popCount 48 (f 0 6))) 5 104 ]

/-- A command of the partition is running (R149, R315). -/
def Chip.partRunning (c : Chip) (p : Nat) : Bool := c.cmds.any (fun k => k.phase ≠ .waiting && c.cmdPart k = some p)

/-- The checks of PART_REGION (R315). -/
def Chip.checkPartRegion (c : Chip) (k : Cmd) : Option (Nat × Nat) :=
  let p := k.fld 16 1 % 16
  let valid := bitAt (k.fld 18 1) 0
  let ro := bitAt (k.fld 18 1) 1
  let a := k.fld 24 8
  let n := k.fld 32 8
  firstFail
    [ failIf (16 ≤ k.fld 16 1 || (c.part? p).isNone) 5 16,
      failIf (c.partRunning p) 5 16,
      badAt [ (16 ≤ k.fld 17 1, 17), (4 ≤ k.fld 18 1, 18) ],
      (k.firstSet 19 5).bind badOp,
      badAt [ (valid && a % 4096 ≠ 0, 24), (valid && (n % 4096 ≠ 0 || n = 0), 32) ],
      (k.firstSet 40 24).bind badOp,
      failIf (valid && (match c.region a n with
        | some .hbm => false
        | some .ddr => false
        | _ => true)) 1 0,
      failIf (valid && (c.parts.any (fun e =>
        overlap a n e.2.spillBase e.2.spillBytes ||
          (e.1 ≠ p && e.2.regions.any (fun r => overlap a n r.2.base r.2.bytes && !(ro && r.2.readOnly)))))) 5 24 ]

/-- The checks of PART_TEARDOWN and PART_RESET (R311): the partition exists, reserved operands are clear. -/
def Chip.checkPartName (c : Chip) (k : Cmd) (flags : Bool) : Option (Nat × Nat) :=
  firstFail
    [ failIf (16 ≤ k.fld 16 1 || (c.part? (k.fld 16 1)).isNone) 5 16,
      (if flags then failIf (2 ≤ k.fld 17 1) 5 17 else (k.firstSet 17 1).bind badOp),
      (k.firstSet 18 46).bind badOp ]

/-- The checks of PROG_BIND (R311, R324). -/
def Chip.checkProgBind (c : Chip) (p : Nat) (k : Cmd) : Option (Nat × Nat) :=
  let s := k.fld 16 1
  firstFail
    [ failIf (bitAt s 6) 5 16, (k.firstSet 17 47).bind badOp,
      failIf (!bitAt s 7 && (c.active (tableKey 0 p (s % 64))).isNone) 5 16 ]

end Sys2Proof.Machine
end

