-- ==== Sys2Proof/Machine/ChecksBridge.lean ====
section
/-! DEFINITION. The refusal tables of the bridge's commands: RING_OPEN and RING_RESET (R173), and head commands (R179). -/

namespace Sys2Proof.Machine

/-- The ring a command names. -/
def Cmd.ring (k : Cmd) : Nat := k.fld 16 1 % 8

/-- A head command. -/
def Cmd.isHead (k : Cmd) : Bool := k.tclass = 3 && 0x52 ≤ k.opcode && k.opcode ≤ 0x54

/-- The open ring a command names. -/
def Chip.ringOf (c : Chip) (k : Cmd) : Option Ring := tabFind c.bridge.rings k.ring

/-- The partition is the teacher of an open ring (R192). -/
def Chip.isTeacher (c : Chip) (p : Nat) : Bool := c.bridge.rings.any (fun e => e.2.tPart = p)

/-- The stream of a head command: 0 teacher, 1 pass one, 2 pass two. -/
def Cmd.stream (k : Cmd) : Nat := k.opcode - 0x52

/-- The source cells of a stream (R177). -/
def Ring.cells (r : Ring) (st : Nat) : List Nat := if st = 0 then r.tCells else r.sCells

/-- The slice size of a stream. -/
def Ring.vslice (r : Ring) (st : Nat) : Nat := if st = 0 then r.vsliceT else r.vsliceS

/-- The position of a token (R167). -/
def Ring.pos (r : Ring) (s : Nat) : Nat := (s + 2 ^ 32 - r.seqStart) % 2 ^ 32

/-- The slot of a token (R167). -/
def Ring.slot (r : Ring) (s : Nat) : Nat := r.pos s % r.depth

/-- The local address of a token's slot. -/
def Ring.slotAddr (r : Ring) (s : Nat) : Nat := bridgeAddr (r.base + r.slot s * r.slotBytes)

/-- The sequence numbers of a head command's rows. -/
def Cmd.seqs (k : Cmd) : List Nat := (List.range (k.fld 22 2)).map (fun i => (k.fld 24 4 + i) % 2 ^ 32)

/-- A ring from its context and temperature entry (R166, R173). -/
def ringFrom (b : List Byte) (temp : List Byte) : Ring :=
  let f := ctxFld b
  { tPart := f 50 1 % 16, sPart := f 51 1 % 16, base := f 0 4, depth := f 4 4, k := f 8 2, tempIdx := f 10 1, v := f 12 4
    vsliceT := f 16 4, vsliceS := f 20 4, tCells := bitsOf 96 (f 24 12), sCells := bitsOf 96 (f 36 12), rowsMax := f 48 2
    seqStart := f 52 4, alpha := f 56 4, labelAddr := f 64 8, lossAddr := f 72 8, tau := leNat (temp.take 4), scale := leNat ((temp.drop 4).take 4)
    nextSeq := f 52 4 }

/-- The lowest byte offset of a ring context that is reserved or out of range (R166), plus 64. -/
def ringCtxBad (b : List Byte) : Option (Nat × Nat) :=
  let f := ctxFld b
  let alpha := ofF32 (f 56 4)
  let head : List (Bool × Nat) :=
    [ (f 0 4 % 64 ≠ 0, 64), (f 4 4 = 0 || 4194304 < f 4 4, 68), (f 8 2 = 0 || 512 < f 8 2, 72), (f 11 1 ≠ 0, 75),
      (f 12 4 = 0 || 1048576 < f 12 4, 76), (f 16 4 % 128 ≠ 0, 80), (f 20 4 % 128 ≠ 0, 84), (f 48 2 = 0 || 2048 < f 48 2, 112),
      (16 ≤ f 50 1, 114), (16 ≤ f 51 1, 115), (!alpha.finite || alpha.lt Val.zero || (Val.ofInt 1).lt alpha, 120) ]
  let tail (lo n : Nat) : List (Bool × Nat) := (List.range n).map (fun i => (decide (f (lo + i) 1 ≠ 0), 64 + lo + i))
  badAt (head ++ tail 60 4 ++ [ (f 64 8 % 64 ≠ 0 || 2 ^ 44 ≤ f 64 8, 128), (f 72 8 % 64 ≠ 0 || 2 ^ 44 ≤ f 72 8, 136) ] ++ tail 80 48)

/-- Row slots reserved by rings other than one (R173). -/
def Bridge.rowsReserved (b : Bridge) (but : Nat) : Nat := (b.rings.filter (fun e => e.1 ≠ but)).foldl (fun n e => n + 3 * e.2.rowsMax) 0

/-- The checks of RING_OPEN (R173); where its reserved bits stand among them: log 104. -/
def Chip.checkRingOpen (c : Chip) (x : Ctx) (p : Nat) (k : Cmd) : Option (Nat × Nat) :=
  let b := c.rdBytes x (k.fld 24 8) 128
  let temp := (c.active (tableKey 3 p 0)).elim [] (fun im => im.entry 8 (ctxFld b 10 1))
  let r := ringFrom b temp
  let old : Option Ring := c.ringOf k
  let inPart (q : Nat) (cells : List Nat) : Bool := match c.part? q with
    | some pt => cells.all (fun n => pt.cells.contains n)
    | none => false
  firstFail
    [ failIf (8 ≤ k.fld 16 1) 5 16, (k.firstSet 17 7).bind badOp, (k.firstSet 32 32).bind badOp,
      c.ctxCheck x k 128,
      failIf (old.any (fun (o : Ring) => o.live ≠ 0 || !o.sets.isEmpty)) 5 16,
      ringCtxBad b,
      failIf (r.v < r.k) 5 72,
      failIf (r.depth < r.rowsMax) 5 68,
      failIf (r.tCells.length * r.vsliceT < r.v) 5 88,
      failIf (r.sCells.length * r.vsliceS < r.v) 5 100,
      failIf (0xA000000 < r.base + r.regionBytes ||
        c.bridge.rings.any (fun e => e.1 ≠ k.ring && overlap r.base r.regionBytes e.2.base e.2.regionBytes)) 5 64,
      failIf (c.active (tableKey 3 p 0)).isNone 13 7,
      failIf (!tempUsable r.tau r.scale) 5 74,
      failIf (8192 < c.bridge.rowsReserved k.ring + 3 * r.rowsMax) 5 112,
      failIf (r.tPart = r.sPart || !inPart r.tPart r.tCells || !inPart r.sPart r.sCells || (p ≠ r.tPart && p ≠ r.sPart)) 2 0 ]

/-- The checks of RING_RESET (R173). -/
def Chip.checkRingReset (c : Chip) (p : Nat) (k : Cmd) : Option (Nat × Nat) :=
  let old : Option Ring := c.ringOf k
  firstFail
    [ failIf (bitField (k.fld 16 1) 6 3 ≠ 0) 5 16, (k.firstSet 17 47).bind badOp,
      failIf (old.isNone || c.cmds.any (fun j => j.phase ≠ .waiting && j.isHead && j.ring = k.ring)) 5 16,
      failIf (old.any (fun (o : Ring) => p ≠ o.tPart && p ≠ o.sPart)) 2 0 ]

/-- The packed gradient rows of one source of HEAD_PASS2 (R186). -/
def Cmd.gradPitch (k : Cmd) (f : Fmt) : Nat := 64 * ceilDiv (f.rowBytes (128 * k.fld 55 1)) 64

/-- The checks of a head command (R179). -/
def Chip.checkHead (c : Chip) (p : Nat) (k : Cmd) : Option (Nat × Nat) :=
  let st := k.stream
  let p2 := st = 2
  let ring? : Option Ring := c.ringOf k
  let fw := k.fld 17 1 % 16
  let fx := k.fld 17 1 / 16
  let w := c.fmt k p fw
  let xf := c.fmt k p fx
  let n := k.fld 22 2
  let kk := k.fld 28 4
  let m := 128 * k.fld 55 1
  let w0 := k.fld 52 3
  let first := bitAt (k.fld 16 1) 6
  let last := bitAt (k.fld 16 1) 7
  let gs := ofF32 (k.fld 56 4)
  let fields := firstFail
    [ badAt
        ([ (bitField (k.fld 16 1) 5 3 ≠ 0 || ring?.isNone, 16), (4 ≤ k.fld 18 1, 18), (115 < k.sfld 19, 19), (badT (k.sfld 20), 20), (badT (k.sfld 21), 21),
           (n = 0 || ring?.elim 2048 (fun r => r.rowsMax) < n, 22), (kk = 0, 28), (k.fld 35 1 ≠ 0 || k.fld 32 4 % 64 ≠ 0, 32),
           (k.fld 39 1 ≠ 0 || k.fld 36 4 % 64 ≠ 0, 36), (w.isMx && k.fld 43 1 ≠ 0, 40), (xf.isMx && k.fld 47 1 ≠ 0, 44),
           (64 * k.fld 48 2 < w.rowBytes kk, 48), (64 * k.fld 50 2 < xf.rowBytes kk, 50), (w0 % 128 ≠ 0, 52), (m = 0 || 2048 < m, 55),
           (p2 && (!gs.finite || gs.isZero || gs.neg), 56), (p2 && badT (k.sfld 60), 60), (p2 && k.fld 61 3 % 64 ≠ 0, 61) ] : List (Bool × Nat)),
      if p2 then none else (k.firstSet 56 8).bind badOp ]
  match ring? with
  | none => fields
  | some r =>
    let cur : Option RowSet := tabFind r.sets st
    let vs := r.vslice st
    let base := k.fld 24 4
    let slots := k.seqs.map r.slot
    let spans : List (Nat × Nat × Bool) := if p2 then slots.map (fun s => (r.labelAddr + 4 * s, 4, false)) ++ slots.map (fun s => (r.lossAddr + 16 * s, 16, true)) else []
    firstFail
      [ fields,
        failIf (first == cur.isSome) 5 16,
        failIf (cur.any (fun (s : RowSet) => s.rows.length ≠ n)) 5 22,
        failIf (match cur with
          | some s => s.base ≠ base
          | none => st = 0 && (base ≠ r.nextSeq || 2 ^ 32 < r.pos base + n)) 5 24,
        failIf (w0 ≠ cur.elim 0 (fun (s : RowSet) => s.last)) 5 52,
        failIf (vs < w0 + m || (last && w0 + m ≠ vs)) 5 55,
        failIf (!c.hasFormats p) 13 7,
        failIf (!arrayOperand fw || !arrayOperand fx || !c.fmtUsable k p fw || !c.fmtUsable k p fx || (p2 && !arrayOutput fx)) 5 17,
        failIf ((w.isMx || xf.isMx) && kk % 32 ≠ 0) 6 0,
        failIf (p ≠ (if st = 0 then r.tPart else r.sPart)) 2 0,
        failIf (0x1000000 < planeEnd (k.fld 32 4) (64 * k.fld 48 2) m (w.rowBytes kk) ||
          0x1000000 < planeEnd (k.fld 36 4) (64 * k.fld 50 2) n (xf.rowBytes kk) ||
          (w.isMx && 0x1000000 < k.fld 40 4 + m * (kk / 32)) || (xf.isMx && 0x1000000 < k.fld 44 4 + n * (kk / 32)) ||
          (p2 && 0x1000000 < k.fld 61 3 + n * k.gradPitch xf + n * xf.scaleBytes m)) 1 0,
        failIf (spans.any (fun s => match c.region s.1 s.2.1 with
          | some .hbm => false
          | some .ddr => false
          | _ => true)) 1 0,
        failIf (spans.any (fun s => !c.partMay p s.1 s.2.1 s.2.2)) 2 0 ]

end Sys2Proof.Machine
end

