-- ==== Sys2Proof/Machine/ChecksColl.lean ====
section
/-! DEFINITION. The refusal tables of the collective commands (R254, R260, R275). -/

namespace Sys2Proof.Machine

/-- The lowest byte offset of a group context that is reserved or out of range (R253), plus 64. -/
def groupCtxBad (b : List Byte) : Option (Nat × Nat) :=
  let f := ctxFld b
  let head : List (Bool × Nat) :=
    [ (f 0 2 < 2 || 4096 < f 0 2, 64), (f 0 2 ≤ f 2 2, 66), (4096 ≤ f 4 2, 69), (4096 ≤ f 6 2, 71), (bitField (f 8 2) 14 12 ≠ 0, 73),
      (8 < f 10 1, 74), (4 ≤ f 11 1, 75), (badT (signedOf 8 (f 12 1)), 76), (f 13 1 = 0 || 7 < f 13 1, 77),
      (bitAt (f 11 1) 1 && 96 ≤ f 14 1, 78), (f 15 1 ≠ 0, 79), (f 16 8 % 16384 ≠ 0 || 0xD800000000 ≤ f 16 8, 80),
      (f 24 8 = 0 || f 24 8 % 16384 ≠ 0 || 0xD800000000 < f 16 8 + f 24 8, 88) ]
  let child (i : Nat) : Bool × Nat :=
    if i < f 10 1 then (4096 ≤ f (32 + 2 * i) 2, 97 + 2 * i) else (f (32 + 2 * i) 2 ≠ 0, 96 + 2 * i + flagNat (decide (f (32 + 2 * i) 1 = 0)))
  badAt (head ++ (List.range 8).map child ++ (List.range 16).map (fun i => (decide (f (48 + i) 1 ≠ 0), 112 + i)))

/-- A launch or gather that names the slot is running. -/
def Chip.slotBusy (c : Chip) (grp : Nat) : Bool :=
  c.cmds.any (fun j => j.phase ≠ .waiting && j.tclass = 6 && (j.opcode = 0x71 || j.opcode = 0x72) && j.fld 16 1 = grp)

/-- Any command that names the slot is running (R254). -/
def Chip.slotNamed (c : Chip) (grp : Nat) : Bool :=
  c.slotBusy grp || c.cmds.any (fun j => j.phase ≠ .waiting && j.tclass = 6 && (j.opcode = 0x70 || j.opcode = 0x73) && j.fld 16 1 = grp)

/-- The slot is bound to the partition. -/
def Chip.slotMine (c : Chip) (p grp : Nat) : Option Group := (tabFind c.coll.groups grp).filter (fun q => q.part = p)

/-- The checks of COLL_GROUP_SET (R254). -/
def Chip.checkGroupSet (c : Chip) (x : Ctx) (p : Nat) (k : Cmd) : Option (Nat × Nat) :=
  let grp := k.fld 16 1
  let b := c.rdBytes x (k.fld 24 8) 64
  let f := ctxFld b
  let old : Option Group := tabFind c.coll.groups grp
  firstFail
    [ c.ctxCheck x k 64,
      (k.firstSet 17 7).bind badOp, (k.firstSet 32 32).bind badOp,
      groupCtxBad b,
      failIf (old.any (fun (q : Group) => q.part ≠ p)) 2 0,
      failIf (!c.hubMay p (f 16 8) (f 24 8) || (bitAt (f 11 1) 1 && !(match c.part? p with
        | some pt => pt.cells.contains (f 14 1)
        | none => false))) 2 0,
      failIf (c.coll.groups.any (fun e => e.1 ≠ grp && overlap (f 16 8) (f 24 8) e.2.stageBase e.2.stageBytes)) 5 80,
      failIf (c.slotBusy grp) 5 16 ]

/-- The checks of COLL_GROUP_FREE (R254). -/
def Chip.checkGroupFree (c : Chip) (p : Nat) (k : Cmd) : Option (Nat × Nat) :=
  let grp := k.fld 16 1
  let old : Option Group := tabFind c.coll.groups grp
  firstFail
    [ (k.firstSet 17 47).bind badOp,
      failIf old.isNone 5 16,
      failIf (old.any (fun (q : Group) => q.part ≠ p)) 2 0,
      failIf (c.slotNamed grp) 5 16 ]

/-- Elements of a launch (R259). -/
def Cmd.launchElems (k : Cmd) : Nat := k.fld 22 2 * k.fld 24 2

/-- Tiles of a launch (R259). -/
def Cmd.launchTiles (k : Cmd) : Nat := ceilDiv k.launchElems 2048

/-- The runs of a launch's source in its cell's wide buffer (R259). -/
def Cmd.launchSource (k : Cmd) : List (Nat × Nat) :=
  (List.range (k.fld 22 2)).map (fun r => (wideAddr (k.fld 19 1) (k.fld 28 4 + 4 * k.fld 26 2 * r), 4 * k.fld 24 2))

/-- The runs an owner writes: rows of FP32 (R259). -/
def Cmd.launchOut (k : Cmd) : List (Nat × Nat) :=
  (List.range (k.fld 22 2)).map (fun r => (k.fld 40 8 + 4 * k.fld 36 4 * r, 4 * k.fld 24 2))

/-- A byte of a wide buffer: no owner address of a launch. -/
def isWide (a : Nat) : Bool := match endKind a with
  | .wide _ => true
  | _ => false

/-- The checks of COLL_LAUNCH (R260). -/
def Chip.checkLaunch (c : Chip) (p : Nat) (k : Cmd) (collecting : Bool) : Option (Nat × Nat) :=
  let q? := c.slotMine p (k.fld 16 1)
  let g := q?.elim 0 (fun q => q.g)
  let owner := q?.any (fun q => q.member = k.fld 20 2)
  let nb := owner && bitAt (k.fld 17 1) 0
  let rows := k.fld 22 2
  let cols := k.fld 24 2
  let outs := if owner then k.launchOut else []
  let nbRun := if nb then [(k.fld 48 8, 4 * k.fld 56 4)] else []
  firstFail
    [ badAt
        [ (2 ≤ k.fld 17 1, 17), (badT (k.sfld 18), 18), (96 ≤ k.fld 19 1, 19), (q?.isSome && g ≤ k.fld 20 2 % 4096, 20), (4096 ≤ k.fld 20 2, 21),
          (rows = 0 || 4096 < rows || 524288 < k.launchElems, 22), (cols < 32 || 4096 < cols || cols % 32 ≠ 0, 24),
          (k.fld 26 2 < cols || k.fld 26 2 % 32 ≠ 0, 26), (k.fld 28 4 % 128 ≠ 0, 28), (k.fld 32 4 % 16384 ≠ 0, 32),
          (owner && k.fld 36 4 < cols, 36), (nb && (k.fld 56 4 = 0 || 65536 < k.fld 56 4), 56), ((k.firstSet 60 4).isSome, (k.firstSet 60 4).getD 60) ],
      failIf (q?.isNone || !(match c.part? p with
          | some pt => pt.cells.contains (k.fld 19 1)
          | none => false) ||
        outs.any (fun r => (c.region r.1 r.2).isSome && (isWide r.1 || !c.hubMay p r.1 r.2)) ||
        nbRun.any (fun r => (c.region r.1 r.2).isSome && (isWide r.1 || !c.partOwns p r.1 r.2 false))) 2 0,
      failIf (k.fld 28 4 + 4 * (k.fld 26 2 * (rows - 1) + cols) > 0x200000 ||
        (q?.any (fun q => k.fld 32 4 + 16384 * k.launchTiles > q.stageBytes)) ||
        (outs ++ nbRun).any (fun r => (c.region r.1 r.2).isNone)) 1 0,
      failIf (!collecting) 5 16 ]

/-- The address of a gather's piece (R275). -/
def Cmd.piece (k : Cmd) (i : Nat) : Nat := k.fld 24 8 + i * k.fld 32 8

/-- The checks of COLL_GATHER (R275). -/
def Chip.checkGather (c : Chip) (p : Nat) (k : Cmd) : Option (Nat × Nat) :=
  let q? := c.slotMine p (k.fld 16 1)
  let e : Event := tabGet {} c.events (k.fld 18 2)
  let n := k.fld 20 4
  let ps := (List.range (q?.elim 1 (fun q => q.g))).map k.piece
  firstFail
    [ (k.firstSet 17 1).bind badOp,
      badAt [ (n < 64 || 2 ^ 31 < n || n % 64 ≠ 0, 20), (2 ^ 44 ≤ k.fld 24 8, 24), (k.fld 32 8 % 64 ≠ 0 || k.fld 32 8 < n, 32) ],
      (k.firstSet 40 24).bind badOp,
      failIf (q?.isNone || e.owner ≠ some p) 2 0,
      failIf (!e.fabric) 5 18,
      failIf (ps.any (fun a => match c.region a n with
        | some .hbm => false
        | some .ddr => false
        | _ => true)) 1 0,
      failIf (ps.any (fun a => !c.partOwns p a n false)) 2 0 ]

end Sys2Proof.Machine
end

