-- ==== Sys2Proof/Machine/ChecksServe.lean ====
section
/-! DEFINITION. Serving: segments of the engine buffers (R279), the serving context and its pages (R283-R287), and the
refusal tables of the engine and round commands (R281, R283, R288-R294, R297, R301). -/

namespace Sys2Proof.Machine

/-! ### Engine buffers (R278, R279) -/

/-- Segment `j` of engine `s` is owned by a partition (R279, R309). -/
def Chip.segOwned (c : Chip) (p s j : Nat) : Bool :=
  let f := 0x080 + s
  bitAt (c.reg f (if j < 32 then 0x150 else 0x154) 0) (j % 32) && c.reg f (0x130 + 4 * (j / 8)) 0 / 16 ^ (j % 8) % 16 = p

/-- Every byte of a run of an engine buffer lies in segments of the partition. -/
def Chip.segsOwned (c : Chip) (p s off n : Nat) : Bool :=
  n = 0 || (List.range ((off + n - 1) / 131072 - off / 131072 + 1)).all (fun i => c.segOwned p s (off / 131072 + i))

/-- The engine and offset of a model address in an engine buffer. -/
def engOf (a : Nat) : Nat × Nat := ((a - 2 ^ 44) / 2 ^ 23, (a - 2 ^ 44) % 2 ^ 23)

/-- Runs of an array command on a stack engine: operands read and C written (R86). -/
def Chip.arrayRuns (c : Chip) (p : Nat) (k : Cmd) : List (Nat × Nat) :=
  let b := storeBase (k.units.getD 0 0)
  let kk := k.fld 28 4
  let m := k.fld 22 2
  let n := k.fld 24 2
  let w := c.fmt k p (k.fld 17 1 % 16)
  let xf := c.fmt k p (k.fld 17 1 / 16)
  let o := c.fmt k p (k.fld 18 1 % 16)
  (List.range m).map (fun i => (b + k.fld 32 4 + 64 * k.fld 56 2 * i, w.rowBytes kk)) ++
    (List.range n).map (fun i => (b + k.fld 36 4 + 64 * k.fld 58 2 * i, xf.rowBytes kk)) ++
    (List.range n).map (fun i => (b + k.fld 40 4 + 64 * k.fld 60 2 * i, o.rowBytes m)) ++
    [(b + k.fld 44 4, m * w.scaleBytes kk), (b + k.fld 48 4, n * xf.scaleBytes kk), (b + k.fld 52 4, n * o.scaleBytes m)]

/-- Runs of ARRAY_EW on a stack engine (R94). -/
def Chip.ewRuns (c : Chip) (p : Nat) (k : Cmd) : List (Nat × Nat) :=
  let b := storeBase (k.units.getD 0 0)
  let n := k.fld 24 4
  let run (off aux code : Nat) : List (Nat × Nat) :=
    let f := c.fmt k p code
    [(b + k.fld off 4, f.rowBytes n), (b + k.fld aux 4, f.scaleBytes n)]
  run 28 44 (k.fld 17 1 % 16) ++ run 32 48 (k.fld 17 1 / 16) ++ (if k.fld 16 1 = 1 then run 36 52 (k.fld 18 1 / 16) else []) ++ run 40 56 (k.fld 18 1 % 16)

/-- Runs in engine buffers are owned (R279). -/
def Chip.engRunsOwned (c : Chip) (p : Nat) (runs : List (Nat × Nat)) : Bool :=
  runs.all (fun r => let e := engOf r.1; c.segsOwned p e.1 e.2 r.2)

/-! ### The serving context (R283-R287) -/

/-- A field of the serving context. -/
def Serve.f (s : Serve) (off n : Nat) : Nat := ctxFld s.ctx off n

/-- The format of K and V. -/
def Serve.fmtCode (s : Serve) : Nat := s.f 7 1 % 16

/-- Bytes of a K or V row, and of its scales. -/
def Serve.rowBytes (s : Serve) (f : Fmt) : Nat := f.rowBytes (s.f 8 2)

/-- Bytes of a plane of `n` rows: rows, then scales (R284). -/
def Serve.planeBytes (s : Serve) (f : Fmt) (n : Nat) : Nat := n * (f.rowBytes (s.f 8 2) + f.scaleBytes (s.f 8 2))

/-- The offset of a K (0) or V (1) plane of a layer and head in a page (R284). -/
def Serve.planeOff (s : Serve) (f : Fmt) (layer head kv : Nat) : Nat :=
  1024 + ((layer * s.f 6 1 + head) * 2 + kv) * (64 * ceilDiv (s.planeBytes f 256) 64)

/-- PAGE_BYTES (R284). -/
def Serve.pageBytes (s : Serve) (f : Fmt) : Nat := 4096 * ceilDiv (s.planeOff f (s.f 5 1) 0 0) 4096

/-- Bytes of a page set. -/
def Serve.setBytes (s : Serve) (f : Fmt) : Nat := s.f 4 1 * s.pageBytes f

/-- The window of the HBM pool. -/
def Chip.poolWindow (c : Chip) (p : Nat) (s : Serve) : Window := tabGet {} c.tiers.windows (4 * p + s.f 10 1)

/-- The HBM pool in a window: its sets in each stack's part (R283, R148). -/
def Serve.pool (s : Serve) (w : Window) (f : Fmt) : List (Nat × Nat) :=
  if s.f 20 4 = 0 then [] else (List.range 12).map (fun t => ((w.base + t * w.size + s.f 24 4) * 4096, s.f 20 4 * s.setBytes f))

/-- The local address of a page set by its handle (R285). -/
def Chip.setAddr (c : Chip) (p : Nat) (s : Serve) (f : Fmt) (h : Nat) : Nat :=
  if h / 2 ^ 30 = 1 then
    let w := c.poolWindow p s
    (w.base + h / 2 ^ 26 % 16 * w.size + s.f 24 4) * 4096 + h % 2 ^ 26 * s.setBytes f
  else s.f 32 8 + h % 2 ^ 30 * s.setBytes f

/-- The address of a page-table entry (R285). -/
def Serve.entryAddr (s : Serve) (slot j : Nat) : Nat := s.f 40 8 + 4 * (slot * s.f 48 4 + j)

/-- A partition's scheduler, if its context is bound. -/
def Chip.serveOf (c : Chip) (p : Nat) : Option Serve := tabFind c.serve.parts p

/-- A request slot. -/
def Serve.req (s : Serve) (slot : Nat) : Req := tabGet { state := .free } s.reqs slot

/-- A field of a request's descriptor (R292). -/
def Req.f (q : Req) (off n : Nat) : Nat := ctxFld q.desc off n

/-- The local page of a page number that this member holds, if it does (R285). -/
def Serve.localPage (s : Serve) (page : Nat) : Option Nat :=
  let d := max 1 (s.f 11 1)
  if page % d = s.f 12 2 then some (page / d) else none

/-- The decode entry of a slot in the open plan. -/
def Serve.decodeEntry (s : Serve) (slot : Nat) : Option PlanEntry := (s.plan.getD []).find? (fun e => e.slot = slot && !e.prefill)

/-- The stack of an HBM handle. -/
def handleStack (h : Nat) : Nat := h / 2 ^ 26 % 16

/-- The engines whose stacks hold a page set of a slot, and the named one (R289). -/
def Chip.attendEngines (c : Chip) (p : Nat) (k : Cmd) : List Nat :=
  let pages : Tab Nat := match c.serveOf p with
    | some s => (s.req (k.fld 16 2 % 16384)).pages.filter (fun e => e.2 / 2 ^ 30 = 1)
    | none => []
  (k.inst :: (if bitAt (k.fld 28 1) 3 then [] else pages.map (fun (e : Nat × Nat) => handleStack e.2))).eraseDups

/-! ### ENG_MOVE (R281) -/

/-- An end's address as the model's: an engine buffer where bit 63 is set. -/
def engEnd (a : Nat) : Nat := if bitAt a 63 then engAddr (bitField a 27 24) (a % 2 ^ 24) else a

/-- The ends of ENG_MOVE. -/
def Chip.engSrc (c : Chip) (p : Nat) (k : Cmd) : MoveEnd :=
  let e := c.moveSrc p k
  let a := engEnd (k.fld 32 8)
  { e with host := false, addr := a, aux := a + 64 * k.fld 48 4 }

/-- The destination end of ENG_MOVE. -/
def Chip.engDst (c : Chip) (p : Nat) (k : Cmd) : MoveEnd :=
  let e := c.moveDst p k
  let a := engEnd (k.fld 40 8)
  { e with host := false, addr := a, aux := a + 64 * k.fld 52 4 }

/-- Every byte of a run that lies in HBM lies in a stack (R150). -/
def Chip.inStack (c : Chip) (s : Nat) (r : Nat × Nat) : Bool :=
  (pieces (r.2 / 4096 + 2) r.1 r.2).all (fun u => 0xD800000000 ≤ u.1 || (c.hbmMap u.1).1 = s)

/-- The checks of ENG_MOVE (R281). -/
def Chip.checkEngMove (c : Chip) (x : Ctx) (p : Nat) (k : Cmd) : Option (Nat × Nat) :=
  let mode := k.fld 16 1
  let s := c.engSrc p k
  let d := c.engDst p k
  let addrBad (off : Nat) : Bool :=
    let a := k.fld off 8
    a % 64 ≠ 0 || (if bitAt a 63 then bitField a 62 28 ≠ 0 || 11 < bitField a 27 24 || 2 ^ 23 ≤ a % 2 ^ 24 else 2 ^ 44 ≤ a)
  let t := bitAt mode 0
  let delta := bitAt mode 1
  let da := k.fld 56 8
  let nTiles := c.rdNat x (da + 8) 4
  let own (e : MoveEnd) : Bool := isEng e.addr && (engOf e.addr).1 = k.inst
  let runs := s.runs ++ d.runs
  let mxBad (e : MoveEnd) : Bool := e.fmt.isMx && e.rowLen % 32 ≠ 0
  let far (r : Nat × Nat) : Bool := (match c.store r.1 1 with
    | some (.wide _) => true
    | _ => false) || !c.inStack k.inst r
  firstFail
    [ badAt
        [ (mode / 32 ≠ 0, 16), (badT (k.sfld 18), 18), (badT (k.sfld 19), 19), (s.rows = 0, 20), (s.rowLen = 0, 23),
          (s.pitch ≠ 0 && 64 * s.pitch < s.rowBytes, 26), (d.pitch ≠ 0 && 64 * d.pitch < d.rowBytes, 28), (addrBad 32, 32), (addrBad 40, 40),
          (if delta then da % 64 ≠ 0 || 2 ^ 44 ≤ da else da ≠ 0, 56) ],
      failIf (bitField mode 4 2 ≠ 0 || k.fld 30 2 ≠ 0 || own s == own d) 5 16,
      failIf (!c.hasFormats p) 13 7,
      failIf (!c.fmtUsable k p (k.fld 17 1 % 16) || !c.fmtUsable k p (k.fld 17 1 / 16) ||
        (t && (s.fmt.code = 10 || s.fmt.code = 12 || d.fmt.code = 10 || d.fmt.code = 12)) ||
        (!c.copyMove p k && (!dmaFormat (k.fld 17 1 % 16) || !dmaFormat (k.fld 17 1 / 16)))) 5 17,
      if delta && (c.region da 32).isSome then c.runFail x (some p) da 32 else none,
      failIf (delta && (c.region da 32).isSome && c.deltaHeaderBad x p k da) 5 56,
      failIf (mxBad s || mxBad d || (t && s.fmt.isMx && d.fmt.isMx && (s.rows % 32 ≠ 0 || s.rowLen % 32 ≠ 0)) || (s.fmt.code = 10 && s.rowLen % 32 ≠ 0)) 6 0,
      failIf (c.endFails s || c.endFails d || (delta && (c.region da (32 + 8 * nTiles)).isNone)) 1 0,
      failIf (!c.engRunsOwned p (runs.filter (fun r => isEng r.1)) || runs.any far ||
        s.runs.any (fun r => !isEng r.1 && !c.partMay p r.1 r.2 false) || d.runs.any (fun r => !isEng r.1 && !c.partMay p r.1 r.2 true) ||
        (delta && (!c.partMay p da (32 + 8 * nTiles) false || wideElsewhere none da || !c.inStack k.inst (da, 32 + 8 * nTiles)))) 2 0 ]

/-! ### ENG_KV_APPEND (R288) and ENG_ATTEND (R289-R291) -/

/-- The address of the page that holds position POS + `i` of an append, in its layer group. -/
def Chip.appendPage (c : Chip) (p : Nat) (k : Cmd) (s : Serve) (i : Nat) : Nat :=
  c.setAddr p s (c.fmt k p s.fmtCode) (((s.localPage ((k.fld 28 4 + i) / 256)).bind (fun j => tabFind (s.req (k.fld 16 2)).pages j)).getD 0) +
    k.fld 18 1 * s.pageBytes (c.fmt k p s.fmtCode)

/-- The address of the K (0) or V (1) plane of head KVH0 + `h` in a page that begins at `page`. -/
def Chip.headPlane (c : Chip) (p : Nat) (k : Cmd) (s : Serve) (page h kv : Nat) : Nat :=
  page + s.planeOff (c.fmt k p s.fmtCode) (k.fld 19 1) (k.fld 22 1 + h) kv

/-- The bytes of pages an append writes: each position's tag, and its rows and scales of every head. -/
def Chip.appendRuns (c : Chip) (p : Nat) (k : Cmd) (s : Serve) : List (Nat × Nat) :=
  let f := c.fmt k p s.fmtCode
  let rb := s.rowBytes f
  let sb := f.scaleBytes (s.f 8 2)
  (List.range (k.fld 25 1)).flatMap (fun i =>
    let row := (k.fld 28 4 + i) % 256
    (c.appendPage p k s i + 4 * row, 4) ::
      (List.range (k.fld 23 1)).flatMap (fun h => [0, 1].flatMap (fun kv =>
        let b := c.headPlane p k s (c.appendPage p k s i) h kv
        [(b + row * rb, rb), (b + 256 * rb + row * sb, sb)])))

/-- The bytes of a page that an attention command reads: its tags, and the planes of its heads. -/
def Chip.attendRuns (c : Chip) (p : Nat) (k : Cmd) (s : Serve) (handle : Nat) : List (Nat × Nat) :=
  let f := c.fmt k p s.fmtCode
  let page := c.setAddr p s f handle + k.fld 18 1 * s.pageBytes f
  (page, 1024) :: (List.range (k.fld 23 1)).flatMap (fun h => [0, 1].map (fun kv => (c.headPlane p k s page h kv, s.planeBytes f 256)))

/-- The checks of ENG_KV_APPEND (R288). -/
def Chip.checkAppend (c : Chip) (p : Nat) (k : Cmd) : Option (Nat × Nat) :=
  let s? : Option Serve := c.serveOf p
  let slot := k.fld 16 2
  let nkv := k.fld 23 1
  let n := k.fld 25 1
  let pos := k.fld 28 4
  let koff := k.fld 40 4
  let voff := k.fld 44 4
  match s? with
  | none => badOp 32
  | some s =>
    let f := c.fmt k p s.fmtCode
    let bytes := s.planeBytes f (n * nkv)
    let handle (i : Nat) : Option Nat := (s.localPage ((pos + i) / 256)).bind (fun j => tabFind (s.req slot).pages j)
    firstFail
      [ badAt
          [ (16384 ≤ slot, 17), (s.f 4 1 ≤ k.fld 18 1, 18), (s.f 5 1 ≤ k.fld 19 1, 19), (k.fld 20 1 ≠ 0, 20), (k.fld 21 1 ≠ 0, 21),
            (s.f 6 1 ≤ k.fld 22 1, 22), (nkv = 0 || s.f 6 1 < k.fld 22 1 + nkv, 23), (k.fld 24 1 ≠ 0, 24), (n = 0 || 9 < n, 25),
            (k.fld 26 1 ≠ 0, 26), (k.fld 27 1 ≠ 0, 27), (!(match s.decodeEntry slot with
              | some e => e.pos ≤ pos && pos + n ≤ e.pos + e.count
              | none => false), 28), (s.plan.isNone || k.fld 32 4 ≠ s.round, 32) ],
        (k.firstSet 36 4).bind badOp,
        badAt [ (koff % 64 ≠ 0, 40), (voff % 64 ≠ 0, 44) ],
        (k.firstSet 48 16).bind badOp,
        failIf (!c.hasFormats p) 13 7,
        failIf (2 ^ 23 < koff + bytes || 2 ^ 23 < voff + bytes) 1 0,
        failIf ((List.range n).any (fun i => match handle i with
          | some h => h / 2 ^ 30 ≠ 1 || handleStack h ≠ k.inst
          | none => true) || !(c.appendRuns p k s).all (fun r => c.inStack k.inst r && !c.tableHit r.1 r.2) || !c.segsOwned p k.inst koff bytes || !c.segsOwned p k.inst voff bytes) 2 0 ]

/-- Query rows of an ENG_ATTEND. -/
def Cmd.queryRows (k : Cmd) : Nat := k.fld 25 1 * k.fld 23 1 * k.fld 24 1

/-- Bytes of a partial record (R291). -/
def Serve.partBytes (s : Serve) : Nat := 16 + 4 * s.f 8 2

/-- Bytes of `n` rows of HEAD_DIM elements with their scales. -/
def Serve.rowsBytes (s : Serve) (f : Fmt) (n : Nat) : Nat := s.planeBytes f n

/-- The bytes ENG_ATTEND takes from Q_OFF and writes at OUT_OFF. -/
def Chip.attendBytes (c : Chip) (p : Nat) (k : Cmd) (s : Serve) : Nat × Nat :=
  let r := k.queryRows
  let q := c.fmt k p (k.fld 20 1 % 16)
  let o := c.fmt k p (k.fld 20 1 / 16)
  (if bitAt (k.fld 28 1) 3 then s.f 11 1 * r * s.partBytes else s.rowsBytes q r,
    if bitAt (k.fld 28 1) 2 then r * s.partBytes else s.rowsBytes o r)

/-- The checks of ENG_ATTEND (R291). -/
def Chip.checkAttend (c : Chip) (p : Nat) (k : Cmd) : Option (Nat × Nat) :=
  let s? : Option Serve := c.serveOf p
  let slot := k.fld 16 2
  let fq := k.fld 20 1 % 16
  let fo := k.fld 20 1 / 16
  let fp := k.fld 21 1
  match s? with
  | none => badOp 36
  | some s =>
    let e? : Option PlanEntry := s.decodeEntry slot
    let sc := ofF32 (k.fld 32 4)
    let b := c.attendBytes p k s
    let qo := k.fld 40 4
    let oo := k.fld 44 4
    firstFail
      [ badAt
          [ (e?.isNone, 16), (16384 ≤ slot, 17), (s.f 4 1 ≤ k.fld 18 1, 18), (s.f 5 1 ≤ k.fld 19 1, 19), (16 ≤ fp, 21), (s.f 6 1 ≤ k.fld 22 1, 22),
            (k.fld 23 1 = 0 || s.f 6 1 < k.fld 22 1 + k.fld 23 1, 23), (k.fld 24 1 = 0 || 16 < k.fld 24 1, 24),
            (k.fld 25 1 = 0 || 9 < k.fld 25 1 || e?.any (fun (e : PlanEntry) => e.count < k.fld 25 1), 25), (115 < k.sfld 26, 26), (115 < k.sfld 27, 27),
            (16 ≤ k.fld 28 1, 28), (badT (k.sfld 29), 29), (k.fld 30 1 ≠ 0, 30), (k.fld 31 1 ≠ 0, 31), (!sc.finite || sc.isZero || sc.neg, 32),
            (s.plan.isNone || k.fld 36 4 ≠ s.round, 36), (qo % 64 ≠ 0, 40), (oo % 64 ≠ 0, 44), (e?.any (fun (e : PlanEntry) => e.pos ≠ k.fld 48 4), 48) ],
        (k.firstSet 52 12).bind badOp,
        failIf (!c.hasFormats p) 13 7,
        badAt
          [ (!arrayOperand fq || !c.fmtUsable k p fq || !arrayOutput fo || fo = 11 || !c.fmtUsable k p fo, 20), (!arrayOperand fp || !c.fmtUsable k p fp, 21) ],
        failIf (2 ^ 23 < qo + b.1 || 2 ^ 23 < oo + b.2) 1 0,
        failIf (!c.segsOwned p k.inst oo b.2 || (c.attendEngines p k).any (fun s => !c.segsOwned p s qo b.1) ||
          (!bitAt (k.fld 28 1) 3 && (s.req (slot % 16384)).pages.any (fun e => e.2 / 2 ^ 30 = 1 &&
            !(c.attendRuns p k s e.2).all (c.inStack (handleStack e.2))))) 2 0 ]

/-! ### Round commands -/

/-- Local memory a round command names: its own checks of address and ownership. -/
def Chip.addrCheck (c : Chip) (p a n : Nat) (write : Bool) (off : Nat) : Option (Nat × Nat) :=
  firstFail
    [ failIf (2 ^ 44 ≤ a) 5 off, failIf (c.region a n).isNone 1 0, failIf (isWideAddr a || !c.partMay p a n write) 2 0 ]
where
  /-- A wide buffer is reached by no round command (R128). -/
  isWideAddr (a : Nat) : Bool := 0x20800000000 ≤ a && a < 0x2080C000000

/-- The lowest byte offset of a serving context that breaks its layout (R283), plus 64. -/
def Chip.serveCtxBad (c : Chip) (k : Cmd) (p : Nat) (b : List Byte) : Option (Nat × Nat) :=
  let s : Serve := { ctx := b }
  let f := s.f
  let code := s.fmtCode
  let fm := c.fmt k p code
  let w := c.poolWindow p s
  let halveBad := (List.range 8).any (fun i => let h := f 52 4 / 16 ^ i % 16; h = 0 || i + 1 < h)
  let clash := c.serve.parts.any (fun e => e.1 ≠ p && overlap (f 0 2) (f 2 2) (e.2.f 0 2) (e.2.f 2 2))
  let fit := w.enable && f 24 4 + f 20 4 * (s.setBytes fm / 4096) ≤ w.size
  let tail (lo n : Nat) : List (Bool × Nat) := (List.range n).map (fun i => (decide (f (lo + i) 1 ≠ 0), 64 + lo + i))
  badAt
    (([ (16383 < f 0 2 || clash, 64), (f 2 2 = 0 || 16384 < f 0 2 + f 2 2, 66), (f 4 1 = 0 || 64 < f 4 1, 68), (f 5 1 = 0 || 16 < f 5 1, 69),
       (f 6 1 = 0 || 64 < f 6 1, 70), (16 ≤ f 7 1 || !arrayOperand code || !c.fmtUsable k p code, 71), (f 8 2 < 32 || 256 < f 8 2 || f 8 2 % 32 ≠ 0, 72),
       (3 < f 10 1, 74), (f 11 1 = 0 || 64 < f 11 1, 75), (f 11 1 ≤ f 12 2, 76), (f 14 2 < 256 || 4096 < f 14 2 || f 14 2 % 256 ≠ 0, 78),
       (f 16 4 < 256 || 65536 < f 16 4, 80), (2 ^ 26 < f 20 4 || !fit, 84), (2 ^ 30 < f 28 4, 92), (f 32 8 % 4096 ≠ 0 || 2 ^ 44 ≤ f 32 8, 96),
       (f 40 8 % 64 ≠ 0 || 0xD800000000 ≤ f 40 8, 104), (f 48 4 = 0 || 32768 < f 48 4, 112), (halveBad, 116), (f 56 2 = 0 || 4096 < f 56 2, 120),
       (f 58 2 = 0, 122) ] : List (Bool × Nat)) ++ tail 60 4 ++ [ (decide (2 ^ 44 ≤ f 64 8), 128) ] ++ tail 72 56)

/-- The checks of SERVE_CFG (R283). -/
def Chip.checkServeCfg (c : Chip) (x : Ctx) (p : Nat) (k : Cmd) : Option (Nat × Nat) :=
  let b := c.rdBytes x (k.fld 24 8) 128
  let s : Serve := { ctx := b }
  let ddr := s.f 28 4 * s.setBytes (c.fmt k p s.fmtCode)
  let w := c.poolWindow p s
  firstFail
    [ (k.firstSet 16 8).bind badOp, (k.firstSet 32 32).bind badOp,
      c.ctxCheck x k 128,
      failIf ((c.serveOf p).any (fun (o : Serve) => o.reqs.any (fun q => q.2.state ≠ .free))) 5 16,
      failIf (!c.hasFormats p) 13 7,
      c.serveCtxBad k p b,
      failIf ((c.region s.tables.1 s.tables.2).isNone || (ddr ≠ 0 && (match c.region (s.f 32 8) ddr with
        | some .ddr => false
        | _ => true)) || (c.region (s.f 64 8) 8192).isNone) 1 0,
      failIf (!c.partOwns p s.tables.1 s.tables.2 true || (ddr ≠ 0 && !c.partMay p (s.f 32 8) ddr true) || !c.partMay p (s.f 64 8) 8192 false ||
        (s.pool w (c.fmt k p s.fmtCode)).any (fun r => !c.partOwns p r.1 r.2 true)) 2 0 ]

/-- The slot a round command names lies in the partition's range (R292). -/
def Serve.hasSlot (s : Serve) (slot : Nat) : Bool := s.f 0 2 ≤ slot && slot < s.f 0 2 + s.f 2 2

/-- The weight table a command uses: the generation it bound at its start (R53, R298). -/
def Chip.weights (c : Chip) (k : Cmd) : Option Image := c.imageFor k (tableKey 8 16 0)

/-- The entry of a customer in a weight table (R303). -/
def weightEntry (im : Option Image) (cust : Nat) : List Byte := im.elim [] (fun im => im.entry 8 cust)

/-- A weight entry is VALID. -/
def weightValid (e : List Byte) : Bool := bitAt (ctxFld e 7 1) 0

/-- The lowest byte offset of a request descriptor that breaks its ranges (R292), plus 64. -/
def reqDescBad (s : Serve) (b : List Byte) : Option (Nat × Nat) :=
  let f := ctxFld b
  let total := f 0 4 + f 4 4
  let ent := f 20 4
  let head : List (Bool × Nat) :=
    [ (f 0 4 = 0 || 2 ^ 23 ≤ f 0 4, 64), (f 4 4 = 0 || 2 ^ 23 < total || s.f 48 4 * s.f 11 1 < ceilDiv total 256, 68), (4096 ≤ f 8 2, 73), (16 ≤ f 10 1, 74),
       (8 < f 11 1, 75), (bitField (f 12 2) 14 10 ≠ 0, 77), (bitField (f 16 4) 30 20 ≠ 0, 82),
       (ent < 64 || 65536 < ent || 2 ^ Nat.log2 ent ≠ ent, 84), (f 24 8 % 64 ≠ 0, 88), (f 32 8 % 4 ≠ 0, 96) ]
  badAt (head ++ (List.range 24).map (fun i => (decide (f (40 + i) 1 ≠ 0), 104 + i)))

/-- The checks of REQ_JOIN (R292); the descriptor is read once, here, and the command acts on those bytes. -/
def Chip.checkJoin (c : Chip) (x : Ctx) (p : Nat) (k : Cmd) : Option (Nat × Nat) :=
  let slot := k.fld 16 2
  let b := c.rdBytes x (k.fld 24 8) 64
  match c.serveOf p with
  | none => some (2, 0)
  | some s =>
    firstFail
      [ (k.firstSet 18 6).bind badOp, (k.firstSet 32 32).bind badOp,
        c.addrCheck p (k.fld 24 8) 64 false 24,
        c.runFail x (c.cmdPart k) (k.fld 24 8) 64,
        reqDescBad s b,
        failIf (!s.hasSlot slot) 2 0,
        failIf ((s.req slot).state ≠ .free || !weightValid (weightEntry (c.weights k) (ctxFld b 8 2 % 4096))) 5 16 ]

/-- The checks of REQ_LEAVE (R293). -/
def Chip.checkLeave (c : Chip) (p : Nat) (k : Cmd) : Option (Nat × Nat) :=
  match c.serveOf p with
  | none => some (2, 0)
  | some s =>
    firstFail [ (k.firstSet 18 46).bind badOp, failIf (!s.hasSlot (k.fld 16 2)) 2 0, failIf ((s.req (k.fld 16 2)).state = .free) 5 16 ]

/-- The checks of SPEC_ENABLE (R301). -/
def Chip.checkSpec (c : Chip) (p : Nat) (k : Cmd) : Option (Nat × Nat) :=
  match c.serveOf p with
  | none => some (2, 0)
  | some s =>
    firstFail
      [ failIf (8 < k.fld 18 1) 5 18, (k.firstSet 19 45).bind badOp, failIf (!s.hasSlot (k.fld 16 2)) 2 0, failIf ((s.req (k.fld 16 2)).state = .free) 5 16 ]

/-- The checks of ROUND_BEGIN (R294). -/
def Chip.checkRoundBegin (c : Chip) (p : Nat) (k : Cmd) : Option (Nat × Nat) :=
  match c.serveOf p with
  | none => badOp 16
  | some s =>
    firstFail
      [ failIf (s.plan.isSome || k.fld 16 2 = 0 || 16384 < k.fld 16 2) 5 16, (k.firstSet 18 2).bind badOp,
        failIf (k.fld 20 4 ≠ s.round) 5 20, (k.firstSet 32 32).bind badOp,
        c.addrCheck p (k.fld 24 8) (64 + 32 * k.fld 16 2) true 24 ]

/-- The checks of ROUND_COMMIT (R297). -/
def Chip.checkRoundCommit (c : Chip) (p : Nat) (k : Cmd) : Option (Nat × Nat) :=
  match c.serveOf p with
  | none => badOp 16
  | some s =>
    let n := (s.plan.getD []).length
    firstFail
      [ (k.firstSet 16 4).bind badOp, failIf s.plan.isNone 5 16, failIf (k.fld 20 4 ≠ s.round) 5 20, (k.firstSet 32 32).bind badOp,
        if n = 0 then none else c.addrCheck p (k.fld 24 8) (128 * n) false 24 ]

end Sys2Proof.Machine
end

