-- ==== Sys2Proof/Machine/ChecksTrain.lean ====
section
/-! DEFINITION. The refusal tables of the training commands (R192-R197, R199-R207, R211, R215). -/

namespace Sys2Proof.Machine

/-! ### Backward products (R193-R197) -/

/-- An operand of a packed training command: rows at a pitch rounded up to 64 bytes, its scale plane after them (R193). -/
structure Packed where
  fmt : Fmt
  base : Nat
  rows : Nat
  len : Nat
deriving DecidableEq, Repr

/-- The row pitch. -/
def Packed.pitch (q : Packed) : Nat := 64 * ceilDiv (q.fmt.rowBytes q.len) 64

/-- The first byte of the scale plane. -/
def Packed.scales (q : Packed) : Nat := q.base + q.rows * q.pitch

/-- The byte after the operand. -/
def Packed.last (q : Packed) : Nat := q.scales + q.rows * q.fmt.scaleBytes q.len

/-- The runs of bytes of the operand. -/
def Packed.runs (q : Packed) : List (Nat × Nat) :=
  (List.range q.rows).map (fun r => (q.base + r * q.pitch, q.fmt.rowBytes q.len)) ++
    (if q.fmt.isMx then [(q.scales, q.rows * q.fmt.scaleBytes q.len)] else [])

/-- The exact value of element `i` of row `r`. -/
def Packed.val (q : Packed) (rd : Nat → Byte) (r i : Nat) : Val :=
  rowElem q.fmt rd (q.base + r * q.pitch) (q.scales + r * q.fmt.scaleBytes q.len) i

/-- The operands of BWD_FUSED in the store of its cell: W, G, X, dX (R193). -/
def Chip.bwdOperands (c : Chip) (p : Nat) (k : Cmd) (base : Nat) : Packed × Packed × Packed × Packed :=
  let m := k.fld 27 1
  let kt := k.fld 28 2
  let n := k.fld 30 2
  ({ fmt := c.fmt k p (k.fld 17 1 % 16), base := base + k.fld 32 4, rows := m, len := kt },
   { fmt := c.fmt k p (k.fld 17 1 / 16), base := base + k.fld 36 4, rows := n, len := m },
   { fmt := c.fmt k p (k.fld 18 1 % 16), base := base + k.fld 40 4, rows := n, len := kt },
   { fmt := c.fmt k p (k.fld 18 1 / 16), base := base + k.fld 44 4, rows := n, len := kt })

/-- What a continuation of a BWD_FUSED must share with the command that kept the state (R194). -/
def Cmd.bwdShape (k : Cmd) : List Nat :=
  [0x18, k.fld 27 1, k.fld 28 2, k.fld 30 2, k.fld 17 1, k.fld 18 1, k.fld 19 1, k.fld 20 1] ++ (List.range 5).map (fun i => k.fld (22 + i) 1)

/-- The checks of BWD_FUSED (R196, R93). `teacher` says the partition is the T_PART of an open ring.
The format of an unused X is not looked at (log 104). -/
def Chip.checkBwd (c : Chip) (x : Ctx) (p : Nat) (k : Cmd) (teacher : Bool) : Option (Nat × Nat) :=
  let mode := k.fld 16 1
  let dw := bitAt mode 0
  let u := k.inst
  let wa := x.fuse.width u false 0
  let wb := x.fuse.width u true 0
  let m := k.fld 27 1
  let kt := k.fld 28 2
  let n := k.fld 30 2
  let (w, g, xo, dx) := c.bwdOperands p k 0
  let code (off sh : Nat) : Nat := k.fld off 1 / sh % 16
  let operand (cd : Nat) : Bool := arrayOperand cd && c.fmtUsable k p cd
  let output (cd : Nat) : Bool := arrayOutput cd && cd ≠ 11 && c.fmtUsable k p cd
  firstFail
    [ failIf (dw && teacher) 2 0,
      badAt
        [ (8 ≤ mode, 16), (16 ≤ k.fld 19 1, 19), (115 < k.sfld 20, 20), (115 < k.sfld 21, 21),
          (badT (k.sfld 22), 22), (badT (k.sfld 23), 23), (badT (k.sfld 24), 24), (badT (k.sfld 25), 25), (badT (k.sfld 26), 26),
          (m = 0 || 128 < m, 27), (kt = 0 || (if dw then min wa wb else wa + wb) < kt, 28), (n = 0 || 2048 < n, 30),
          (k.fld 32 4 % 64 ≠ 0, 32), (k.fld 36 4 % 64 ≠ 0, 36), (dw && k.fld 40 4 % 64 ≠ 0, 40), (k.fld 44 4 % 64 ≠ 0, 44),
          (dw && (k.fld 48 4 % 512 ≠ 0 || 0x200000 < k.fld 48 4 + 512 * (m - 1) + 4 * kt), 48),
          ((k.firstSet 52 12).isSome, (k.firstSet 52 12).getD 52) ],
      failIf (!c.hasFormats p) 13 7,
      badAt
        [ (!operand (code 17 1) || !operand (code 17 16), 17), ((dw && !operand (code 18 1)) || !output (code 18 16), 18) ],
      failIf ((w.fmt.isMx && kt % 32 ≠ 0) || (g.fmt.isMx && m % 32 ≠ 0) || (dw && xo.fmt.isMx && kt % 32 ≠ 0) || (dx.fmt.isMx && kt % 32 ≠ 0)) 6 0,
      failIf (0x1000000 < w.last || 0x1000000 < g.last || (dw && 0x1000000 < xo.last) || 0x1000000 < dx.last) 1 0,
      failIf (bitAt mode 2 && c.keepLostOn p k) 10 0,
      failIf (bitAt mode 2 && !(match tabFind c.keeps u with
        | some kp => kp.shape = k.bwdShape
        | none => false)) 5 19 ]

/-- A command with one field of its descriptor cleared. -/
def Cmd.clearFld (k : Cmd) (off n : Nat) : Cmd := { k with desc := BitVec.ofNat 512 (k.desc.toNat - k.fld off n * 2 ^ (8 * off)) }

/-- The checks of MM_GRAD (R197): its own fields, those of R87, then the region of C in the buffer. -/
def Chip.checkMmGrad (c : Chip) (x : Ctx) (p : Nat) (k : Cmd) (teacher : Bool) : Option (Nat × Nat) :=
  firstFail
    [ failIf teacher 2 0,
      badAt [ (bitField (k.fld 16 1) 5 4 ≠ 0, 16), (k.fld 18 1 % 16 ≠ 0, 18), (k.fld 40 4 % 4 ≠ 0, 40) ],
      c.checkMm x p (k.clearFld 40 4),
      failIf (0x200000 < k.fld 40 4 + 64 * k.fld 60 2 * (k.fld 24 2 - 1) + 4 * k.fld 22 2) 1 0 ]

/-! ### Vector commands (R199-R203) -/

/-- A field of a curve entry. -/
def curveFld (im : Image) (i off n : Nat) : Nat := leNat (((im.entry 32 i).drop off).take n)

/-- Values rise strictly along a range of entries of a curve. -/
def curveRises (im : Image) (lo n : Nat) : Bool :=
  (List.range (n - 1)).all (fun i => (ofF32 (curveFld im (lo + i) 0 4)).lt (ofF32 (curveFld im (lo + i + 1) 0 4)))

/-- A forward curve is usable (R199). -/
def forwardOk (im : Image) (inst : Nat) : Bool :=
  let dkind := curveFld im 0 25 1
  ofF32 (curveFld im 0 0 4) = .inf true && curveRises im 0 256 && dkind ≤ 4 && (dkind ≠ 0 || inst % 2 = 0)

/-- A derivative curve is usable (R199). -/
def derivativeOk (im : Image) : Bool :=
  (List.range 16).all (fun r => ofF32 (curveFld im (16 * r) 0 4) = .inf true && curveRises im (16 * r) 16)

/-- A vector operand packed in one row. -/
def vecOperand (f : Fmt) (base len : Nat) : Packed := { fmt := f, base := base, rows := 1, len := len }

/-- The checks of VEC_ACT (`d` false) and VEC_DACT (R199, R202). -/
def Chip.checkVecAct (c : Chip) (p : Nat) (k : Cmd) (d : Bool) : Option (Nat × Nat) :=
  let cv := k.fld 16 1
  let inst := cv % 32
  let seg := if d then false else bitAt cv 7
  let fin := k.fld 17 1 % 16
  let fout := k.fld 17 1 / 16
  let fg := k.fld 18 1 % 16
  let len := k.fld 24 4
  let i := vecOperand (c.fmt k p fin) (k.fld 28 4) len
  let o := vecOperand (c.fmt k p fout) (k.fld 32 4) len
  let g := vecOperand (c.fmt k p fg) (k.fld 40 4) len
  let ok (cd : Nat) : Bool := dmaFormat cd && c.fmtUsable k p cd
  let im := c.active (tableKey 2 p inst)
  let der := c.active (tableKey 2 p (inst + 1))
  let dkind := match im with
    | some q => curveFld q 0 25 1
    | none => 0
  let needSeg := if d then dkind = 0 else seg
  let mx := i.fmt.isMx || o.fmt.isMx || (d && g.fmt.isMx)
  firstFail
    [ badAt
        [ (bitField cv 6 5 ≠ 0 || (d && bitAt cv 7), 16), (if d then 16 ≤ k.fld 18 1 else k.fld 18 1 ≠ 0, 18), (badT (k.sfld 19), 19),
          (badT (k.sfld 20), 20), (if d then badT (k.sfld 21) else k.fld 21 1 ≠ 0, 21), (k.fld 22 1 ≠ 0, 22), (k.fld 23 1 ≠ 0, 23),
          (len = 0 || 4194304 < len || (mx && len % 32 ≠ 0), 24),
          (!d && k.fld 40 4 ≠ 0, 40), ((k.firstSet 44 20).isSome, (k.firstSet 44 20).getD 44) ],
      failIf (!c.hasFormats p) 13 7,
      failIf (match im with
        | some q => !forwardOk q inst || (d && dkind = 4)
        | none => true) 5 16,
      failIf (d && dkind = 0 && (match der with
        | some q => !derivativeOk q
        | none => true)) 5 16,
      badAt [ (!ok fin || !ok fout, 17), (d && !ok fg, 18) ],
      failIf (0x1000000 < i.last || 0x1000000 < o.last || (d && 0x1000000 < g.last) ||
        (needSeg && 0x1000000 < k.fld 36 4 + (len + 1) / 2)) 1 0 ]

/-- A float format of R59 for elements of a vector: not PB8, INT32 or FP32X, and not an integer element. -/
def floatFormat (code : Nat) : Bool := code ≤ 8 || 13 ≤ code

/-- The checks of VEC_ARGMAX (R203). -/
def Chip.checkArgmax (c : Chip) (p : Nat) (k : Cmd) : Option (Nat × Nat) :=
  let f := k.fld 17 1 % 16
  let len := k.fld 24 4
  let o := vecOperand (c.fmt k p f) (k.fld 28 4) len
  firstFail
    [ badAt
        [ (4 ≤ k.fld 16 1, 16), (16 ≤ k.fld 17 1, 17), ((k.firstSet 18 6).isSome, (k.firstSet 18 6).getD 18), (len = 0 || 4194304 < len, 24),
          (k.fld 38 2 ≠ 0, 38), (k.fld 40 4 % 16 ≠ 0, 40), ((k.firstSet 44 20).isSome, (k.firstSet 44 20).getD 44) ],
      failIf (!c.hasFormats p) 13 7,
      failIf (!(floatFormat f && c.fmtUsable k p f)) 5 17,
      failIf (0x1000000 < o.last || 0x1000000 < k.fld 40 4 + 16) 1 0 ]

/-! ### Optimiser programs and OPT_UPDATE (R204, R206, R207) -/

/-- One instruction of an optimiser program (R204). -/
structure OptInstr where
  op : Nat
  d : Nat
  a : Nat
  b : Nat
  cc : Nat
  imm : Nat
  clear : Bool
deriving DecidableEq, Repr

/-- Entry `i` of a program read as an instruction. -/
def optInstr (im : Image) (i : Nat) : OptInstr :=
  let e := im.entry 16 i
  let f (o n : Nat) : Nat := leNat ((e.drop o).take n)
  { op := f 0 1, d := f 1 1, a := f 2 1, b := f 3 1, cc := f 4 1, imm := f 8 4, clear := f 5 3 = 0 && f 12 4 = 0 }

/-- The instructions of a program. -/
def optProgram (im : Image) : List OptInstr := (List.range (leNat ((im.entry 16 0).take 1))).map (fun i => optInstr im (i + 1))

/-- STATES of a program. -/
def optStates (im : Image) : Nat := leNat (((im.entry 16 0).drop 1).take 1)

/-- A program is usable (R204). -/
def optUsable (im : Image) : Bool :=
  let n := leNat ((im.entry 16 0).take 1)
  let st := optStates im
  let is := optProgram im
  let times (op : Nat) : Nat := (is.filter (fun i => i.op = op)).length
  1 ≤ n && n + 1 ≤ im.count && st ≤ 2 && (im.entry 16 0).drop 2 = List.replicate 14 0 &&
    is.all (fun i => (i.op ≤ 0x0B || (0x10 ≤ i.op && i.op ≤ 0x12)) && i.clear && i.d ≤ 31 && i.a ≤ 31 && i.b ≤ 31 && i.cc ≤ 31) &&
    (is.getLast?.map (fun i => i.op)) = some 0 && times 0 = 1 && times 0x12 = 1 && times 0x10 = (if 1 ≤ st then 1 else 0) &&
    times 0x11 = (if st = 2 then 1 else 0)

/-- A tensor update context (R206). -/
structure TensorCtx where
  tensor : Nat
  masterFmt : Nat
  wcFmt : Nat
  tWc : Int
  base : Nat
  len : Nat
  g : Nat
  master : Nat
  tail : Nat
  m : Nat
  v : Nat
  wc : Nat
  wcScale : Nat
  clear : Bool
deriving DecidableEq, Repr

/-- The context that bytes hold. -/
def TensorCtx.ofBytes (b : List Byte) : TensorCtx :=
  let f := ctxFld b
  { tensor := f 0 4, masterFmt := f 4 1, wcFmt := f 5 1, tWc := signedOf 8 (f 6 1), base := f 8 8, len := f 16 4, g := f 24 8
    master := f 32 8, tail := f 40 8, m := f 48 8, v := f 56 8, wc := f 64 8, wcScale := f 72 8
    clear := f 7 1 = 0 && f 20 4 = 0 && f 80 48 = 0 }

/-- The context at an address. -/
def Chip.tensorCtx (c : Chip) (x : Ctx) (a : Nat) : TensorCtx := TensorCtx.ofBytes (c.rdBytes x a 128)

/-- The runs of memory of an update: whether each is written, its address and its bytes (R206, R208). -/
def TensorCtx.runs (t : TensorCtx) (wc : Fmt) (states off n : Nat) : List (Bool × Nat × Nat) :=
  [(false, t.g + 4 * off, 4 * n), (true, t.master + 4 * off, 4 * n), (true, t.wc + wc.rowBytes off, wc.rowBytes n)] ++
    (if t.masterFmt = 0xC then [(true, t.tail + 2 * off, 2 * n)] else []) ++
    (if 1 ≤ states then [(true, t.m + 4 * off, 4 * n)] else []) ++ (if states = 2 then [(true, t.v + 4 * off, 4 * n)] else []) ++
    (if wc.isMx then [(true, t.wcScale + off / 32, ceilDiv n 32)] else [])

/-- An address in the wide buffer of another cell, which a cell's own DMA port does not reach (R128). -/
def Chip.farWide (c : Chip) (cell a : Nat) : Bool :=
  match c.region a 1 with
  | some (.wide n) => n ≠ cell
  | _ => false

/-- The checks of OPT_UPDATE (R207, R217), after its wait for the gate. `gateStep` is the gate's step, `gateOk` its being
in a resolved state. -/
def Chip.checkOpt (c : Chip) (x : Ctx) (p : Nat) (k : Cmd) (teacher gateOk : Bool) (gateStep : Nat) : Option (Nat × Nat) :=
  let off := k.fld 24 4
  let n := k.fld 28 4
  let ta := k.fld 32 8
  let im := c.active (tableKey 4 p (k.fld 16 1 % 16))
  let t := c.tensorCtx x ta
  let wc := c.fmt k p (t.wcFmt % 16)
  let st := match im with
    | some q => optStates q
    | none => 0
  let runs := t.runs wc st off n
  let stage := k.fld 56 4
  firstFail
    [ failIf teacher 2 0,
      failIf (!gateOk) 5 16,
      badAt
        [ (16 ≤ k.fld 16 1, 16), (2 ≤ k.fld 17 1, 17), (4096 ≤ k.fld 18 2, 19), (off % 32 ≠ 0, 24), (n = 0 || 65536 < n, 28),
          (ta % 64 ≠ 0, 32), (stage % 64 ≠ 0, 56), ((k.firstSet 60 4).isSome, (k.firstSet 60 4).getD 60) ],
      failIf (c.region ta 128).isNone 1 0,
      failIf (!c.partMay p ta 128 false || c.farWide k.inst ta) 2 0,
      c.runFail x (c.cmdPart k) ta 128,
      failIf (t.len < off + n || (n % 32 ≠ 0 && off + n ≠ t.len)) 5 28,
      failIf (match im with
        | some q => !optUsable q
        | none => false) 5 16,
      failIf (!c.hasFormats p) 13 7,
      failIf (!t.clear || !(t.masterFmt = 0 || t.masterFmt = 0xC) || 15 < t.wcFmt || !(arrayOperand t.wcFmt && c.fmtUsable k p t.wcFmt) ||
        badT t.tWc || t.base % 65536 ≠ 0 || 2 ^ 48 ≤ t.base || (t.masterFmt = 0 && t.tail ≠ 0)) 5 32,
      failIf (runs.any (fun r => (c.region r.2.1 r.2.2).isNone) || 0x1000000 < stage + 64 * ceilDiv (17 * n) 64) 1 0,
      failIf (runs.any (fun r => !c.partMay p r.2.1 r.2.2 r.1 || c.farWide k.inst r.2.1)) 2 0,
      failIf im.isNone 13 7,
      failIf (k.fld 20 4 ≠ gateStep) 5 20 ]

/-! ### The step gate (R211, R215) -/

/-- The checks of GRAD_SUMSQ (R215). `open_` says the gate collects and no seal has started. -/
def Chip.checkSumsq (c : Chip) (p : Nat) (k : Cmd) (teacher open_ : Bool) : Option (Nat × Nat) :=
  let n := k.fld 24 4
  let a := k.fld 32 8
  firstFail
    [ failIf teacher 2 0,
      badAt
        [ (2 ≤ k.fld 16 1, 16), ((k.firstSet 17 7).isSome, (k.firstSet 17 7).getD 17),
          (!bitAt (k.fld 16 1) 0 && n % 65536 ≠ 0, 24), ((k.firstSet 28 4).isSome, (k.firstSet 28 4).getD 28),
          (k.fld 40 8 % 65536 ≠ 0, 40), ((k.firstSet 48 16).isSome, (k.firstSet 48 16).getD 48) ],
      failIf (c.region a (4 * n)).isNone 1 0,
      failIf (!c.partMay p a (4 * n) false || c.farWide k.inst a) 2 0,
      failIf (!open_) 5 16 ]

/-- The lowest byte offset of a gate context that breaks its layout (R211), plus 64. -/
def gateCtxBad (b : List Byte) : Option (Nat × Nat) :=
  let f := ctxFld b
  let s (off : Nat) : Int := signedOf 8 (f off 1)
  let mx := ofF32 (f 0 4)
  badAt
    [ (!(Val.zero.lt mx), 64), (f 4 4 = 0, 68), (badT (s 8) || s 8 < s 9 || s 10 < s 8, 72), (badT (s 9), 73), (badT (s 10), 74),
      (2 ≤ f 11 1, 75), (256 ≤ f 14 2, 78), (f 16 2 = 0, 80), (f 18 2 = 0, 82), (f 20 1 ≠ 0, 84), (f 21 1 ≠ 0, 85), (f 22 1 ≠ 0, 86),
      (f 23 1 ≠ 0, 87), (f 24 8 % 64 ≠ 0, 88), (((List.range 32).find? (fun i => f (32 + i) 1 ≠ 0)).isSome, 96 + ((List.range 32).find? (fun i => f (32 + i) 1 ≠ 0)).getD 0) ]

/-- The checks of GATE_CFG (R211). `mayCfg` says the gate is UNCONFIGURED or IDLE. -/
def Chip.checkGateCfg (c : Chip) (x : Ctx) (k : Cmd) (teacher mayCfg : Bool) : Option (Nat × Nat) :=
  firstFail
    [ failIf teacher 2 0,
      failIf (!mayCfg) 5 16,
      (k.firstSet 16 8).bind badOp, (k.firstSet 32 32).bind badOp,
      c.ctxCheck x k 64,
      gateCtxBad (c.rdBytes x (k.fld 24 8) 64) ]

/-- The checks of GATE_OPEN, GATE_SEAL and GATE_CLOSE: no operands (R192), a state that lists the command (R210). -/
def Cmd.checkGate (k : Cmd) (teacher mayRun : Bool) : Option (Nat × Nat) :=
  firstFail [ failIf teacher 2 0, failIf (!mayRun) 5 16, (k.firstSet 16 48).bind badOp ]

end Sys2Proof.Machine
end

