-- ==== Sys2Proof/Machine/Checks.lean ====
section
/-! DEFINITION. Every check a command meets in the instant it could start, in the order of R36, and what a command uses
and waits for beyond the rules of R37. -/

namespace Sys2Proof.Machine

/-- The runs of an array command on a stack engine lie in segments of the partition (R279); other units pass. -/
def Chip.engRunsOk (c : Chip) (p : Nat) (k : Cmd) (runs : List (Nat × Nat)) : Option (Nat × Nat) :=
  failIf (k.tclass = 2 && !c.engRunsOwned p runs) 2 0

/-- A gate that OPT_UPDATE and GATE_CLOSE accept: its step is resolved (R210, R217). -/
def Gate.resolved (g : Gate) : Bool := g.state = .ready || g.state = .skipped || g.state = .abandoned

/-- The checks of the opcode's own refusal table (R36, item 6). -/
def Chip.checkOp (c : Chip) (x : Ctx) (k : Cmd) : Option (Nat × Nat) :=
  let p := (c.cmdPart k).getD 16
  let g : Gate := tabGet {} c.gates p
  let teacher := c.isTeacher p
  match k.opcode with
  | 0x00 => (k.firstSet 16 48).bind badOp
  | 0x01 => c.checkEventReset p k
  | 0x10 => firstFail [ c.checkMm x p k, c.engRunsOk p k (c.arrayRuns p k) ]
  | 0x11 => firstFail [ c.checkEw p k, c.engRunsOk p k (c.ewRuns p k) ]
  | 0x18 => c.checkBwd x p k teacher
  | 0x19 => c.checkMmGrad x p k teacher
  | 0x1A => c.checkVecAct p k false
  | 0x1B => c.checkVecAct p k true
  | 0x1C => c.checkArgmax p k
  | 0x1D => c.checkSumsq p k teacher (g.state = .collecting && g.sealAt.isNone)
  | 0x1E => c.checkOpt x p k teacher g.resolved g.step
  | 0x1F => c.checkGateCfg x k teacher (g.state = .unconfigured || g.state = .idle)
  | 0x20 => k.checkGate teacher (g.state = .idle)
  | 0x21 => k.checkGate teacher (g.state = .collecting)
  | 0x22 => k.checkGate teacher g.resolved
  | 0x40 => c.checkMove x p k teacher
  | 0x41 => k.checkGradZero
  | 0x42 => k.checkResidDrop
  | 0x50 => c.checkRingOpen x p k
  | 0x51 => c.checkRingReset p k
  | 0x52 => c.checkHead p k
  | 0x53 => c.checkHead p k
  | 0x54 => c.checkHead p k
  | 0x60 => c.checkEngMove x p k
  | 0x61 => c.checkAppend p k
  | 0x62 => c.checkAttend p k
  | 0x68 => c.checkServeCfg x p k
  | 0x69 => c.checkJoin x p k
  | 0x6A => c.checkLeave p k
  | 0x6B => c.checkRoundBegin p k
  | 0x6C => c.checkRoundCommit p k
  | 0x6D => c.checkSpec p k
  | 0x70 => c.checkGroupSet x p k
  | 0x71 => c.checkLaunch p k (g.state = .collecting)
  | 0x72 => c.checkGather p k
  | 0x73 => c.checkGroupFree p k
  | 0x80 => k.checkTableLoad
  | 0x81 => k.checkTableActivate
  | 0x90 => c.checkPartForm x k false
  | 0x91 => c.checkPartName k true
  | 0x92 => c.checkPartForm x k true
  | 0x93 => c.checkPartRegion k
  | 0x94 => c.checkPartName k false
  | 0x95 => (k.firstSet 16 48).bind badOp
  | 0x96 => c.checkProgBind p k
  | _ => none

/-- A cell command: target class 0x0, 0x1 or 0x4 (R321). -/
def Cmd.isCell (k : Cmd) : Bool := k.tclass = 0 || k.tclass = 1 || k.tclass = 4

/-- A generation is older than a minimum (R53). -/
def olderThan (g m : Nat) : Bool := serialNewer 32 m g

/-- A generation the queue's bound program requires is not active (R53, R324). -/
def Chip.requiredBad (c : Chip) (k : Cmd) : Bool :=
  match c.cmdPart k, (tabGet ({} : SQ) c.sqs k.queue).prog with
  | some p, some slot =>
    (match c.active (tableKey 0 p slot) with
    | none => false
    | some im =>
      let single (id r : Nat) : Bool := r ≠ 0 && (match c.active (tableKey id p 0) with
        | none => true
        | some a => olderThan a.gen r)
      let curves := (List.range 32).filterMap (fun i => c.active (tableKey 2 p i))
      single 1 (im.req.getD 0 0) || single 3 (im.req.getD 2 0) ||
        (im.req.getD 1 0 ≠ 0 && (curves.isEmpty || curves.any (fun a => olderThan a.gen (im.req.getD 1 0)))))
  | _, _ => false

/-- The checks of R36, in its order. -/
def Chip.checkStart (c : Chip) (x : Ctx) (k : Cmd) : Option (Nat × Nat) :=
  firstFail
    [ failIf (9 ≤ k.tclass) 4 0,
      failIf (!opcodeAllotted k.opcode k.tclass) 3 0,
      failIf (!c.maySubmit k) 2 0,
      failIf (classInstances k.tclass ≤ k.inst || c.outsidePart x k || c.targetLost x k) 2 0,
      failIf (k.fld 1 1 / 32 ≠ 0) 5 1,
      c.checkOp x k ]

/-- Every check of the instant a command could start; an engine share of 0 (R318) comes after those of R36. -/
def Chip.checkAll (c : Chip) (x : Ctx) (k : Cmd) : Option (Nat × Nat) := firstFail [ c.checkStart x k, failIf (c.noShare k) 2 0 ]

/-- A command that ends in that instant was not refused: it failed on what it read, found no format table (R58), or its partition has
no share of the engine (R318). Its signal entry is poisoned (R40). -/
def Chip.failsUnrefused (c : Chip) (x : Ctx) (k : Cmd) (st : Nat) : Bool :=
  st = 10 || st = 7 || st = 8 || st = 13 || (c.checkStart x k).isNone

/-- The instances of tables a command uses and binds at its start (R53). -/
def Chip.tablesUsed (c : Chip) (k : Cmd) : List Nat :=
  match c.cmdPart k with
  | none => []
  | some p =>
    let prog := if k.isCell then (match (tabGet ({} : SQ) c.sqs k.queue).prog with
      | some s => [tableKey 0 p s]
      | none => []) else []
    let op := k.opcode
    let one (t : Nat) (l : List Nat) : List Nat := if l.contains op then [tableKey t p 0] else []
    let curve := k.fld 16 1 % 32
    prog ++ one 1 [0x10, 0x11, 0x18, 0x19, 0x1A, 0x1B, 0x1C, 0x1E, 0x40, 0x52, 0x53, 0x54, 0x60, 0x61, 0x62, 0x68, 0x69, 0x6A, 0x6B, 0x6C, 0x6D] ++
      one 3 [0x50] ++ (if op = 0x69 || op = 0x6B then [tableKey 8 16 0] else []) ++
      (if op = 0x1A then [tableKey 2 p curve] else if op = 0x1B then [tableKey 2 p curve, tableKey 2 p (curve + 1)]
        else if op = 0x1E then [tableKey 4 p (k.fld 16 1 % 16)] else [])

/-! ### A load's image and its shadow (R50, R51) -/

/-- An image header (R50). -/
structure ImgHeader where
  id : Nat
  version : Nat
  inst : Nat
  gen : Nat
  count : Nat
  bytes : Nat
  crc : Nat
  req : List Nat
  rsvd : Bool
deriving DecidableEq, Repr

/-- The header read from the first 32 bytes of an image. -/
def imgHeader (b : List Byte) : ImgHeader :=
  let f (o n : Nat) : Nat := leNat ((b.drop o).take n)
  { id := f 0 1, version := f 1 1, inst := f 2 1, gen := f 4 4, count := f 8 4, bytes := f 12 2, crc := f 16 4
    req := [f 20 4, f 24 4, f 28 4], rsvd := f 3 1 ≠ 0 || f 14 2 ≠ 0 || (f 0 1 ≠ 0 && f 20 12 ≠ 0) }

/-- The instance a load in its shadow stage fills. -/
def Chip.loadKey (c : Chip) (k : Cmd) : Option Nat :=
  let h := imgHeader k.ctx
  (objInfo h.id).map (fun o => tableKey h.id (c.scopeOf k o) h.inst)

/-- A load that reached the ring earlier waits for the same instance (R51): loads are applied in their order. -/
def Chip.loadBehind (c : Chip) (k : Cmd) (key : Nat) : Bool :=
  c.cmds.any (fun j => j.id ≠ k.id && j.opcode = 0x80 && j.phase = .running && j.stage = 1 && j.startAt < k.startAt && c.loadKey j = some key)

/-- A load may read its image: its partition's HBM and DDR5 regulators let it, or that of its PCIe port (R319, R352), and memory answers
(R381). -/
def Chip.loadLets (c : Chip) (k : Cmd) : Bool :=
  match c.cmdPart k with
  | none => bitAt (k.fld 16 8) 63 || c.trafficLets none [(k.fld 16 8, k.fld 24 4)]
  | some p => if bitAt (k.fld 16 8) 63 then c.regLets p (3 + k.fn / 32) else c.dramLets p [(k.fld 16 8, k.fld 24 4)]

/-- The shadow that a load waits for can be taken (R51). -/
def Chip.shadowFree (c : Chip) (k : Cmd) : Bool :=
  match c.loadKey k with
  | none => true
  | some key =>
    let t := c.table key
    t.shadow ≠ .draining && t.shadow ≠ .loading && !c.loadBehind k key && c.loadLets k

/-! ### What a command reads before it starts, and its own waits -/

/-- The bytes of the context a command reads (R443), or of a request's descriptor (R292). -/
def Cmd.ctxBytes (k : Cmd) : Nat :=
  if [0x50, 0x68, 0x90, 0x92].contains k.opcode then 128 else if [0x1F, 0x69, 0x70].contains k.opcode then 64 else 0

/-- The bytes a command reads before it starts: its context, its tensor's (R207), or its delta set's header (R138). -/
def Cmd.startRuns (k : Cmd) : List (Nat × Nat) :=
  if k.ctxBytes ≠ 0 then [(k.fld 24 8, k.ctxBytes)]
  else if k.opcode = 0x1E then [(k.fld 32 8, 128)]
  else if (k.opcode = 0x40 || k.opcode = 0x60) && bitAt (k.fld 16 1) 1 then [(k.fld 56 8, 32)] else []

/-- Local addresses a command's operands and contexts name outside its own buffers: where it may touch HBM or DDR5 (R159, R160). -/
def Chip.touched (c : Chip) (x : Ctx) (k : Cmd) : List Nat :=
  let p := (c.cmdPart k).getD 16
  let gate : Gate := tabGet {} c.gates p
  let ctx := if k.ctxBytes ≠ 0 then [k.fld 24 8] else []
  ctx ++ (match k.opcode with
    | 0x1D => [k.fld 32 8]
    | 0x1E =>
      let t := c.tensorCtx x (k.fld 32 8)
      [k.fld 32 8, t.g, t.master, t.wc] ++ (if t.masterFmt = 0xC then [t.tail] else []) ++ [t.m, t.v, t.wcScale]
    | 0x22 => [gate.slotAddr]
    | 0x91 => if bitAt (k.fld 17 1) 0 then ((c.part? (k.fld 16 1)).elim [] (fun pt => pt.ranges true)).map Prod.fst else []
    | 0x61 => [0]
    | 0x62 => [0]
    | 0x40 => (if (c.moveSrc p k).host then [] else [(c.moveSrc p k).addr]) ++ (if (c.moveDst p k).host then [] else [(c.moveDst p k).addr]) ++ [k.fld 56 8]
    | 0x54 => (c.ringOf k).elim [] (fun (r : Ring) => [r.labelAddr, r.lossAddr])
    | 0x60 => [k.fld 32 8, k.fld 40 8, k.fld 56 8]
    | 0x6B => [k.fld 24 8] ++ (c.serveOf p).elim [] (fun (s : Serve) => [0, s.tables.1, s.f 64 8] ++ (if s.f 28 4 = 0 then [] else [s.f 32 8]))
    | 0x6A => (c.serveOf p).elim [] (fun (s : Serve) => [s.tables.1])
    | 0x6C => [k.fld 24 8] ++ (c.serveOf p).elim [] (fun (s : Serve) => [s.tables.1])
    | 0x71 => [k.fld 40 8, k.fld 48 8]
    | 0x72 => (List.range ((c.slotMine p (k.fld 16 1)).elim 1 (fun q => q.g))).map k.piece
    | 0x80 => [k.fld 16 8]
    | _ => [])

/-- A wait of the command's own, beyond R37: HBM or DDR5 not yet zeroed (R159, R160), what it reads before it starts held by a regulator or
the memory PLL (R319, R381), a PART_FORM's for a self-test of its pairs (R405), an OPT_UPDATE's for its gate (R217). -/
def Chip.opHeld (c : Chip) (x : Ctx) (k : Cmd) : Bool :=
  let gate : Gate := tabGet {} c.gates ((c.cmdPart k).getD 16)
  (k.opcode = 0x1E && (gate.state = .collecting || gate.state = .reducing)) ||
    (!c.ddrUp && (c.touched x k).any (fun a => 0x40000000000 ≤ a && a < 2 ^ 44)) ||
    (!c.hbmUp && !c.tiers.hbmFailed && (c.touched x k).any (fun a => a < 0xD800000000)) || !c.trafficLets (c.cmdPart k) k.startRuns ||
    (k.opcode = 0x90 && c.selftest.busy && !c.selftest.engine && bitAt (c.rdNat x (k.fld 24 8) 6) c.selftest.index)

end Sys2Proof.Machine
end

