-- ==== Sys2Proof/Machine/Lifecycle.lean ====
section
/-! DEFINITION. The life of a command (R36-R45, R317, R318, R324, R348): when it may start, its take, its refusal, its
signal or poison, its completion record, and the kills and discards of resets. Takes of waiting commands are made in the
instant a signal lets them (R44, R45). -/

namespace Sys2Proof.Machine

/-! ### The list of fetched commands -/

/-- A fetched command by its number. -/
def Chip.cmd? (c : Chip) (id : Nat) : Option Cmd := c.cmds.find? (fun k => k.id = id)

/-- A fetched command replaced. -/
def Chip.putCmd (c : Chip) (k : Cmd) : Chip := { c with cmds := c.cmds.map (fun j => if j.id = k.id then k else j) }

/-- A fetched command removed. -/
def Chip.dropCmd (c : Chip) (id : Nat) : Chip := { c with cmds := c.cmds.filter (fun j => j.id ≠ id) }

/-- A submission queue. -/
def Chip.sq (c : Chip) (key : Nat) : SQ := tabGet {} c.sqs key

/-- A submission queue replaced. -/
def Chip.putSq (c : Chip) (key : Nat) (q : SQ) : Chip := { c with sqs := tabSet c.sqs key q }

/-- A completion queue. -/
def Chip.cq (c : Chip) (key : Nat) : CQ := tabGet {} c.cqs key

/-- A completion queue replaced. -/
def Chip.putCq (c : Chip) (key : Nat) (q : CQ) : Chip := { c with cqs := tabSet c.cqs key q }

/-- An event entry. -/
def Chip.event (c : Chip) (i : Nat) : Event := tabGet {} c.events i

/-- An event entry replaced. -/
def Chip.putEvent (c : Chip) (i : Nat) (e : Event) : Chip := { c with events := tabSet c.events i e }

/-! ### When a command may start (R37) -/

/-- The commands fetched before a command from the same queue and not yet completed. -/
def Chip.earlier (c : Chip) (k : Cmd) : List Cmd := (c.cmds.takeWhile (fun j => j.id ≠ k.id)).filter (fun j => j.queue = k.queue)

/-- A TABLE_LOAD that waits for its shadow: it does not occupy the Tansy ring (R51). -/
def Cmd.waitsShadow (k : Cmd) : Bool := k.tclass = 7 && k.opcode = 0x80 && k.phase = .running && k.stage = 1

/-- The ordering rules of R37, the take left aside. -/
def Chip.orderOk (c : Chip) (k : Cmd) : Bool :=
  let es := c.earlier k
  es.all (fun j => !(j.phase = .waiting && j.target = k.target)) && !(k.flag 1 && !es.isEmpty) &&
    !(k.tclass = 7 && es.any (fun j => j.tclass = 7 && !j.waitsShadow)) && es.all (fun j => j.opcode ≠ 0x81)

/-- The page whose QUIESCE and READY govern a target class (R29, R365). -/
def Cmd.pages (k : Cmd) : List Page :=
  match k.tclass with
  | 0 => [{ blk := .meadow, inst := k.inst }]
  | 1 => [{ blk := .meadow, inst := 2 * k.inst }, { blk := .meadow, inst := 2 * k.inst + 1 }]
  | 2 => [{ blk := .cowslip, inst := k.inst }]
  | 3 => [{ blk := .teasel, inst := 0 }]
  | 4 => [{ blk := .cdma, inst := k.inst }]
  | 5 => [{ blk := .pcie, inst := k.inst }]
  | 6 => [{ blk := .coll, inst := 0 }]
  | 7 => [{ blk := .tansy, inst := 0 }]
  | 8 => [{ blk := .evt, inst := 0 }]
  | _ => []

/-- The pages that govern a command: a gate command's is its partition's GATE page (R192, R219), a round command's its
partition's SERVE page (R280), else its target's. -/
def Chip.pagesOf (c : Chip) (k : Cmd) : List Page :=
  match c.cmdPart k with
  | some p =>
    if k.tclass = 0 && 0x1D ≤ k.opcode && k.opcode ≤ 0x22 then [{ blk := .gate, inst := p }]
    else if k.isRound then [{ blk := .serve, inst := p }] else k.pages
  | none => k.pages

/-- A queue is at a cheap point (R324): a bound program, no running cell command, and none completed since PROG_BIND or the
last one CHEAP. A head command drives source cells, and counts as a cell command (R189). -/
def Chip.atCheapPoint (c : Chip) (q : Nat) : Bool :=
  let s := c.sq q
  s.prog.isSome && s.lastCheap && !c.cmds.any (fun k => k.queue = q && (k.isCell || k.isHead) && k.phase ≠ .waiting)

/-- A command marked "gate": it acts on the step gate and runs whatever the partition's state (R192, R219, R321). -/
def Cmd.isGate (k : Cmd) : Bool := k.tclass = 0 && 0x1D ≤ k.opcode && k.opcode ≤ 0x22

/-- A command of a cell's vector unit (R202, R203, R209, R215). -/
def Cmd.isVector (k : Cmd) : Bool := k.tclass = 0 && 0x1A ≤ k.opcode && k.opcode ≤ 0x1E

/-- The partition's state lets the command start (R310, R321, R325, R331). -/
def Chip.partLets (c : Chip) (k : Cmd) : Bool :=
  match c.cmdPart k with
  | none => true
  | some p =>
    match c.part? p with
    | none => false
    | some pt =>
      (!pt.fault || k.opcode = 0x94) &&
        (!(k.isCell && !k.isGate) && !(k.tclass = 3 && (k.opcode = 0x52 || k.opcode = 0x53 || k.opcode = 0x54)) ||
          pt.state = .resident || (pt.state = .stopping && !c.atCheapPoint k.queue))

/-- Conditions other than the take, the target and the turn of the queueing: order, records (R348), the pages, the
partition, fatal state (R358), the zeroisation before a D3 session (R399), and the command's own wait. -/
def Chip.readyBase (c : Chip) (x : Ctx) (k : Cmd) : Bool :=
  k.phase = .waiting && c.fatal = 0 && c.power.pstate = 0 && c.sec.zeroising.isNone && c.orderOk k && c.partLets k && (c.cq (256 * k.fn + (c.sq k.queue).cq)).waiting.isEmpty &&
    (9 ≤ k.tclass || !opcodeAllotted k.opcode k.tclass || (classInstances k.tclass ≤ k.inst) || c.outsidePart x k || c.targetLost x k ||
      (c.pagesOf k).all (fun pg => (c.hdr pg.frame).ready && !(c.hdr pg.frame).quiesce)) && !c.opHeld x k

/-- The take of WAIT_EN would succeed now: it stands already, or the command is the oldest waiter and COUNT suffices
(R44). -/
def Chip.takeOk (c : Chip) (k : Cmd) : Bool :=
  !k.flag 2 || k.taken ||
    (let e := c.event (k.fld 8 2)
     (e.waiters.isEmpty || e.waiters.head? = some k.id) && k.fld 12 2 ≤ e.count)

/-- HALF of an array command: 0 the whole unit, 1 west, 2 east (R85). -/
def Cmd.half (k : Cmd) : Nat := if k.opcode = 0x10 && k.tclass ≠ 1 then bitField (k.fld 16 1) 5 4 else 0

/-- A command that occupies arrays: ARRAY_MM, ARRAY_EW, BWD_FUSED, MM_GRAD and stack-engine attention (R98). -/
def Cmd.usesArrays (k : Cmd) : Bool :=
  k.tclass ≤ 2 && (k.opcode = 0x10 || k.opcode = 0x11 || k.opcode = 0x18 || k.opcode = 0x19 || k.opcode = 0x62)

/-- The array units a command occupies (R98): its own; the cells of a head command's stream (R176); every engine that
holds a page of an attention command's slot (R289). -/
def Chip.unitsOf (c : Chip) (k : Cmd) : List Nat :=
  if k.isHead then (c.ringOf k).elim [] (fun (r : Ring) => r.cells k.stream)
  else if !k.usesArrays then []
  else if k.opcode = 0x62 then (c.attendEngines ((c.cmdPart k).getD 16) k).map (96 + ·)
  else k.units

/-- Two array commands cannot run at once on a shared unit: unless both are halves, and different ones (R98). -/
def Chip.clash (c : Chip) (k j : Cmd) : Bool :=
  (k.usesArrays || k.isHead) && (j.usesArrays || j.isHead) && (k.half = 0 || j.half = 0 || k.half = j.half) &&
    (let us := c.unitsOf j
     (c.unitsOf k).any (fun u => us.contains u))

/-- Bridge commands that must not overlap: openings and resets with any of these of the same ring, and head commands of one
stream of a ring (R178, R189). A RING_RESET does not wait for a running head command: it is refused (R173). -/
def Cmd.ringClash (k j : Cmd) : Bool :=
  k.tclass = 3 && j.tclass = 3 && k.opcode ≠ 0 && j.opcode ≠ 0 &&
    ((k.opcode ≤ 0x51 && j.opcode ≤ 0x51) || (k.ring = j.ring && ((k.isHead && j.opcode ≤ 0x51) || (j.isHead && k.opcode = 0x50) || k.opcode = j.opcode)))

/-- Round commands of a partition run one after another (R280, R298); a REQ_LEAVE that waits for its round's commit lets
others run. -/
def Chip.roundClash (c : Chip) (k j : Cmd) : Bool :=
  k.isRound && j.isRound && c.cmdPart k = c.cmdPart j && !(j.opcode = 0x6A && j.stage = 1)

/-- A command that binds or frees group slots, or forms, sets or tears down partitions: two of a kind never overlap, so
that each is checked against what the one before it left (R254, R313-R317). -/
def Cmd.setsShared (k : Cmd) : Bool :=
  (k.tclass = 6 && (k.opcode = 0x70 || k.opcode = 0x73)) || (k.tclass = 7 && 0x90 ≤ k.opcode && k.opcode ≤ 0x94)

/-- Two such commands; a COLL_GROUP_FREE does not wait for a command that names its slot: it is refused (R254). -/
def Cmd.sharedClash (k j : Cmd) : Bool :=
  k.setsShared && j.setsShared && j.tclass = k.tclass && !(k.opcode = 0x73 && k.tclass = 6 && j.fld 16 1 = k.fld 16 1)

/-- The target can accept the command: its arrays are idle (R98), a cell DMA runs fewer than four moves (R139), a command
of the same kind of the vector unit is not running, and no earlier-arrived ready command waits for the same arrays
(R98; the bridge orders head commands among themselves by R318). -/
def Chip.targetFree (c : Chip) (x : Ctx) (k : Cmd) : Bool :=
  let running := c.cmds.filter (fun j => j.phase ≠ .waiting)
  !running.any (fun j => c.clash k j || k.ringClash j || c.roundClash k j) &&
    !(k.opcode = 0x40 && k.tclass = 4 && 4 ≤ (running.filter (fun j => j.opcode = 0x40 && j.target = k.target)).length) &&
    !(k.isVector && running.any (fun j => j.target = k.target && j.isVector)) &&
    !running.any (fun j => k.sharedClash j) &&
    !(k.tclass = 5 && k.opcode = 0x40 && running.any (fun j => j.target = k.target && j.opcode = 0x40)) &&
    !c.cmds.any (fun j => c.clash k j && !(k.isHead && j.isHead) && j.arrival < k.arrival && j.id ≠ k.id && c.readyBase x j && c.takeOk j)

/-- The command may start but for the turn of the fair queueing. -/
def Chip.canStart (c : Chip) (x : Ctx) (k : Cmd) : Bool := c.readyBase x k && c.takeOk k && c.targetFree x k

/-- The virtual time of a partition on an engine (R318). -/
def Chip.vt (c : Chip) (e p : Nat) : Nat := tabGet 0 c.vtime (16 * e + p)

/-- A command is ready on its engine: it waits for nothing but the target and the turn, or the shadow it waited for can be taken (R51,
R318). -/
def Chip.engReady (c : Chip) (x : Ctx) (k : Cmd) : Bool := (c.readyBase x k && c.takeOk k) || (k.waitsShadow && c.shadowFree k)

/-- The partitions ready or running on an engine, `k` left aside; a load that waits for its shadow does neither (R51). -/
def Chip.onEngine (c : Chip) (e : Nat) (k : Cmd) : List Nat :=
  (c.cmds.filterMap (fun j =>
    if j.id ≠ k.id && j.engine = some e && ((tabFind c.readied j.id).isSome || (j.phase ≠ .waiting && !j.waitsShadow)) then c.cmdPart j else none)).eraseDups

/-- A command that has become ready on a shared engine is stamped; the first of its partition there sets V to the least V (R318). -/
def Chip.noteReady (c : Chip) (x : Ctx) (k : Cmd) : Chip :=
  match k.engine with
  | none => c
  | some e =>
    if (tabFind c.readied k.id).isSome || !c.engReady x k then c
    else
      let on := c.onEngine e k
      let c' := { c.tick with readied := tabSet c.readied k.id c.instant }
      match c.cmdPart k with
      | none => c'
      | some p =>
        if on.contains p then c'
        else
          let v := match on.map (c.vt e) with
            | [] => c.vt e p
            | v :: vs => vs.foldl min v
          { c' with vtime := tabSet c'.vtime (16 * e + p) v }

/-- Every command that has become ready is stamped, in the order of arrival; one that is ready no more loses its stamp. -/
def Chip.noteAll (c : Chip) (x : Ctx) : Chip :=
  let c := { c with readied := c.readied.filter (fun e => c.cmds.any (fun k => k.id = e.1 && c.engReady x k)) }
  c.cmds.foldl (fun c k => c.noteReady x k) c

/-- The command an engine starts next (R318): commands of no partition first, oldest first; then the oldest ready command
of the partition with the least V, equal values to the lower number. -/
def Chip.engineNext (c : Chip) (x : Ctx) (e : Nat) : Option Nat :=
  let rs := c.cmds.filter (fun j => j.engine = some e && (tabFind c.readied j.id).isSome && (j.waitsShadow || c.canStart x j))
  let age (j : Cmd) : Nat := tabGet 0 c.readied j.id
  let key (j : Cmd) : Nat × Nat × Nat := match c.cmdPart j with
    | none => (0, 0, age j)
    | some p => (1 + c.vt e p, p, age j)
  (rs.foldl (fun (b : Option Cmd) j => match b with
    | none => some j
    | some i =>
      let (a1, a2, a3) := key i
      let (b1, b2, b3) := key j
      if b1 < a1 || (b1 = a1 && (b2 < a2 || (b2 = a2 && b3 < a3))) then some j else some i) none).map (fun j => j.id)

/-- It is the command's turn on its engine (R318). -/
def Chip.myTurn (c : Chip) (x : Ctx) (k : Cmd) : Bool :=
  match k.engine with
  | none => true
  | some e => c.engineNext x e = some k.id

/-- A command that waits would go on if it were examined now: it would be poisoned, join its event's waiters, or start or be
refused. -/
def Chip.couldGo (c : Chip) (x : Ctx) (j : Cmd) : Bool :=
  j.phase = .waiting &&
    (let e := c.event (j.fld 8 2)
     (j.flag 2 && !j.taken && e.poisoned && c.orderOk j) ||
       (c.readyBase x j && (if c.takeOk j then c.targetFree x j && c.myTurn x j else !e.waiters.contains j.id)))

/-- Commands of one queue are examined in queue order (R37): no earlier one could go on now. -/
def Chip.inOrder (c : Chip) (x : Ctx) (k : Cmd) : Bool := (c.earlier k).all (fun j => !c.couldGo x j)

/-! ### Records (R41, R348) -/

/-- Energy in µJ. -/
def Acct.microjoules (a : Acct) : Nat := a.energy / 1000000

/-- The FLAGS of a record above PHASE (R41). -/
def Acct.flags (a : Acct) : Nat :=
  let sat := 2 ^ 32 ≤ a.beats || 2 ^ 32 ≤ a.ns || 2 ^ 32 ≤ a.bytes64 || 2 ^ 32 ≤ a.microjoules
  2 * flagNat a.bound + 4 * flagNat a.pall + 8 * flagNat a.evtOverflow + 16 * flagNat sat + 32 * flagNat a.nf

/-- The record of a command (R41); SQ_HEAD is put in when it is written. -/
def Cmd.record (k : Cmd) (status detail : Nat) : Record :=
  { tag := k.fld 4 4, status := status, detail := if status = 0 then 0 else detail, opcode := k.opcode, irq := k.flag 0
    flags := k.acct.flags, target := k.target, replays := min k.acct.replays 0xFFFF, sq := k.sq, sqHead := 0
    beats := min k.acct.beats (2 ^ 32 - 1), ns := min k.acct.ns (2 ^ 32 - 1), bytes64 := min k.acct.bytes64 (2 ^ 32 - 1)
    energy := min k.acct.microjoules (2 ^ 32 - 1) }

/-- The 32 bytes of a record (R7, R41). -/
def Record.bytes (r : Record) (phase : Bool) : List Byte :=
  leBytes 4 r.tag ++ leBytes 1 r.status ++ leBytes 1 r.detail ++ leBytes 1 r.opcode ++ leBytes 1 (flagNat phase + r.flags) ++
    leBytes 2 r.target ++ leBytes 2 r.replays ++ leBytes 2 r.sq ++ leBytes 2 r.sqHead ++
    leBytes 4 r.beats ++ leBytes 4 r.ns ++ leBytes 4 r.bytes64 ++ leBytes 4 r.energy

/-- A size of 2^SIZE_LOG2 slots; values outside 4 to 16 act as 4 (R350). -/
def ringSlots (l : Nat) : Nat := if 4 ≤ l && l ≤ 16 then 2 ^ l else 16

/-- The next slot a CQ writes. -/
def CQ.tail (q : CQ) : Nat := q.written % ringSlots q.sizeLog2

/-- The CQ is full (R348). -/
def CQ.full (q : CQ) : Bool := (q.tail + 1) % ringSlots q.sizeLog2 = q.head

/-- Entries of a function's MSI-X table (R351). -/
def msixSize (fn : Nat) : Nat := if fn % 32 = 0 then 2048 else 64

/-- A vector of a function that a masked entry would hold back: its link is up and the entry exists. -/
def Chip.vectorMasked (c : Chip) (fn vec : Nat) : Bool := (c.port (fn / 32)).linkUp && vec < msixSize fn && !(c.fnRegs fn).unmasked.contains vec

/-- The CQ's vector is sent, or kept pending while masked; the time of its message is kept (R348). -/
def Chip.cqSend (c : Chip) (key : Nat) : Chip :=
  let q := c.cq key
  let fn := key / 256
  let held := c.vectorMasked fn q.vector
  (c.putCq key { q with due := false, masked := q.masked || held, lastMsg := if held then q.lastMsg else some c.time }).vector fn q.vector

/-- The COAL_US of a CQ have passed since its vector's previous message (R348). -/
def CQ.coalPassed (q : CQ) (now : Nat) : Bool :=
  q.coalUs = 0 || (match q.lastMsg with
    | none => true
    | some t => t + 1000 * q.coalUs ≤ now)

/-- The CQ's vector becomes due: sent at once, or no sooner than COAL_US after its last message (R348). -/
def Chip.cqVector (c : Chip) (key : Nat) : Chip :=
  if (c.cq key).coalPassed c.time then c.cqSend key else c.putCq key { c.cq key with due := true }

/-- The partition's PCIe regulator lets a record write of a function proceed (R352). -/
def Chip.recordLets (c : Chip) (fn : Nat) : Bool :=
  match c.partOfFn fn with
  | none => true
  | some p => c.regLets p (3 + fn / 32)

/-- A record written to its slot as 32 bytes, charged to the partition's PCIe regulator, with its message (R348, R352). -/
def Chip.emitRecord (c : Chip) (key : Nat) (r : Record) : Chip :=
  let q := c.cq key
  let fn := key / 256
  let phase := (q.written / ringSlots q.sizeLog2 + 1) % 2 = 1
  let r := { r with sqHead := (c.sq (256 * fn + r.sq)).head }
  let c := ((c.putCq key { q with written := q.written + 1 }).send (.record fn (key % 256) (q.base + 32 * q.tail) (r.bytes phase))).count (0x010 + fn / 32) 2 1
  let c := match c.partOfFn fn with
    | some p => (c.regTake p (3 + fn / 32) 1).count (0x020 + p) 4 1
    | none => c
  if q.irqEn && r.irq then c.cqVector key else c

/-- A record goes to its CQ: written, kept waiting behind a full queue, one that is disabled, or a regulator without level, or lost in
ERROR (R41, R348, R349, R352). -/
def Chip.putRecord (c : Chip) (k : Cmd) (r : Record) : Chip :=
  let key := 256 * k.fn + (c.sq k.queue).cq
  let q := c.cq key
  if q.error then c
  else if !q.enable || q.full || !q.waiting.isEmpty || !c.recordLets k.fn then c.putCq key { q with waiting := q.waiting ++ [r] }
  else c.emitRecord key r

/-! ### Signals, poison and takes (R40, R44, R45) -/

/-- COUNT raised; a threshold crossed raises the vector of the owner's function (R44). Answers whether it saturated. -/
def Chip.bumpEvent (c : Chip) (i n : Nat) : Chip × Bool :=
  let e := c.event i
  let v := min (e.count + n) (2 ^ 32 - 1)
  let sat := v = 2 ^ 32 - 1
  let c' := c.putEvent i { e with count := v, overflow := e.overflow || sat }
  let c' := if e.irqOn && e.count < e.threshold && e.threshold ≤ v then
      (match e.owner with
        | some p => (match c'.part? p with
          | some pt => c'.vector pt.fn e.vector
          | none => c')
        | none => c')
    else c'
  (c', sat)

/-- A DRAINING shadow that no command is bound to, and whose entries no port is in (R226), becomes EMPTY (R51). -/
def Chip.drainShadows (c : Chip) : Chip :=
  { c with tables := c.tables.map (fun e =>
      if e.2.shadow = .draining && !(e.1 = tableKey 6 16 0 && c.links.ports.any (fun l => l.2.gen.isSome && l.2.gen = e.2.image.map (fun im => im.gen))) && !c.cmds.any (fun k => k.phase ≠ .waiting && k.binds.any (fun b => b.1 = e.1 && some b.2 = e.2.image.map (fun im => im.gen)))
      then (e.1, { e.2 with shadow := .empty, image := none }) else e) }

/-- A DRAINING queue becomes DISABLED, or runs again where it has been enabled since, when nothing of it is left: no command in
flight, no read under way, and its last record written (R349). -/
def Chip.settleSq (c : Chip) (key : Nat) : Chip :=
  let q := c.sq key
  if q.state = 2 && q.inFlight = 0 && q.reading.isNone && !(c.cq (key / 256 * 256 + q.cq)).waiting.any (fun r => r.sq = key % 256) then
    c.putSq key { q with state := if q.enable then 1 else 0 }
  else c

/-- Every DRAINING queue that feeds a completion queue (R349). -/
def Chip.settleSqs (c : Chip) (fn q : Nat) : Chip :=
  (c.sqs.filter (fun e => e.1 / 256 = fn && e.2.cq = q)).foldl (fun c e => c.settleSq e.1) c

/-- A record write that failed puts the CQ in ERROR with CAUSE 2; it and the later records are lost (R349), and it is logged as a HOST
error (R412). -/
def Chip.recordWriteFailed (c : Chip) (fn q : Nat) : Chip :=
  let key := 256 * fn + q
  let f := 0x010 + fn / 32
  (((c.putCq key { c.cq key with error := true, cause := 2, waiting := [] }).settleSqs fn q).count f 6 1 |>.log f { cls := 0x0B, sev := 1, part := c.partOfFn fn } |>.fire f 4).errVector fn

/-- The queue of a completed command: one fewer in flight, the cheap point (R324), DISABLED once drained (R349). Every command with
CHEAP that completes SUCCESS counts; cell commands, head commands among them (R189), decide whether the last was CHEAP, however they
completed. -/
def Chip.queueDone (c : Chip) (k : Cmd) (status : Nat) : Chip :=
  let q := c.sq k.queue
  (c.putSq k.queue
    { q with
      inFlight := q.inFlight - 1
      cheapCount := if k.flag 4 && status = 0 then q.cheapCount + 1 else q.cheapCount
      lastCheap := if k.isCell || k.isHead then k.flag 4 else q.lastCheap }).settleSq k.queue

/-- Energy charged to a partition, in pJ: CTR3 counts whole µJ, the rest is kept (R332). -/
def Chip.chargePj (c : Chip) (p pj : Nat) : Chip :=
  let e := tabGet 0 c.power.partPj p + pj
  ({ c with power.partPj := tabSet c.power.partPj p (e % 1000000) }).count (0x020 + p) 3 (e / 1000000)

/-- The partition's account of a completed command (R332), its virtual time on a shared engine (R318; a head command's rises by its
tiles) and its fault (R331). -/
def Chip.chargePart (c : Chip) (k : Cmd) (status : Nat) : Chip :=
  match c.cmdPart k with
  | none => c
  | some p =>
    let f := 0x020 + p
    let c := (((c.count f 0 k.acct.beats).count f 1 k.acct.ns).count f 2 k.acct.bytes64).chargePj p k.acct.energy
    let c := match k.engine with
      | some e =>
        if k.share = 0 || k.isHead then c
        else { c with vtime := tabSet c.vtime (16 * e + p) (c.vt e p + k.acct.beats * 256 / k.share) }
      | none => c
    match c.part? p with
    | some pt =>
      if pt.stopOnFault && !pt.fault && (status = 12 || status = 7 || status = 8) then
        (c.modPart p (fun q => { q with fault := true })).fire f 5
      else c
    | none => c

/-! ### Energy (R332, R378) -/

/-- The power domain a command runs in (R363): a cell pair, a stack engine, the bridge, the link complex, or the hub. -/
def Cmd.domain (k : Cmd) : Nat :=
  if k.isRound then 63
  else match k.tclass with
    | 0 => k.inst / 2
    | 1 => k.inst
    | 2 => 48 + k.inst
    | 3 => 60
    | 4 => k.inst / 2
    | 6 => 62
    | _ => 63

/-- A command's energy in pJ for the run that ends now (R332): what its domain's meter has gathered since its start and no other command
has been charged, shared with the commands running in the domain in proportion to their ENGINE_BEATS. -/
def Chip.energyOf (c : Chip) (k : Cmd) : Nat :=
  let gathered := (c.domain k.domain).energyPj - k.startPj - (tabGet 0 c.power.chargedPj k.domain - k.startCharged)
  let others := (c.cmds.filter (fun j => j.id ≠ k.id && j.phase ≠ .waiting && j.domain = k.domain)).foldl (fun n j => n + j.acct.beats) 0
  if k.acct.beats + others = 0 then gathered else gathered * k.acct.beats / (k.acct.beats + others)

/-- The time and energy of a command's run are added to its account (R41, R332). -/
def Chip.accounted (c : Chip) (k : Cmd) : Cmd :=
  { k with runPj := c.energyOf k, acct := { k.acct with ns := k.acct.ns + (c.time - k.startNs), energy := k.acct.energy + c.energyOf k } }

/-- The energy of the run that ended is charged in its domain (R332). -/
def Chip.chargeRun (c : Chip) (k : Cmd) : Chip :=
  if k.runPj = 0 then c
  else { c with power.chargedPj := tabSet c.power.chargedPj k.domain (tabGet 0 c.power.chargedPj k.domain + k.runPj) }

/-- A command leaves: removed from the list and from its waiters, tables released, queue and partition charged, record
written unless a reset of its function forbids it (R41). Signals are made by the caller, before. -/
def Chip.retire (c : Chip) (k : Cmd) (status detail : Nat) (record : Bool) : Chip :=
  let c := { c.dropCmd k.id with readied := tabDel c.readied k.id }.chargeRun k
  let c := if k.tclass = 2 && !k.isRound && k.phase ≠ .waiting then c.noteUse (48 + k.inst) else c
  let w := k.fld 8 2
  let e := c.event w
  let c := if k.flag 2 && e.waiters.contains k.id then c.putEvent w { e with waiters := e.waiters.filter (· ≠ k.id) } else c
  let g := c.event (k.fld 18 2)
  let c := if k.opcode = 0x72 && g.waiters.contains k.id then c.putEvent (k.fld 18 2) { g with waiters := g.waiters.filter (· ≠ k.id) } else c
  let c := (c.chargePart k status).drainShadows
  let c := if record then c.putRecord k (k.record status detail) else c
  c.queueDone k status

/-- Who a command's reads are charged to: its target's page (R408, R412). -/
def Chip.consumer (c : Chip) (k : Cmd) : Consumer :=
  { page := (c.pagesOf k).head?, part := c.cmdPart k, opcode := k.opcode, target := k.target }

/-- The lines a command reads before it starts. -/
def Cmd.startReads (k : Cmd) : List Nat := k.startRuns.flatMap (fun r => linesOf r.1 r.2)

/-- Those bytes. -/
def Cmd.startBytes (k : Cmd) (c : Chip) (x : Ctx) : List Byte := k.startRuns.flatMap (fun r => c.rdBytes x r.1 r.2)

/-- They are read: each line with its errors, charged to the partition's regulators (R319, R443). -/
def Chip.startRead (c : Chip) (x : Ctx) (k : Cmd) : Chip :=
  (Chip.readLines x (c.consumer k) k.startReads c).1.trafficCharge (c.cmdPart k) k.startRuns

/-- What a start takes: the event, the gating controls in force on its units (R102), the generations it binds (R53), its context (R443),
and of its partition the watchdog time and the share, which a later PART_SET does not change for it (R313). A GATE_SEAL's start is the
seal's (R216, R269). -/
def Chip.begin_ (c : Chip) (x : Ctx) (k : Cmd) : Chip :=
  let w := k.fld 8 2
  let e := c.event w
  let c := if k.flag 2 && !k.taken then
      c.putEvent w { e with count := e.count - k.fld 12 2, waiters := e.waiters.filter (· ≠ k.id) } else c
  let p := (c.cmdPart k).getD 16
  let binds := (c.tablesUsed k).filterMap (fun key => (c.active key).map (fun im => (key, im.gen)))
  let c := if k.tclass = 0 && k.opcode = 0x21 then
      (let g : Gate := tabGet {} c.gates p
       { c with gates := tabSet c.gates p { g with sealAt := some (g.sealAt.getD c.time) } })
    else c
  ({ c with readied := tabDel c.readied k.id }.putCmd
    { k with phase := .running, taken := true, startNs := c.time, startAt := c.instant, startPj := (c.domain k.domain).energyPj
             startCharged := tabGet 0 c.power.chargedPj k.domain, runPj := 0, binds := binds
             watchdogUs := ((c.part? p).elim 0 (fun pt => pt.watchdogUs)), untimed := 0
             share := (match c.part? p, k.engine with
               | some pt, some e => pt.share e
               | _, _ => 0)
             gateOn := (c.unitsOf k).filter (fun u => bitAt (c.unitCtrl p u) 1), ctx := k.startBytes c x, stage := 0 }).tick

/-- A command that starts: its lines are read, it takes, binds and runs. One that names a program whose required generations are not
active completes with TABLE_ERROR, DETAIL 7, at once (R53, R324): it was not refused, so its signal entry is poisoned (R40). -/
def Chip.start (c : Chip) (x : Ctx) (k : Cmd) : Chip × Option Nat :=
  let c := (c.startRead x k).begin_ x k
  if (k.isCell || k.isHead) && c.requiredBad k then (c.retire { k with phase := .ended } 13 7 true, if k.flag 3 then some (k.fld 10 2) else none)
  else (c, none)

/-- What one attempt to start a command does: nothing; refused, poisoned, or failed on what
it reads before it starts, with the event that its end poisons; or started. After a failure of HBM only management goes on (R159).
When a command joins an entry's waiters: log 103. -/
def Chip.attempt (c : Chip) (x : Ctx) (k : Cmd) : Chip × Option Nat :=
  let c := c.noteAll x
  if k.phase ≠ .waiting || !c.inOrder x k then (c, none)
  else
    let e := c.event (k.fld 8 2)
    let sig := if k.flag 3 then some (k.fld 10 2) else none
    if k.flag 2 && !k.taken && e.poisoned && c.orderOk k then (c.retire k 9 0 true, sig)
    else if !c.readyBase x k then (c, none)
    else if !c.takeOk k then
      (if e.waiters.contains k.id then c else c.putEvent (k.fld 8 2) { e with waiters := e.waiters ++ [k.id] }, none)
    else if !c.targetFree x k || !c.myTurn x k then (c, none)
    else match c.checkAll x k with
        | some (st, d) =>
          let unrefused := c.failsUnrefused x k st
          let c := if st = 7 || st = 8 || (st = 5 && 64 ≤ d) then c.startRead x k else c
          (c.retire k st d true, if unrefused then sig else none)
        | none => if c.tiers.hbmFailed && k.tclass ≤ 6 && k.opcode ≠ 0 then (c, none) else c.start x k

/-- Entries whose waiters may now move, worked off: the oldest waiter of each is tried, and a poisoned end poisons its own
signal entry in turn (R40, R44, R45). -/
def settle : Nat → Ctx → List Nat → Chip → Chip
  | 0, _, _, c => c
  | _ + 1, _, [], c => c
  | fuel + 1, x, i :: is, c =>
    match (c.event i).waiters with
    | [] => settle fuel x is c
    | w :: _ =>
      match c.cmd? w with
      | none => settle fuel x (i :: is) (c.putEvent i { c.event i with waiters := (c.event i).waiters.tail })
      | some k =>
        let r := c.attempt x k
        if (r.1.event i).waiters.head? = some w then settle fuel x is r.1
        else match r.2 with
          | none => settle fuel x (i :: is) r.1
          | some j => settle fuel x (i :: j :: is) (r.1.putEvent j { r.1.event j with poisoned := true })

/-- Fuel that covers every waiter and every entry of the worklist. -/
def Chip.settleFuel (c : Chip) : Nat := 4 * c.cmds.length + 8

/-- An entry poisoned: its waiters complete with EVENT_POISONED (R40). -/
def Chip.poison (c : Chip) (x : Ctx) (i : Nat) : Chip :=
  let c := c.putEvent i { c.event i with poisoned := true }
  settle c.settleFuel x [i] c

/-- The four entries of a line of the event table lose their counts and are poisoned (R43, R408). -/
def Chip.eventLineLost (x : Ctx) (c : Chip) (i : Nat) : Chip :=
  (List.range 4).foldl (fun (c : Chip) j =>
    let e := i / 4 * 4 + j
    (c.putEvent e { c.event e with count := 0 }).poison x e) c

/-- An entry of the event table is read (R408): an error that its line's code corrects is logged and gone, one it does not loses the
line. -/
def Chip.meetEvent (c : Chip) (x : Ctx) (i : Nat) : Chip :=
  let l := evtLine i
  let r : LogReq := { cls := 1, sev := 0, addr := some (0x21800000000 + 64 * (i / 4)) }
  if !x.mem.lines.any (fun e => e.1 = l) then c
  else
    let good := c.stage (.health l .good)
    match (x.now c).mem.health l with
    | .good => c
    | .ce _ => good.log 0x006 r
    | _ => Chip.eventLineLost x (good.log 0x006 { r with cls := 2, sev := 1 }) i

/-- Signal `n` on an entry: its line is read, then COUNT, then the takes it allows (R44, R45). -/
def Chip.signal (c : Chip) (x : Ctx) (i n : Nat) : Chip × Bool :=
  let r := (c.meetEvent x i).bumpEvent i n
  (settle r.1.settleFuel x [i] r.1, r.2)

/-- Reset of an entry (R44): waiting commands stay waiting. -/
def Chip.resetEvent (c : Chip) (i : Nat) : Chip := c.putEvent i { c.event i with count := 0, poisoned := false, overflow := false }

/-- A command ends (R38, R40): its signal, or the poison of its signal entry, then its record. The waiters behind one that leaves
unstarted may move (R44). -/
def Chip.finish (c : Chip) (x : Ctx) (k : Cmd) (status detail : Nat) (record : Bool) : Chip :=
  let c := c.noteAll x
  let i := k.fld 10 2
  let behind := if k.flag 2 && k.phase = .waiting then [k.fld 8 2] else []
  if !k.flag 3 then
    let c := c.retire k status detail record
    settle c.settleFuel x behind c
  else if status = 0 then
    let r := (c.meetEvent x i).bumpEvent i (k.fld 14 2)
    let c := r.1.retire { k with acct := { k.acct with evtOverflow := k.acct.evtOverflow || r.2 } } status detail record
    settle c.settleFuel x (i :: behind) c
  else
    let c := c.retire k status detail record
    let c := c.putEvent i { c.event i with poisoned := true }
    settle c.settleFuel x (i :: behind) c

/-- The entry a command waits on is read before its take (R408). -/
def Chip.meetTake (c : Chip) (x : Ctx) (id : Nat) : Chip :=
  match c.cmd? id with
  | none => c
  | some k => if k.flag 2 && !k.taken && k.phase = .waiting then c.meetEvent x (k.fld 8 2) else c

/-- One attempt to start a command, with what follows from it. -/
def Chip.tryStart (c : Chip) (x : Ctx) (id : Nat) : Chip :=
  let c := c.meetTake x id
  match c.cmd? id with
  | none => c
  | some k =>
    let r := c.attempt x k
    match r.2 with
    | none => settle r.1.settleFuel x [k.fld 8 2] r.1
    | some i => (settle r.1.settleFuel x [k.fld 8 2] r.1).poison x i

end Sys2Proof.Machine
end

