-- ==== Sys2Proof/Machine/Run.lean ====
section
/-! DEFINITION. What every running command shares: reading lines with their errors, ending with a status, the error kinds
of test perturbation (R417-R419), and killing or discarding a command (R39, R100, R317). -/

namespace Sys2Proof.Machine

/-- A running command's outcome is settled: its outputs are staged and its commit phase begins (R39, R100). -/
def Chip.endCmd (c : Chip) (k : Cmd) (status detail : Nat) : Chip :=
  c.putCmd { k with phase := .ended, status := status, detail := detail }

/-- Two accounts together: the runs of a command, or the shares of its cells (R88, R332). -/
def Acct.plus (a b : Acct) : Acct :=
  { beats := a.beats + b.beats, ns := a.ns + b.ns, bytes64 := a.bytes64 + b.bytes64, energy := a.energy + b.energy
    replays := a.replays + b.replays, nf := a.nf || b.nf, bound := a.bound || b.bound, pall := a.pall || b.pall
    evtOverflow := a.evtOverflow || b.evtOverflow }

/-- A body run for a command that is running this opcode and has not ended; any other command number does nothing. -/
def runOp (id op : Nat) (body : Chip → Cmd → Chip) (c : Chip) : Chip :=
  match c.cmd? id with
  | none => c
  | some k => if k.opcode = op && k.phase = .running then body c k else c

/-- A step of a running command: its body, for the partition it acts for. -/
def onOp (id op : Nat) (body : Ctx → Chip → Cmd → Chip) : State → Host.Outcome State Fault Refusal :=
  onStep (fun c => (c.cmd? id).bind c.cmdPart) (fun x c => runOp id op (body x) c)

/-- Runs of bytes read: every line's error handled, and the first failure (R152, R153, R408). -/
def Chip.readRuns (x : Ctx) (w : Consumer) (runs : List (Nat × Nat)) (c : Chip) : Chip × Option ReadFault :=
  Chip.readLines x w ((runs.flatMap (fun r => linesOf r.1 r.2)).eraseDups) c

/-- The beats a unit spent that the spec bounds and does not state: freezes of the feeders and drains (R90), and how far
a command came before its data failed. -/
def envBeats (env : Env) : Nat := env.feed + env.drain

/-- Those of a command: over both cells of a pair (R88). -/
def Cmd.envBeats (k : Cmd) (env : Env) : Nat :=
  if k.tclass = 1 then Sys2Proof.Machine.envBeats env + Sys2Proof.Machine.envBeats (env.unit 1) else Sys2Proof.Machine.envBeats env

/-- The cells whose banks a command uses (R125): its own, both of a pair, the source cells of a head command. -/
def Chip.banksOf (c : Chip) (k : Cmd) : List Nat :=
  if k.isHead then (c.ringOf k).elim [] (fun (r : Ring) => r.cells k.stream)
  else match k.tclass with
    | 0 => [k.inst]
    | 1 => [2 * k.inst, 2 * k.inst + 1]
    | 4 => [k.inst]
    | _ => []

/-- What a cell command meets while it runs: the upsets of the lines it touches, and the requests its cells' banks refused or granted out
of order, which CDMA CTR2 and CTR3 count (R125, R144). -/
def Chip.meets (c : Chip) (x : Ctx) (env : Env) (k : Cmd) : Chip :=
  ((c.banksOf k).zip env.banks).foldl (fun c b => (c.count (0x200 + b.1) 2 b.2.1).count (0x200 + b.1) 3 b.2.2) (c.upset x env.upsets)

/-- What the pages of its units count of an array command that stops (R90, R102), and the partition of the array time of a head command
(R190): the freezes are known; how many half-beats each unit stepped, how many products it formed and gated, and how many replays it took by
then the spec does not state, and free numbers say. -/
def Chip.broken (c : Chip) (k : Cmd) (env : Env) : Chip :=
  let two := if k.half = 0 then 2 else 1
  let us := c.unitsOf k
  let free (i j : Nat) : Nat := Config.freeNat (c.free + 4 * i + j)
  let units := List.range us.length
  let d := units.foldl (fun d i =>
    let f := (unitPage (us.getD i 0)).frame
    let e := env.unit i
    let gated := if k.gateOn.contains (us.getD i 0) then free i 2 % (free i 1 + 1) else 0
    (((((d.count f 0 (two * free i 0)).count f 1 (two * e.feed)).count f 2 (two * e.drain)).count f 3 (free i 1)).count f 4 gated).count f 5
      (if k.opcode = 0x11 then 0 else free i 3)) c
  (if k.isHead then d.count (0x020 + (c.cmdPart k).getD 16) 0 (units.map (fun i => free i 0 + Sys2Proof.Machine.envBeats (env.unit i))).sum else d).draw (4 * us.length)

/-- Runs that follow one another joined. -/
def joinRuns (rs : List (Nat × Nat)) : List (Nat × Nat) :=
  rs.foldr (fun r acc => match acc with
    | q :: t => if r.1 + r.2 = q.1 then (r.1, r.2 + q.2) :: t else r :: acc
    | [] => [r]) []

/-- Lines a write touches only in part: it is a read-modify-write of them (R126, R153). -/
def partialLines (a n : Nat) : List Nat :=
  (linesOf a n).filter (fun l => l < a || a + n < l + 64)

/-- The lines that writes of these runs touch only in part, as runs to read. -/
def partRuns (runs : List (Nat × Nat)) : List (Nat × Nat) :=
  (((joinRuns runs).flatMap (fun r => partialLines r.1 r.2)).eraseDups).map (fun l => (l, 64))

/-- Lines that writes of these runs cover whole lose their poison (R153, R409). -/
def Chip.coverRuns (x : Ctx) (runs : List (Nat × Nat)) (c : Chip) : Chip :=
  ((joinRuns runs).flatMap (fun r => (linesOf r.1 r.2).filter (fun l => r.1 ≤ l && l + 64 ≤ r.1 + r.2))).foldl (fun c l =>
    if c.lineHealth x l = .good then c else c.stage (.health (c.key x.fuse l / 64) .good)) c

/-- The bad lines among those of a store that nothing addresses, as runs to read: good ones say nothing. -/
def Chip.badIn (c : Chip) (x : Ctx) (a n : Nat) : List (Nat × Nat) :=
  let k := c.key x.fuse a
  (x.mem.lines.filter (fun e => k ≤ 64 * e.1 && 64 * e.1 < k + n)).map (fun e => (a + (64 * e.1 - k), 64))

/-- A store that nothing addresses is written anew: its lines are good. -/
def Chip.coverIn (c : Chip) (x : Ctx) (a n : Nat) : Chip := (c.badIn x a n).foldl (fun c r => c.stage (.health (c.key x.fuse r.1 / 64) .good)) c

/-- The bad lines of a unit's keep buffer, which a command with ACC_CONT reads (R92, R408). -/
def Chip.keepBad (c : Chip) (x : Ctx) (on : Bool) (u : Nat) : List (Nat × Nat) := if on then c.badIn x (keepAddr u) (2 ^ 24) else []

/-- A unit's keep buffer written anew (R92). -/
def Chip.keepNew (c : Chip) (x : Ctx) (u : Nat) (k : Keep) : Chip := ({ c with keeps := tabSet c.keeps u k }).coverIn x (keepAddr u) (2 ^ 24)

/-- A body that first reads its inputs; a failed read ends the command with ECC_UNCORRECTED or POISON and commits nothing
(R39, R409). -/
def Chip.afterReads (x : Ctx) (env : Env) (k : Cmd) (runs : List (Nat × Nat)) (c : Chip) (body : Chip → Chip) : Chip :=
  let r := Chip.readRuns x (c.consumer k) runs c
  match r.2 with
  | some f => (r.1.broken k env).endCmd { k with acct := k.acct.plus { beats := k.envBeats env } } f.code.1 f.code.2
  | none => body r.1

/-- A body that reads its inputs and the lines its writes touch in part, before it writes any of them (R39, R153). -/
def Chip.afterIo (x : Ctx) (env : Env) (k : Cmd) (reads writes : List (Nat × Nat)) (c : Chip) (body : Chip → Chip) : Chip :=
  c.afterReads x env k (reads ++ partRuns writes) (fun c => body (Chip.coverRuns x writes c))

/-! ### Injected errors (R417, R419) -/

/-- A command with output elements that NF can replace: array and vector commands, OPT_UPDATE's working copy, HEAD_PASS2, ENG_ATTEND and a
launch's local values. -/
def Cmd.hasElements (k : Cmd) : Bool := [0x10, 0x11, 0x18, 0x19, 0x1A, 0x1B, 0x1E, 0x54, 0x62, 0x71].contains k.opcode

/-- NF: the output element replaced before encoding, and its value, for a command with `total` output elements on a page: the first such
command that started after ARM was set (R417, R419). -/
def Chip.nfInject (c : Chip) (pg : Page) (k : Cmd) (total : Nat) : Option (Nat × Val) :=
  let t := (c.hdr pg.frame).pert
  let before (j : Cmd) : Bool := j.id ≠ k.id && j.phase = .running && j.hasElements && (c.pagesOf j).contains pg &&
    t.armed 5 (c.cmdPart j) && t.since ≤ j.startAt && j.startAt < k.startAt
  if t.armed 5 (c.cmdPart k) && 0 < total && bitField t.nf.toNat 31 30 ≠ 3 && t.since ≤ k.startAt && !c.cmds.any before then
    some (t.nf.toNat % 2 ^ 24 % total,
      match bitField t.nf.toNat 31 30 with
      | 0 => .inf false
      | 1 => .inf true
      | _ => .nan)
  else none

/-- The element rows of a share with an injected non-finite value put in (R417). -/
def injectAt (inj : Option (Nat × Val)) (width row : Nat) (vs : List Val) : List Val :=
  match inj with
  | none => vs
  | some (i, v) => if i / (max width 1) = row then listSet vs (i % (max width 1)) v else vs

/-- NF was injected on a page. -/
def Chip.nfDone (c : Chip) (pg : Page) (inj : Option (Nat × Val)) : Chip := if inj.isSome then c.injected pg 5 else c

/-! ### Kills and discards (R39, R100, R141, R317) -/

/-- The destination end of a move. -/
def Chip.destOf (c : Chip) (k : Cmd) : MoveEnd := c.moveDst ((c.cmdPart k).getD 16) k

/-- A read with ZERO_SRC that failed has zeroed some of its words (R131): free numbers say which. -/
def Chip.zeroSome (c : Chip) (x : Ctx) (runs : List (Nat × Nat)) : Chip :=
  (runs.flatMap (fun r => (List.range (r.2 / 4)).map (fun i => r.1 + 4 * i))).foldl (fun c a =>
    (if Config.freeNat c.free % 2 = 1 then c.wr x a (leBytes 4 0) else c).draw 1) c

/-- A move with ZERO_SRC that stops has zeroed the words of its source that it has read (R131): which ones the spec does not state, and
free numbers say. -/
def Chip.zeroRead (c : Chip) (x : Ctx) (k : Cmd) : Chip :=
  if k.tclass = 4 && bitAt (k.fld 16 1) 3 then c.zeroSome x (c.moveSrc ((c.cmdPart k).getD 16) k).runs else c

/-- The destination of a move is unspecified (R39), its residency entries go (R141), and an accumulating one is DIRTY
(R130). -/
def Chip.spoilMove (c : Chip) (x : Ctx) (k : Cmd) : Chip :=
  let d := c.destOf k
  if d.host then c
  else
    let c := d.runs.foldl (fun c r => c.wrUnspecified x r.1 r.2) c
    if bitAt (k.fld 16 1) 2 then
      let g := tabGet (false, false) c.tiers.gradStat k.inst
      let c := { c with tiers.gradStat := tabSet c.tiers.gradStat k.inst (true, g.2) }
      if g.1 then c else c.fire (0x200 + k.inst) 3
    else c

/-- Freezes of `n` units by free numbers. -/
def Chip.freezes (c : Chip) (n : Nat) : Env :=
  let f (i : Nat) : Nat × Nat := (Config.freeNat (c.free + 2 * i), Config.freeNat (c.free + 2 * i + 1))
  { feed := (f 0).1, drain := (f 0).2, more := (List.range (n - 1)).map (fun i => f (i + 1)), upsets := [], host := .data [] }

/-- A killed command's own unit reacts: the pages of its cells count it (R99, R102), its half-beats stepped and frozen free numbers; a
move spoils its destination, an
interrupted load leaves its shadow INVALID (R54), a held teacher command claims nothing (R189) and the beats of
its hold, which the spec does not state, are a free number, a launch's tiles go. -/
def Chip.killUnit (c : Chip) (x : Ctx) (k : Cmd) : Chip :=
  let c := if k.phase = .running then
      let units := if k.tclass = 0 && k.isVector && !k.isGate then [k.inst] else c.unitsOf k
      let c := (c.draw (2 * (c.unitsOf k).length)).broken k (c.freezes (c.unitsOf k).length)
      units.foldl (fun c u =>
        let f := (unitPage u).frame
        let c := (c.count f 6 1).fire f 4
        if k.half ≠ 0 then (c.count f 7 1).fire f 2 else c) c
    else c
  let c := if c.bridge.rings.any (fun e => e.2.held = some k.id) then (c.count 0x008 6 (Config.freeNat c.free)).draw 1 else c
  let c := if k.opcode = 0x40 && k.phase = .running then (c.zeroRead x k).spoilMove x k else c
  let c := { c with
    bridge.rings := c.bridge.rings.map (fun (e : Nat × Ring) => if e.2.held = some k.id then (e.1, { e.2 with held := none }) else e)
    coll.launches := tabDel c.coll.launches k.id }
  if k.opcode = 0x80 && k.phase = .running then
    { c with tables := c.tables.map (fun e =>
        if e.2.loader = some k.id then (e.1, { e.2 with shadow := .invalid, loader := none }) else e) }
  else c

/-- A launch with NF_SEEN where its tiles have met a non-finite value (R62, R69). -/
def Chip.seenNf (c : Chip) (k : Cmd) : Cmd :=
  { k with acct := { k.acct with nf := k.acct.nf || (match tabFind c.coll.launches k.id with
      | some l => l.nf
      | none => false) } }

/-- The account of a run that was stopped (R332): its time and energy; the beats spent and bytes moved by then, which the spec does
not state, are the free numbers `seed` and `seed + 1`. -/
def Chip.stopped (c : Chip) (k : Cmd) : Cmd :=
  c.accounted { k with acct := k.acct.plus { beats := Config.freeNat c.free, bytes64 := Config.freeNat (c.free + 1) } }

/-- A running command is killed (R100); one in its commit phase completes as it ended; one that waits is left. -/
def Chip.kill (c : Chip) (x : Ctx) (id status : Nat) (record : Bool) : Chip :=
  match c.cmd? id with
  | none => c
  | some k =>
    match k.phase with
    | .waiting => c
    | .ended => c.finish x (c.accounted k) k.status k.detail record
    | .running =>
      let k := c.seenNf k
      let c := c.killUnit x k
      (c.draw 2).finish x (c.stopped k) status 0 record

/-- A command that has not started is discarded with CANCELLED. -/
def Chip.discard (c : Chip) (x : Ctx) (id : Nat) (record : Bool) : Chip :=
  match c.cmd? id with
  | none => c
  | some k => if k.phase = .waiting then c.finish x k 0x13 0 record else c

/-- Unstarted commands withdrawn: none of them can be examined, or wait on an event, any more. -/
def Chip.withdraw (c : Chip) (ids : List Nat) : Chip :=
  { c with
    cmds := c.cmds.filter (fun k => !ids.contains k.id)
    events := c.events.map (fun e => (e.1, { e.2 with waiters := e.2.waiters.filter (fun i => !ids.contains i) })) }

/-- Every command that satisfies a test: the unstarted ones are withdrawn together, so that no signal or poison of the others
reaches them; the running ones are killed with a status; then the withdrawn ones end, with CANCELLED unless `unstarted` says otherwise. -/
def Chip.killAll (c : Chip) (x : Ctx) (p : Cmd → Bool) (status : Nat) (record : Bool) (unstarted : Cmd → Nat := fun _ => 0x13) : Chip :=
  let ks := c.cmds.filter p
  let waiting := ks.filter (fun k => k.phase = .waiting)
  let c := (ks.filter (fun k => k.phase ≠ .waiting)).foldl (fun c k => c.kill x k.id status record) (c.withdraw (waiting.map (fun k => k.id)))
  waiting.foldl (fun c k => c.finish x k (unstarted k) 0 record) c

/-! ### Waits that no watchdog times (R260, R330) -/

/-- A tile of a launch that runs once its partial is there and has none yet (R259, R265). -/
def Chip.awaitsPartial (c : Chip) (l : Launch) (t : Nat) : Bool :=
  let g : Gate := tabGet {} c.gates l.part
  let s : Stage := tabGet {} c.coll.stages (l.stage + 16384 * t)
  l.tiles[t]? = some .waiting && l.hop ≠ 0 && s.inc ≠ some (l.epoch % 256) && !(g.window && g.epoch = l.epoch)

/-- A running COLL_LAUNCH in a wait that the watchdog does not time: for its partition to be RESIDENT before its local phase, or, past it,
for a partial. -/
def Chip.untimedWait (c : Chip) (k : Cmd) : Bool :=
  k.tclass = 6 && k.opcode = 0x71 && k.phase = .running &&
    (match tabFind c.coll.launches k.id with
      | some l => (List.range l.tiles.length).any (c.awaitsPartial l)
      | none => k.stage ≤ 1 && (match (c.cmdPart k).bind c.part? with
        | some pt => pt.state ≠ .resident
        | none => false))

/-- Some ns pass: they do not count for the watchdogs of commands in such a wait. -/
def Chip.passNs (c : Chip) (n : Nat) : Chip :=
  { c with time := c.time + n, cmds := c.cmds.map (fun k => if c.untimedWait k then { k with untimed := k.untimed + n } else k) }

/-! ### Partitions that are ready (R321) -/

/-- A fetched command makes its partition ready: a waiting cell command, a COLL_LAUNCH before its local phase, or a waiting
head command of the partition's stream. -/
def Chip.makesReady (c : Chip) (p : Nat) (k : Cmd) : Bool :=
  c.cmdPart k = some p &&
    ((k.phase = .waiting && k.isCell) ||
      (k.tclass = 6 && k.opcode = 0x71 && k.phase ≠ .ended && (tabFind c.coll.launches k.id).isNone) ||
      (k.phase = .waiting && k.tclass = 3 && (match c.ringOf k with
        | some r => (k.opcode = 0x52 && r.tPart = p) || ((k.opcode = 0x53 || k.opcode = 0x54) && r.sPart = p)
        | none => false)))

/-- The partition is ready (R321); a faulted one is not (R331), nor one that claims a pair that FAILED (R366) or failed its self-test
(R406). -/
def Chip.partReady (c : Chip) (x : Ctx) (p : Nat) (pt : Part) : Bool :=
  !pt.fault && !(bitsOf 48 pt.pairs).any (fun q => (c.domain q).failed || x.fuse.repair.pairFail.contains q) && c.cmds.any (c.makesReady p)

/-- The instants at which partitions (R322), and commands on shared engines (R318), became ready are kept up. -/
def Chip.noteParts (c : Chip) (x : Ctx) : Chip :=
  let c := c.noteAll x
  { c with
    parts := c.parts.map (fun e =>
      if c.partReady x e.1 e.2 then (if e.2.readySince.isSome then e else (e.1, { e.2 with readySince := some c.instant }))
      else (e.1, { e.2 with readySince := none }))
    instant := c.instant + 1 }

end Sys2Proof.Machine
end

