-- ==== Sys2Proof/Machine/Arrays.lean ====
section
/-! DEFINITION. The array commands (chapters 04, 05): ARRAY_MM and ARRAY_EW, their results (R116), time (R89, R95, R110),
counters (R102) and the keep buffer (R92, R119). -/

namespace Sys2Proof.Machine

/-- One output of an array command: its run, its element value before encoding or its INT32 word, its gated products pass by pass. -/
structure MmOut where
  run : AccRun
  val : Val
  word : Nat
  bound : Bool
  gates : List Nat
deriving DecidableEq, Repr

/-- How an array reduction is made: number of K, the operands' elements, ACC_SCALE, P, T_OUT, INT32 export. -/
structure MmSpec where
  k : Nat
  accScale : Int
  p : Nat
  tOut : Int
  int32 : Bool
  keepBound : Bool := false
deriving DecidableEq, Repr

/-- The products of one output, cut into passes of 128, padded with zeros (R81). -/
def mmPasses (k : Nat) (w x : Nat → Val) : List (List Val) :=
  (List.range (ceilDiv k 128)).map (fun j =>
    (List.range 128).map (fun r => let i := 128 * j + r
      if i < k then (w i).mul (x i) else Val.zero))

/-- A product gated because an operand is zero and the other finite (R91). -/
def gatedPair (a b : Val) : Bool := (a.isZero && b.finite) || (b.isZero && a.finite)

/-- The gated products of one output in each pass. -/
def mmGated (k : Nat) (w x : Nat → Val) : List Nat :=
  (List.range (ceilDiv k 128)).map (fun j => ((List.range (min 128 (k - 128 * j))).filter (fun r => gatedPair (w (128 * j + r)) (x (128 * j + r)))).length)

/-- Products formed by `cols` columns in `kp` passes of 128 rows, for every vector of the streamed dimension (R83): the padding of K
and the columns beyond the output width, whose elements are fed zeros, among them (R91); in OS the rows beyond N of the last tile are not
(log 82). -/
def formedProducts (flow kp cols m n : Nat) : Nat := if m * n = 0 then 0 else 128 * kp * cols * (if flow = 2 then m else n)

/-- The tiles of a reduction, that replay one by one (R109): in OS of 128 rows n each, else one; the rows and the outputs of each. -/
def mmTiles (flow n : Nat) (outs : List (List MmOut)) : List (Nat × List MmOut) :=
  if flow = 1 then (List.range (ceilDiv n 128)).map (fun t => (min 128 (n - 128 * t), ((outs.drop (128 * t)).take 128).flatten))
  else [(n, outs.flatten)]

/-- The products that the replays of a tile form again, and those of them that are gated where gating is in force: the zeros of the padding
and of the columns beyond the outputs, and what was gated in the passes replayed (R91, R102, R109). -/
def replayProducts (flow k cols m : Nat) (tile : Nat × List MmOut) : Nat × Nat :=
  (tileReplays (tile.2.map (fun q => q.run.log))).foldl (fun (a : Nat × Nat) e =>
    let first := (tile.2.map (fun q => q.run.st.pass)).foldl max 0 - ceilDiv k 128
    let j := e.1 - first
    let formed := formedProducts flow e.2.1 cols m tile.1
    let real := m * tile.1 * (min k (128 * (j + e.2.1)) - 128 * j)
    let gated := (formed - real) + (tile.2.map (fun q => ((q.gates.drop j).take e.2.1).sum)).sum
    (a.1 + e.2.2 * formed, a.2 + e.2.2 * gated)) (0, 0)

/-- Those of all tiles. -/
def replayed (flow k cols m : Nat) (tiles : List (Nat × List MmOut)) : Nat × Nat :=
  tiles.foldl (fun a t => let r := replayProducts flow k cols m t
    (a.1 + r.1, a.2 + r.2)) (0, 0)

/-- The counters of a unit's page for its share of an array command (R102): `two` is 2 half-beats for a whole unit, 1 for a half. -/
def Chip.unitCounts (c : Chip) (f two beats : Nat) (env : Env) (products gated replays : Nat) : Chip :=
  (((((c.count f 0 (two * beats)).count f 1 (two * env.feed)).count f 2 (two * env.drain)).count f 3 products).count f 4 gated).count f 5 replays

/-- The page counters and source 3 of a reduction on a unit (R102, R108): of the `formed` products, those beyond the `real` ones are
padding, gated wherever gating is in force (R91); `again` are the products of the replays. -/
def Chip.arrayCounts (c : Chip) (f two beats : Nat) (env : Env) (gate : Bool) (formed real : Nat) (again : Nat × Nat) (outs : List MmOut) : Chip :=
  let gated := if gate then (formed - real) + again.2 + outs.foldl (fun s q => s + q.gates.sum) 0 else 0
  let c := c.unitCounts f two beats env (formed + again.1) gated (outs.foldl (fun s q => s + q.run.log.length) 0)
  if outs.any (fun q => q.run.st.pall) then c.fire f 3 else c

/-- One output (R114-R116). -/
def mmOutput (s : MmSpec) (st : AccState) (w x : Nat → Val) : MmOut :=
  let ps := mmPasses s.k w x
  if s.int32 then
    let r := exportInt32 s.accScale ps
    let nf := (groupSum s.accScale ps .empty).2.2
    { run := { st := { st with nf := nf }, log := [], nfSeen := nf ≠ .empty }, val := Val.zero, word := r.1, bound := r.2, gates := mmGated s.k w x }
  else
    let run := accumulate s.accScale s.p ps st
    let res := run.st.result
    { run := { run with nfSeen := run.nfSeen || run.st.nf ≠ .empty || f32.nonFinite res }, val := (ofF32 res).scale s.tOut
      word := 0, bound := run.st.bound, gates := mmGated s.k w x }

/-- One unit's share of an ARRAY_MM: the outputs m0 ≤ m < m0 + mc and n0 ≤ n < n0 + nc of the command, in its own store. -/
structure MmShare where
  unit : Nat
  mc : Nat
  nc : Nat
deriving DecidableEq, Repr

/-- The shares of the units of a command (R88). -/
def Chip.mmShares (c : Chip) (x : Ctx) (p : Nat) (k : Cmd) : List MmShare :=
  let m := k.fld 22 2
  let n := k.fld 24 2
  if k.tclass = 1 then
    let s := Chip.pairSplit x k (c.fmt k p (k.fld 18 1 % 16)).isMx
    if bitField (k.fld 16 1) 1 0 = 2 then
      [{ unit := 2 * k.inst, mc := m, nc := min n s }, { unit := 2 * k.inst + 1, mc := m, nc := n - min n s }]
    else [{ unit := 2 * k.inst, mc := min m s, nc := n }, { unit := 2 * k.inst + 1, mc := m - min m s, nc := n }]
  else [{ unit := k.units.getD 0 0, mc := m, nc := n }]

/-- The runs of bytes a share reads: W, X and their scale planes (R86). -/
def Chip.mmReads (c : Chip) (p : Nat) (k : Cmd) (sh : MmShare) : List (Nat × Nat) :=
  let b := storeBase sh.unit
  let kk := k.fld 28 4
  let w := c.fmt k p (k.fld 17 1 % 16)
  let xf := c.fmt k p (k.fld 17 1 / 16)
  (List.range sh.mc).map (fun m => (b + k.fld 32 4 + 64 * k.fld 56 2 * m, w.rowBytes kk)) ++
    (List.range sh.nc).map (fun n => (b + k.fld 36 4 + 64 * k.fld 58 2 * n, xf.rowBytes kk)) ++
    (if w.isMx then [(b + k.fld 44 4, sh.mc * (kk / 32))] else []) ++
    (if xf.isMx then [(b + k.fld 48 4, sh.nc * (kk / 32))] else [])

/-- The runs of bytes a share writes: C and its scale plane (R86). -/
def Chip.mmWrites (c : Chip) (p : Nat) (k : Cmd) (sh : MmShare) : List (Nat × Nat) :=
  let b := storeBase sh.unit
  let o := c.fmt k p (k.fld 18 1 % 16)
  (List.range sh.nc).map (fun n => (b + k.fld 40 4 + 64 * k.fld 60 2 * n, o.rowBytes sh.mc)) ++
    (if o.isMx then [(b + k.fld 52 4, sh.nc * (sh.mc / 32))] else [])

/-- The outputs of a share, row n by row n (R86, R104). -/
def Chip.mmOuts (c : Chip) (x : Ctx) (p : Nat) (k : Cmd) (sh : MmShare) : List (List MmOut) :=
  let b := storeBase sh.unit
  let kk := k.fld 28 4
  let w := c.fmt k p (k.fld 17 1 % 16)
  let xf := c.fmt k p (k.fld 17 1 / 16)
  let spec : MmSpec := { k := kk, accScale := k.sfld 20, p := 2 ^ (k.fld 19 1 % 4), tOut := k.sfld 21, int32 := k.fld 18 1 % 16 = 11 }
  let kept := if bitAt (k.fld 19 1) 3 then (match tabFind c.keeps sh.unit with
    | some kp => kp.outs
    | none => []) else []
  let rd := c.rd x
  (List.range sh.nc).map (fun n => (List.range sh.mc).map (fun m =>
    mmOutput spec (kept.getD (n * sh.mc + m) AccState.start)
      (fun i => (rowElem w rd (b + k.fld 32 4 + 64 * k.fld 56 2 * m) (b + k.fld 44 4 + m * (kk / 32)) i).scale (-(k.sfld 26)))
      (fun i => (rowElem xf rd (b + k.fld 36 4 + 64 * k.fld 58 2 * n) (b + k.fld 48 4 + n * (kk / 32)) i).scale (-(k.sfld 27)))))

/-- Beats of a whole-unit or half command without replay (R89), L being its latency, and the beats of one pass. -/
def mmBeats (flow m n kp vh l commit : Nat) : Nat × Nat :=
  let a := if flow = 2 then m else n
  let d := max (divV a vh) 128
  if flow = 1 then (l + ceilDiv n 128 * max (divV (128 * kp) vh) 128 + commit, d)
  else (128 + (kp - 1) * d + divV a vh - 1 + l + commit, d)

/-- Beats the replays of a tile add (R110). -/
def replayBeats (flow d vh l : Nat) (logs : List (List (Nat × Nat))) : Nat :=
  (tileReplays logs).foldl (fun s e =>
    s + e.2.2 * (if flow = 1 then divV (128 * e.2.1) vh + l else e.2.1 * d + 127 + l)) 0

/-- Those of all tiles. -/
def tilesBeats (flow d vh l : Nat) (tiles : List (Nat × List MmOut)) : Nat :=
  (tiles.map (fun t => replayBeats flow d vh l (t.2.map (fun q => q.run.log)))).sum

/-- What one share of ARRAY_MM does: its C staged, its keep buffer, its counters; answers beats, output bytes, flags. -/
def Chip.mmShareCommit (c : Chip) (x : Ctx) (p : Nat) (k : Cmd) (env : Env) (sh : MmShare) (outs : List (List MmOut)) : Chip × Acct :=
  let b := storeBase sh.unit
  let f := (unitPage sh.unit).frame
  let o := c.fmt k p (k.fld 18 1 % 16)
  let w := c.fmt k p (k.fld 17 1 % 16)
  let xf := c.fmt k p (k.fld 17 1 / 16)
  let kk := k.fld 28 4
  let flow := bitField (k.fld 16 1) 1 0
  let half := k.half
  let vh := vHalves w xf
  let l := if half = 0 then 256 else 192
  let all := outs.flatten
  let inj := c.nfInject (unitPage sh.unit) k (sh.mc * sh.nc)
  let enc := (List.range sh.nc).map (fun n =>
    let row := outs.getD n []
    if o.code = 11 then ((row.map (fun q => leBytes 4 q.word)).flatten, [], false)
    else encodeRow o (injectAt inj sh.mc n (row.map (fun q => q.val))))
  let c := (List.range sh.nc).foldl (fun c n =>
    let e := enc.getD n ([], [], false)
    let c := c.wr x (b + k.fld 40 4 + 64 * k.fld 60 2 * n) e.1
    if o.isMx then c.wr x (b + k.fld 52 4 + n * (sh.mc / 32)) e.2.1 else c) c
  let bytes := enc.foldl (fun s e => s + e.1.length + e.2.1.length) 0
  let kp := ceilDiv kk 128
  let base := mmBeats flow sh.mc sh.nc kp vh l (ceilDiv bytes 4096)
  let tiles := mmTiles flow sh.nc outs
  let reps := all.foldl (fun s q => s + q.run.log.length) 0
  let two := if half = 0 then 2 else 1
  let beats := if sh.mc * sh.nc = 0 then 0 else base.1 + tilesBeats flow base.2 vh l tiles
  let pall := all.any (fun q => q.run.st.pall)
  let acct : Acct := { beats := beats + env.feed + env.drain, bytes64 := bytes, replays := reps, nf := all.any (fun q => q.run.nfSeen) || enc.any (fun e => e.2.2), bound := all.any (fun q => q.bound), pall := pall }
  let cols := x.fuse.wsel sh.unit (bitField (k.fld 16 1) 3 2) half
  let c := c.arrayCounts f two beats env (k.gateOn.contains sh.unit) (formedProducts flow kp cols sh.mc sh.nc) (sh.mc * sh.nc * kk)
    (replayed flow kk cols sh.mc tiles) all
  let c := c.nfDone (unitPage sh.unit) inj
  let c := if half ≠ 0 then c
    else if bitAt (k.fld 19 1) 2 then
      c.keepNew x sh.unit { owner := some p, shape := k.mmShape, outs := all.map (fun q => q.run.st) }
    else { c with keeps := tabDel c.keeps sh.unit }
  (c, acct)

/-- An account whose bytes are turned into 64-byte units (R41). -/
def Acct.in64 (a : Acct) : Acct := { a with bytes64 := ceilDiv a.bytes64 64 }

/-- Whole-unit commands clear the keep-lost mark of their cells when they commit (R326). -/
def Chip.clearKeepLost (c : Chip) (p : Nat) (k : Cmd) : Chip :=
  if k.half ≠ 0 then c else c.modPart p (fun q => { q with keepLost := q.keepLost.filter (fun u => !k.units.contains u) })

/-- A half command that fails is drained and discarded (R99). -/
def Chip.halfDiscard (c : Chip) (k : Cmd) : Chip :=
  if k.half = 0 then c
  else k.units.foldl (fun c u => ((c.count (unitPage u).frame 7 1).fire (unitPage u).frame 2)) c

/-- What a unit of the command meets. -/
def Cmd.unitEnv (k : Cmd) (env : Env) (u : Nat) : Env := env.unit (k.units.findIdx (fun v => v = u))

/-- ARRAY_MM of a running command (R85-R119). -/
def Chip.arrayMm (x : Ctx) (env : Env) (c : Chip) (k : Cmd) : Chip :=
  let p := (c.cmdPart k).getD 16
  let c := c.meets x env k
  let x := x.upset env.upsets
  let shares := c.mmShares x p k
  let writes := shares.flatMap (c.mmWrites p k)
  let r := Chip.readRuns x (c.consumer k) (shares.flatMap (fun sh => c.mmReads p k sh ++ c.keepBad x (bitAt (k.fld 19 1) 3) sh.unit) ++ partRuns writes) c
  match r.2 with
  | some f => ((r.1.broken k env).halfDiscard k).endCmd { k with acct := k.acct.plus { beats := k.envBeats env } } f.code.1 f.code.2
  | none =>
    let outs := shares.map (c.mmOuts x p k)
    let res := (shares.zip outs).foldl (fun (acc : Chip × Acct) so =>
      let q := acc.1.mmShareCommit x p k (k.unitEnv env so.1.unit) so.1 so.2
      (q.1, acc.2.plus q.2)) (Chip.coverRuns x writes r.1, {})
    (res.1.clearKeepLost p k).endCmd { k with acct := k.acct.plus res.2.in64 } 0 0

/-- ARRAY_EW of a running command (R94, R95). -/
def Chip.arrayEw (x : Ctx) (env : Env) (c : Chip) (k : Cmd) : Chip :=
  let p := (c.cmdPart k).getD 16
  let c := c.meets x env k
  let x := x.upset env.upsets
  let len := k.fld 24 4
  let add := k.fld 16 1 = 1
  let arrays := if k.fld 19 1 = 2 then 2 else 1
  let a := c.fmt k p (k.fld 17 1 % 16)
  let b := c.fmt k p (k.fld 17 1 / 16)
  let o := c.fmt k p (k.fld 18 1 % 16)
  let cf := c.fmt k p (k.fld 18 1 / 16)
  let us := k.units
  let runs (u : Nat) : List (Nat × Nat) :=
    let s := storeBase u
    [(s + k.fld 28 4, a.rowBytes len), (s + k.fld 32 4, b.rowBytes len)] ++ (if add then [(s + k.fld 36 4, cf.rowBytes len)] else []) ++
      (if a.isMx then [(s + k.fld 44 4, len / 32)] else []) ++ (if b.isMx then [(s + k.fld 48 4, len / 32)] else []) ++
      (if add && cf.isMx then [(s + k.fld 52 4, len / 32)] else [])
  let outs (u : Nat) : List (Nat × Nat) :=
    (storeBase u + k.fld 40 4, o.rowBytes len) :: (if o.isMx then [(storeBase u + k.fld 56 4, len / 32)] else [])
  c.afterIo x env k (us.flatMap runs) (us.flatMap outs) (fun c =>
    let rd := c.rd x
    let res := us.foldl (fun (acc : Chip × Acct) u =>
      let s := storeBase u
      let pg := unitPage u
      let env := k.unitEnv env u
      let vals := (List.range len).map (fun i =>
        let av := rowElem a rd (s + k.fld 28 4) (s + k.fld 44 4) i
        let bv := rowElem b rd (s + k.fld 32 4) (s + k.fld 48 4) i
        let prod := av.mul bv
        let cv := rowElem cf rd (s + k.fld 36 4) (s + k.fld 52 4) i
        (if add then prod.add cv else prod, gatedPair av bv))
      let inj := acc.1.nfInject pg k len
      let e := encodeRow o (injectAt inj len 0 (vals.map (fun v => v.1.scale (k.sfld 20))))
      let c := acc.1.wr x (s + k.fld 40 4) e.1
      let c := if o.isMx then c.wr x (s + k.fld 56 4) e.2.1 else c
      let c := c.nfDone pg inj
      let bytes := e.1.length + e.2.1.length
      let beats := ceilDiv (2 * len) (128 * arrays * vHalves a b) + 255 + ceilDiv bytes 4096
      let gated := if k.gateOn.contains u then (vals.filter (fun v => v.2)).length else 0
      let c := c.unitCounts pg.frame 2 beats env len gated 0
      (c, acc.2.plus { beats := beats + env.feed + env.drain, bytes64 := bytes, nf := e.2.2 || vals.any (fun v => !v.1.finite) })) (c, {})
    res.1.endCmd { k with acct := k.acct.plus res.2.in64 } 0 0)

/-- ARRAY_MM (R85): a running command computes C and its commit phase begins. -/
def execArrayMm (cmd : Nat) (env : Env) : State → Host.Outcome State Fault Refusal :=
  onOp cmd 0x10 (fun x => Chip.arrayMm x env)

/-- ARRAY_EW (R94). -/
def execArrayEw (cmd : Nat) (env : Env) : State → Host.Outcome State Fault Refusal :=
  onOp cmd 0x11 (fun x => Chip.arrayEw x env)

end Sys2Proof.Machine
end

