-- ==== Sys2Proof/Machine/Crypto.lean ====
section
/-! DEFINITION. The cryptography chapter 16 names: SHA-256, MGF1 with SHA-256, and the verification of RSASSA-PSS signatures
by RSA-3072 keys with public exponent 65,537 and a salt of 32 bytes. The algorithms are those the spec names by their
standards (FIPS 180-4, RFC 8017). -/

namespace Sys2Proof.Machine

/-- A 32-bit word of SHA-256. -/
abbrev ShaWord := BitVec 32

/-- The first 64 primes, up to 311. -/
def shaPrimes : List Nat := (List.range 312).filter (fun n => decide (2 ≤ n) && [2, 3, 5, 7, 11, 13, 17].all (fun d => decide (n = d) || decide (n % d ≠ 0)))

/-- The first 32 bits of the fraction of the `e`-th root of a number below 512, found bit by bit from the highest. -/
def shaRoot (e p : Nat) : ShaWord :=
  BitVec.ofNat 32 ((List.range 37).foldl (fun r i =>
    let t := r + 2 ^ (36 - i)
    if t ^ e ≤ p * 2 ^ (32 * e) then t else r) 0)

/-- The round constants: cube roots of the first 64 primes (FIPS 180-4). -/
def shaK : List ShaWord := shaPrimes.map (shaRoot 3)

/-- The working variables. -/
structure ShaState where
  a : ShaWord
  b : ShaWord
  c : ShaWord
  d : ShaWord
  e : ShaWord
  f : ShaWord
  g : ShaWord
  h : ShaWord
deriving DecidableEq, Repr

/-- The initial hash value: square roots of the first 8 primes (FIPS 180-4). -/
def shaInit : ShaState :=
  let v (p : Nat) : ShaWord := shaRoot 2 p
  { a := v 2, b := v 3, c := v 5, d := v 7, e := v 11, f := v 13, g := v 17, h := v 19 }

/-- One word of the message schedule more, the newest first. -/
def shaSchedule (ws : List ShaWord) : List ShaWord :=
  let w (i : Nat) : ShaWord := ws.getD i 0
  let s0 (x : ShaWord) : ShaWord := x.rotateRight 7 ^^^ x.rotateRight 18 ^^^ (x >>> 3)
  let s1 (x : ShaWord) : ShaWord := x.rotateRight 17 ^^^ x.rotateRight 19 ^^^ (x >>> 10)
  (s1 (w 1) + w 6 + s0 (w 14) + w 15) :: ws

/-- One round. -/
def shaRound (s : ShaState) (kw : ShaWord × ShaWord) : ShaState :=
  let e1 := s.e.rotateRight 6 ^^^ s.e.rotateRight 11 ^^^ s.e.rotateRight 25
  let t1 := s.h + e1 + ((s.e &&& s.f) ^^^ (~~~ s.e &&& s.g)) + kw.1 + kw.2
  let a0 := s.a.rotateRight 2 ^^^ s.a.rotateRight 13 ^^^ s.a.rotateRight 22
  let t2 := a0 + ((s.a &&& s.b) ^^^ (s.a &&& s.c) ^^^ (s.b &&& s.c))
  { a := t1 + t2, b := s.a, c := s.b, d := s.c, e := s.d + t1, f := s.e, g := s.f, h := s.g }

/-- One 64-byte block. -/
def shaBlock (s : ShaState) (blk : List Byte) : ShaState :=
  let ws := (List.range 16).map (fun i => BitVec.ofNat 32 (beNat ((blk.drop (4 * i)).take 4)))
  let all := ((List.range 48).foldl (fun l _ => shaSchedule l) ws.reverse).reverse
  let t := (shaK.zip all).foldl shaRound s
  { a := s.a + t.a, b := s.b + t.b, c := s.c + t.c, d := s.d + t.d, e := s.e + t.e, f := s.f + t.f, g := s.g + t.g, h := s.h + t.h }

/-- Blocks one after another. -/
def shaBlocks : Nat → ShaState → List Byte → ShaState
  | 0, s, _ => s
  | n + 1, s, bs => shaBlocks n (shaBlock s (bs.take 64)) (bs.drop 64)

/-- The `n` bytes of a number, highest first. -/
def beBytes (n v : Nat) : List Byte := (leBytes n v).reverse

/-- The padded message. -/
def shaPad (m : List Byte) : List Byte :=
  m ++ [0x80#8] ++ List.replicate ((119 - m.length % 64) % 64) 0#8 ++ beBytes 8 (8 * m.length)

/-- SHA-256. -/
def sha256 (m : List Byte) : List Byte :=
  let p := shaPad m
  let s := shaBlocks (p.length / 64) shaInit p
  [s.a, s.b, s.c, s.d, s.e, s.f, s.g, s.h].flatMap (fun w => beBytes 4 w.toNat)

/-- SHA-256 as a number, highest byte first: how the fuses hold a hash. -/
def hashNat (m : List Byte) : Nat := beNat (sha256 m)

/-- MGF1 with SHA-256. -/
def mgf1 (seed : List Byte) (n : Nat) : List Byte :=
  ((List.range (n / 32 + 1)).flatMap (fun i => sha256 (seed ++ beBytes 4 i))).take n

/-- `s ^ 65,537 mod n`. -/
def rsaPublic (n s : Nat) : Nat := ((List.range 16).foldl (fun v _ => v * v % n) s) * s % n

/-- EMSA-PSS verification of a 384-byte encoded message with emBits 3,071 and a 32-byte salt. -/
def pssVerify (em msg : List Byte) : Bool :=
  let masked := em.take 351
  let h := (em.drop 351).take 32
  let db := List.zipWith (fun a b => a ^^^ b) masked (mgf1 h 351)
  let db := match db with
    | [] => []
    | b :: l => (b &&& 0x7F#8) :: l
  let salt := db.drop 319
  (em.drop 383 == [0xBC#8]) && ((masked.headD 0).toNat < 128) && (db.take 318).all (fun b => b = 0) && ((db.drop 318).take 1 == [0x01#8]) &&
    (sha256 (List.replicate 8 0#8 ++ sha256 msg ++ salt) == h)

/-- A signature over a message verifies under a modulus of 3,072 bits (chapter 16). -/
def rsaVerify (modulus msg sig : List Byte) : Bool :=
  let n := beNat modulus
  let s := beNat sig
  decide (2 ^ 3071 ≤ n) && decide (s < n) && pssVerify (beBytes 384 (rsaPublic n s)) msg

end Sys2Proof.Machine
end

