-- ==== Sys2Proof/Machine/Dma.lean ====
section
/-! DEFINITION. The cell DMA and the host DMA (chapter 06; R134, R352): DMA_MOVE, GRADBUF_ZERO and RESID_DROP, with the
wide gradient buffer's accumulation (R128-R131), sparse deltas (R137, R138) and the residency table (R141, R142). -/

namespace Sys2Proof.Machine

/-- The runs that do not lie in the cell's own memories. -/
def foreignRuns (cell : Nat) (runs : List (Nat × Nat)) : List (Nat × Nat) :=
  runs.filter (fun r => !(endKind r.1 = .scratch cell || endKind r.1 = .wide cell))

/-- Bytes of runs. -/
def runBytes (runs : List (Nat × Nat)) : Nat := runs.foldl (fun n r => n + r.2) 0

/-! ### The wide gradient buffer (R129-R131) -/

/-- A command accumulates into, or zeroes, the wide buffer of a cell (R130, R131, R143, R197); a COLL_LAUNCH does until its local phase
has read and zeroed its source (R260). -/
def Cmd.accumulates (k : Cmd) (cell : Nat) : Bool :=
  (k.inst = cell &&
    ((k.tclass = 4 && k.opcode = 0x40 && (bitAt (k.fld 16 1) 2 || bitAt (k.fld 16 1) 3)) || (k.tclass = 4 && k.opcode = 0x41) ||
      (k.tclass = 0 && k.opcode = 0x19) || (k.tclass = 0 && k.opcode = 0x18 && bitAt (k.fld 16 1) 0))) ||
    (k.tclass = 6 && k.opcode = 0x71 && k.fld 19 1 = cell && k.stage ≤ 1)

/-- An earlier-started command of the partition that accumulates into the cell's buffer or zeroes it has not committed: this one holds its commit (R130,
R131). -/
def Chip.accumHeld (c : Chip) (k : Cmd) (cell : Nat) : Bool :=
  c.cmds.any (fun j => j.id ≠ k.id && j.phase = .running && j.accumulates cell && c.cmdPart j = c.cmdPart k && j.startAt < k.startAt)

/-- Values added into words of a cell's wide buffer from a word index on (R129): the words staged, GRADBUF_STAT.NF where a word became
non-finite, CTR7. Answers whether an infinity or a NaN was consumed or produced (R62). -/
def Chip.wideAdd (c : Chip) (x : Ctx) (cell word : Nat) (vs : List Nat) : Chip × Bool :=
  let a := wideAddr cell (4 * word)
  let sums := (List.range vs.length).map (fun i => fadd (c.rdNat x (a + 4 * i) 4) (vs.getD i 0))
  let bad (i : Nat) : Bool := f32.nonFinite (sums.getD i 0)
  let old (i : Nat) : Bool := f32.nonFinite (c.rdNat x (a + 4 * i) 4)
  let became := (List.range vs.length).any (fun i => bad i && !old i)
  let nf := (List.range vs.length).any (fun i => bad i || old i || f32.nonFinite (vs.getD i 0))
  let c := c.wr x a (sums.map (leBytes 4)).flatten
  let c := c.count (0x200 + cell) 7 vs.length
  let g := tabGet (false, false) c.tiers.gradStat cell
  if became && !g.2 then (({ c with tiers.gradStat := tabSet c.tiers.gradStat cell (g.1, true) }).fire (0x200 + cell) 2, nf) else (c, nf)

/-! ### Sparse deltas (R137, R138) -/

/-- A delta set read from memory. -/
structure Delta where
  fmt : Fmt
  replace : Bool
  t : Int
  base : Nat
  tiles : List (Nat × Nat × Nat)
deriving DecidableEq, Repr

/-- A delta set at an address: the header read before the move started (R138), and its index (R137), tiles as (row, column, offset). -/
def Chip.readDelta (c : Chip) (x : Ctx) (p : Nat) (k : Cmd) (a : Nat) : Delta :=
  let h := k.ctx.take 32
  let n := leNat ((h.drop 8).take 4)
  { fmt := c.fmt k p (h.getD 2 0).toNat, replace := (h.getD 3 0).toNat = 1, t := signedOf 8 (h.getD 4 0).toNat, base := a
    tiles := (List.range n).map (fun i =>
      let e := a + 32 + 8 * i
      (c.rdNat x (e + 2) 2, c.rdNat x e 2, 64 * c.rdNat x (e + 4) 4)) }

/-- The index breaks R138: not ascending, a tile wholly outside the matrix, or data before the end of the index. -/
def Delta.indexBad (d : Delta) (rows cols : Nat) : Bool :=
  let key (t : Nat × Nat × Nat) : Nat := t.1 * 65536 + t.2.1
  (d.tiles.zip (d.tiles.drop 1)).any (fun e => key e.2 ≤ key e.1) ||
    d.tiles.any (fun t => rows ≤ 128 * t.1 || cols ≤ 128 * t.2.1 || t.2.2 < 32 + 8 * d.tiles.length)

/-- Bytes of a tile with its scale plane. -/
def Delta.tileBytes (d : Delta) : Nat := d.fmt.rowBytes (128 * 128) + d.fmt.scaleBytes (128 * 128)

/-- The bytes of the index. -/
def Delta.idxRun (d : Delta) : Nat × Nat := (d.base + 32, 8 * d.tiles.length)

/-- The bytes of the tiles. -/
def Delta.tileRuns (d : Delta) : List (Nat × Nat) := d.tiles.map (fun t => (d.base + t.2.2, d.tileBytes))

/-- What the tiles' bytes fail on when they are read (R138): ADDR_ERROR, or ACCESS_ERROR for memory the partition may not read or a wide
buffer that is not `own` (R128). -/
def Chip.tilesFail (c : Chip) (p : Nat) (own : Option Nat) (runs : List (Nat × Nat)) : Option (Nat × Nat) :=
  firstFail [ failIf (runs.any (fun r => (c.region r.1 r.2).isNone)) 1 0,
    failIf (runs.any (fun r => !c.partMay p r.1 r.2 false || wideElsewhere own r.1)) 2 0 ]

/-- The delta applied to the exact value of source element (i, j): the tile that covers it, if any (R138). -/
def Delta.apply (d : Delta) (rd : Nat → Byte) (i j : Nat) (v : Val) : Val × Bool :=
  match d.tiles.find? (fun t => t.1 = i / 128 && t.2.1 = j / 128) with
  | none => (v, false)
  | some t =>
    let at_ := d.base + t.2.2
    let e := (rowElem d.fmt rd at_ (at_ + d.fmt.rowBytes 16384) (i % 128 * 128 + j % 128)).scale (-d.t)
    (if d.replace then e else v.add e, true)

/-! ### DMA_MOVE (R135) -/

/-- A source element's bits. -/
def MoveEnd.bits (e : MoveEnd) (rd : Nat → Byte) (i j : Nat) : Nat := elemBits rd (e.row i) e.fmt.elem j

/-- The scale byte of a source element's block. -/
def MoveEnd.scale (e : MoveEnd) (rd : Nat → Byte) (i j : Nat) : Nat := (rd (e.aux + i * e.auxRow + j / 32)).toNat

/-- A source element's exact value (R61, R63). -/
def MoveEnd.val (e : MoveEnd) (rd : Nat → Byte) (i j : Nat) : Val :=
  if e.fmt.isMx then e.fmt.decodeElem (e.scale rd i j) (e.bits rd i j) else e.fmt.decode (e.bits rd i j)

/-- One destination row: element bytes, aux bytes, NF_SEEN (R135). -/
def moveRow (s d : MoveEnd) (rd : Nat → Byte) (transpose : Bool) (ts td : Int) (delta : Option Delta) (i : Nat) :
    List Byte × List Byte × Bool :=
  let same := s.fmt = d.fmt && ts = td && !transpose
  if same && delta.isNone then
    ((List.range s.rowBytes).map (fun b => rd (s.row i + b)), (List.range s.auxRow).map (fun b => rd (s.aux + i * s.auxRow + b)), false)
  else if s.fmt = d.fmt && s.fmt.cls = 3 then
    (((List.range d.rowLen).map (fun j => leBytes 4 (s.bits rd (if transpose then j else i) (if transpose then i else j)))).flatten, [], false)
  else
    let src (j : Nat) : Nat × Nat := if transpose then (j, i) else (i, j)
    let vals := (List.range d.rowLen).map (fun j =>
      let q := src j
      let v := (s.val rd q.1 q.2).scale (-ts)
      match delta with
      | none => (v, false)
      | some dl => dl.apply rd q.1 q.2 v)
    let enc := encodeRow d.fmt (vals.map (fun v => v.1.scale td))
    if same then
      if s.fmt.isMx then
        let blk := chunks 32 (d.rowLen + 1) vals
        let w := d.fmt.rowBytes 32
        let keep (b : Nat) : Bool := !(blk.getD b []).any (fun v => v.2)
        let els := ((List.range (d.rowLen / 32)).map (fun b =>
          if keep b then (List.range w).map (fun t => rd (s.row i + w * b + t)) else (enc.1.drop (w * b)).take w)).flatten
        let scs := (List.range (d.rowLen / 32)).map (fun b => if keep b then rd (s.aux + i * s.auxRow + b) else enc.2.1.getD b 0)
        let nf := (List.range (d.rowLen / 32)).any (fun b => !keep b && (encodeRow d.fmt ((blk.getD b []).map (fun v => v.1.scale td))).2.2)
        (els, scs, nf)
      else
        let els := packBits d.fmt.elem ((List.range d.rowLen).map (fun j =>
          let v := vals.getD j (Val.zero, false)
          if v.2 then d.fmt.encode (v.1.scale td) else s.bits rd i j))
        (els, [], vals.any (fun v => v.2 && (!v.1.finite || d.fmt.nonFinite (d.fmt.encode (v.1.scale td)))))
    else enc

/-- The host's bytes as a source: the runs of the host end laid one after another. -/
def hostByte (runs : List (Nat × Nat)) (data : List Byte) (a : Nat) : Byte :=
  (runs.foldl (fun (acc : Nat × Option Byte) r =>
    if acc.2.isSome then acc
    else if r.1 ≤ a && a < r.1 + r.2 then (acc.1, some (data.getD (acc.1 + (a - r.1)) 0)) else (acc.1 + r.2, none)) (0, none)).2.getD 0

/-- A residency entry created for a move that completed (R141). -/
def Chip.addResid (c : Chip) (cell p tag off len : Nat) : Chip :=
  let l := (tabGet [] c.tiers.resid cell).filter (fun r => !(r.part = p && r.tag = tag))
  let c := if 64 ≤ l.length then c.count (0x200 + cell) 5 1 else c
  { c with tiers.resid := tabSet c.tiers.resid cell ({ part := p, tag := tag, off := off, len := len } :: l.take 63) }

/-- The address of the line a source element comes from. -/
def MoveEnd.lineOf (e : MoveEnd) (i j : Nat) : Nat := (e.row i + j * e.fmt.elem / 8) / 64 * 64

/-- A copy move (R135): equal formats and T fields, no delta, and no MX block transposed. -/
def Cmd.copyMove (k : Cmd) (s d : MoveEnd) : Bool :=
  s.fmt = d.fmt && k.sfld 18 = k.sfld 19 && !bitAt (k.fld 16 1) 1 && !(bitAt (k.fld 16 1) 0 && s.fmt.isMx)

/-- The line of the aux plane that holds byte `b` of row `i`. -/
def MoveEnd.auxLine (e : MoveEnd) (i b : Nat) : Nat := (e.aux + i * e.auxRow + b) / 64 * 64

/-- The lines of a destination row, and of its aux plane, that poisoned source lines feed (R409). A copy's elements and aux bytes come
each from its own plane; a conversion's elements take their source block's scale, and a written scale every element of its block. -/
def poisonedRow (s d : MoveEnd) (bad : Nat → Bool) (transpose copy : Bool) (i : Nat) : List Nat × List Nat :=
  let fed := (List.range d.rowLen).filter (fun j =>
    let q := if transpose then (j, i) else (i, j)
    bad (s.lineOf q.1 q.2) || (!copy && s.fmt.isMx && bad (s.auxLine q.1 (q.2 / 32))))
  (fed.map (d.lineOf i),
    if copy then (List.range d.auxRow).filterMap (fun b => if bad (s.auxLine i b) then some (d.auxLine i b) else none)
    else if d.fmt.isMx then fed.map (fun j => d.auxLine i (j / 32)) else [])

/-- Every destination line that is written poisoned. -/
def poisonedLines (s d : MoveEnd) (bad : Nat → Bool) (transpose copy : Bool) : List Nat :=
  ((List.range d.rows).flatMap (fun i => (poisonedRow s d bad transpose copy i).1 ++ (poisonedRow s d bad transpose copy i).2)).eraseDups

/-- Host DMA data writes of a function carry Relaxed Ordering: FN_CTRL and the configuration space both allow it (R336, R350). -/
def Chip.relaxed (c : Chip) (fn : Nat) : Bool := (c.fnRegs fn).roEn && bitAt (c.cfgBits fn 0x078) 4

/-- A run of bytes written to the host, as its data alone, or line by line where lines of it are fed by poison: those carry the poisoned
bit (R409). -/
def Chip.hostPut (c : Chip) (fn a : Nat) (bytes : List Byte) (bad : List Nat) : Chip :=
  if bytes.isEmpty then c
  else if bad.isEmpty then c.send (.hostWrite fn a bytes false (c.relaxed fn))
  else (linesOf a bytes.length).foldl (fun c l =>
    let lo := max a l
    c.send (.hostWrite fn lo ((bytes.drop (lo - a)).take (min (a + bytes.length) (l + 64) - lo)) (bad.contains l) (c.relaxed fn))) c

/-- The status of a failed host read (R352). -/
def hostFailure : HostRead → Option (Nat × Nat)
  | .data _ => none
  | .unsupported => some (1, 1)
  | .abort => some (1, 2)
  | .timeout => some (1, 3)
  | .poisoned => some (8, 0)

/-- Reads of host memory asked with the requester ID of a function (R338). -/
def Chip.askHost (c : Chip) (fn : Nat) (runs : List (Nat × Nat)) : Chip :=
  runs.foldl (fun c r => if r.2 = 0 then c else c.send (.hostRead fn r.1 r.2)) c

/-- A move that has started fails: its destination is spoiled (R39), the failure recorded. -/
def Chip.failMove (c : Chip) (x : Ctx) (k : Cmd) (st dt : Nat) : Chip := ((c.zeroRead x k).spoilMove x k).endCmd k st dt

/-- The bytes of runs that lie in a wide gradient buffer, and of the others. -/
def wideSplit (runs : List (Nat × Nat)) : Nat × Nat :=
  let wide (r : Nat × Nat) : Bool := match endKind r.1 with
    | .wide _ => true
    | _ => false
  (runBytes (runs.filter wide), runBytes (runs.filter (fun r => !wide r)))

/-- Beats of a cell DMA's transfer (R139): 256 bytes a beat each way through its port; a scratchpad takes 128 a beat transposed; a wide
buffer moves 1,024 (R128). -/
def moveBeats (ins outs : List (Nat × Nat)) (transpose : Bool) : Nat :=
  let rate := match outs.head?.map (fun r => endKind r.1) with
    | some (.scratch _) => if transpose then 128 else 256
    | _ => 256
  max (max (ceilDiv (wideSplit ins).2 256) (ceilDiv (wideSplit ins).1 1024)) (max (ceilDiv (wideSplit outs).2 rate) (ceilDiv (wideSplit outs).1 1024))

/-- DMA_MOVE of a running command (R133-R142). It holds while an earlier accumulation runs (R130) or its partition's
regulators have no level left (R319). -/
def Chip.dmaMove (x : Ctx) (env : Env) (c : Chip) (k : Cmd) : Chip :=
  let p := (c.cmdPart k).getD 16
  let c := c.meets x env k
  let x := x.upset env.upsets
  let mode := k.fld 16 1
  let s := c.moveSrc p k
  let d := c.moveDst p k
  let t := bitAt mode 0
  let tag := k.fld 30 2
  let hull := d.hull
  let off := hull.1 % 0x1000000
  let cell := k.inst
  let hit := bitAt mode 4 && (tabGet [] c.tiers.resid cell).any (fun r => r.part = p && r.tag = tag && r.off = off && r.len = hull.2)
  let srcRuns := if s.host then [] else s.runs
  let dstRuns := if d.host then [] else d.runs
  let da := k.fld 56 8
  let delta : Option Delta := if bitAt mode 1 && !hit then some (c.readDelta x p k da) else none
  let idxRuns : List (Nat × Nat) := delta.elim [] (fun dl => [dl.idxRun])
  let tileRuns : List (Nat × Nat) := delta.elim [] Delta.tileRuns
  if (bitAt mode 2 || bitAt mode 3) && c.accumHeld k cell then c
  else if !(c.dramLets p (srcRuns ++ idxRuns ++ tileRuns) && c.dramLets p dstRuns) || (k.tclass = 5 && !c.regLets p (3 + cell)) then c
  else if hit then
    let l := tabGet [] c.tiers.resid cell
    let same (r : Resid) : Bool := r.part = p && r.tag = tag
    let c := { c with tiers.resid := tabSet c.tiers.resid cell (l.filter same ++ l.filter (fun r => !same r)) }
    (c.count (0x200 + cell) 4 1).endCmd k 0 0
  else
    let c := if s.host then c.askHost k.fn s.runs else c
    match (if s.host then hostFailure env.host else none) with
    | some f => (c.count (0x010 + cell) 6 1).failMove x k f.1 f.2
    | none =>
      let idx := Chip.readRuns x (c.consumer k) idxRuns c
      let fail := firstFail [ idx.2.map ReadFault.code, failIf (delta.any (fun dl => dl.indexBad s.rows s.rowLen)) 5 56, c.tilesFail p k.wideOwn tileRuns ]
      let c := idx.1
      match fail with
      | some f => c.failMove x k f.1 f.2
      | none =>
        let rmw := if bitAt mode 2 then dstRuns else partRuns dstRuns
        let lines := ((srcRuns ++ tileRuns ++ rmw).flatMap (fun r => linesOf r.1 r.2)).eraseDups
        let src := (srcRuns.flatMap (fun r => linesOf r.1 r.2)).eraseDups
        let (c, x) := c.onRead x (some p) lines
        let poisonedSrc := src.filter (fun a => c.lineHealth x a = .poison)
        let r := Chip.readLines x (c.consumer k) (lines.filter (fun a => !poisonedSrc.contains a)) c
        match r.2 with
        | some f => r.1.failMove x k f.code.1 f.code.2
        | none =>
          let c := Chip.coverRuns x (if bitAt mode 2 then [] else dstRuns) (poisonedSrc.foldl (fun c a => (c.tierLine a false).poisonRead x a (c.consumer k)) r.1)
          let hostBytes := match env.host with
            | .data b => b
            | _ => []
          let rd (a : Nat) : Byte := if s.host then hostByte s.runs hostBytes a else c.rd x a
          let rows := (List.range d.rows).map (moveRow s d rd t (k.sfld 18) (k.sfld 19) delta)
          let ins := s.runs ++ k.startRuns ++ idxRuns ++ tileRuns
          let inBytes := runBytes ins
          let outBytes := runBytes d.runs
          let nf := rows.any (fun q => q.2.2)
          let zero (c : Chip) : Chip := if bitAt mode 3 then s.runs.foldl (fun c r => c.wr x r.1 (List.replicate r.2 0)) (Chip.coverRuns x s.runs c) else c
          let c := zero c
          let (c, nf) := if bitAt mode 2 then
              (List.range d.rows).foldl (fun (acc : Chip × Bool) i =>
                let q := acc.1.wideAdd (x.now acc.1) cell ((d.row i - wideAddr cell 0) / 4) ((chunks 4 (4 * d.rowLen + 1) (rows.getD i ([], [], false)).1).map leNat)
                (q.1, acc.2 || q.2)) (c, nf)
            else
              ((List.range d.rows).foldl (fun c i =>
                let q := rows.getD i ([], [], false)
                let bad := if poisonedSrc.isEmpty then ([], []) else poisonedRow s d (fun a => poisonedSrc.contains a) t (k.copyMove s d) i
                if d.host then (c.hostPut k.fn (d.row i) q.1 bad.1).hostPut k.fn (d.aux + i * d.auxRow) q.2.1 bad.2
                else (c.wr x (d.row i) q.1).wr x (d.aux + i * d.auxRow) q.2.1) c, nf)
          let c := if d.host || poisonedSrc.isEmpty then c
            else (poisonedLines s d (fun a => poisonedSrc.contains a) t (k.copyMove s d)).foldl (fun c l => c.stage (.health (c.key x.fuse l / 64) .poison)) (c.spoilMove x k)
          let c := c.tierWrites dstRuns
          let c := (c.dramCharge p (srcRuns ++ idxRuns ++ tileRuns)).dramCharge p dstRuns
          let c := if k.tclass = 5 then (c.count (0x010 + cell) 4 (ceilDiv (max inBytes outBytes) 64)).regTake p (3 + cell) (ceilDiv (max inBytes outBytes) 64)
            else
              let c := (c.count (0x200 + cell) 0 (ceilDiv (runBytes (foreignRuns cell ins)) 64)).count (0x200 + cell) 1
                (ceilDiv (runBytes (foreignRuns cell d.runs)) 64)
              (match delta with
                | some dl => c.count (0x200 + cell) 6 dl.tiles.length
                | none => c)
          let beats := moveBeats ins d.runs t + env.feed + env.drain
          let k := { k with acct := k.acct.plus { beats := beats, bytes64 := ceilDiv inBytes 64, nf := nf } }
          if !poisonedSrc.isEmpty then c.endCmd k 8 0
          else (if tag ≠ 0 && k.tclass = 4 then c.addResid cell p tag off hull.2 else c).endCmd k 0 0

/-- GRADBUF_ZERO of a running command (R131, R143): it takes its place in the commit order of R130. -/
def Chip.gradZero (x : Ctx) (c : Chip) (k : Cmd) : Chip :=
  let cell := k.inst
  if c.accumHeld k cell then c
  else
    let off := k.fld 16 4
    let len := k.fld 20 4
    let c := c.wr x (wideAddr cell off) (List.replicate len 0)
    let c := if off = 0 && len = 0x200000 then { c with tiers.gradStat := tabDel c.tiers.gradStat cell } else c
    c.endCmd { k with acct := { k.acct with beats := k.acct.beats + len / 1024, bytes64 := k.acct.bytes64 + len / 64 } } 0 0

/-- RESID_DROP of a running command (R143). -/
def Chip.residDrop (c : Chip) (k : Cmd) : Chip :=
  let p := (c.cmdPart k).getD 16
  let tag := k.fld 16 2
  let l := tabGet [] c.tiers.resid k.inst
  ({ c with tiers.resid := tabSet c.tiers.resid k.inst (l.filter (fun r => !(r.part = p && (tag = 0 || r.tag = tag)))) }).endCmd k 0 0

/-- DMA_MOVE (R133). -/
def execDmaMove (cmd : Nat) (env : Env) : State → Host.Outcome State Fault Refusal :=
  onOp cmd 0x40 (fun x => Chip.dmaMove x env)

/-- GRADBUF_ZERO (R143). -/
def execGradbufZero (cmd : Nat) : State → Host.Outcome State Fault Refusal :=
  onOp cmd 0x41 Chip.gradZero

/-- RESID_DROP (R143). -/
def execResidDrop (cmd : Nat) : State → Host.Outcome State Fault Refusal :=
  onOp cmd 0x42 (fun _ => Chip.residDrop)

end Sys2Proof.Machine
end

