-- ==== Sys2Proof/Machine/LinkPort.lean ====
section
/-! DEFINITION. The link ports (R223-R238, R249): training by the state table, flits with their CRC, retry, credits and the
arbitration of an output port. -/

namespace Sys2Proof.Machine

/-! ### Flits (R229) -/

/-- Eight steps of the reflected CRC-64 polynomial. -/
def crc64Byte (crc : BitVec 64) (b : Byte) : BitVec 64 :=
  (List.range 8).foldl (fun (r : BitVec 64) _ => if r.getLsbD 0 then (r >>> 1) ^^^ 0xC96C5795D7870F42#64 else r >>> 1)
    (crc ^^^ b.setWidth 64)

/-- The CRC-64 of a flit's first 248 bytes: polynomial 0x42F0_E1EB_A9EA_3693 reflected. -/
def crc64 (bs : List Byte) : Nat := ((bs.foldl crc64Byte 0xFFFFFFFFFFFFFFFF#64) ^^^ 0xFFFFFFFFFFFFFFFF#64).toNat

/-- A flit's fields (R229). -/
structure Flit where
  kind : Nat
  seq : Nat
  ack : Nat
  ackValid : Bool
  nak : Bool
  vc : Nat
  sop : Bool
  eop : Bool
  len : Nat
  crVc : Nat
  crTotal : Nat
  payload : List Byte
deriving DecidableEq, Repr

/-- The 256 bytes of a flit. -/
def Flit.bytes (f : Flit) : List Byte :=
  let b := leBytes 2 (f.kind * 2 ^ 12 + f.seq) ++ leBytes 2 (f.ack + 2 ^ 12 * flagNat f.ackValid + 2 ^ 13 * flagNat f.nak) ++
    leBytes 1 (f.vc + 8 * flagNat f.sop + 16 * flagNat f.eop) ++ leBytes 1 f.len ++ leBytes 2 (f.crVc * 2 ^ 13 + f.crTotal) ++
    (f.payload ++ List.replicate (240 - f.payload.length) 0)
  b ++ leBytes 8 (crc64 b)

/-- A flit read from 256 bytes. -/
def flitOfBytes (b : List Byte) : Flit :=
  let f (o n : Nat) : Nat := leNat ((b.drop o).take n)
  { kind := f 0 2 / 2 ^ 12, seq := f 0 2 % 2 ^ 12, ack := f 2 2 % 2 ^ 12, ackValid := bitAt (f 2 2) 12, nak := bitAt (f 2 2) 13
    vc := f 4 1 % 8, sop := bitAt (f 4 1) 3, eop := bitAt (f 4 1) 4, len := f 5 1, crVc := f 6 2 / 2 ^ 13, crTotal := f 6 2 % 2 ^ 13
    payload := (b.drop 8).take 240 }

/-- A flit is bad: its CRC, a reserved KIND, or a LEN outside its range (R229). -/
def flitBad (b : List Byte) : Bool :=
  let f := flitOfBytes b
  b.length ≠ 256 || leNat ((b.drop 248).take 8) ≠ crc64 (b.take 248) || 3 ≤ f.kind ||
    (if f.kind = 1 then f.len = 0 || 240 < f.len else f.len ≠ 0)

/-! ### Packets (R243) -/

/-- `n` bytes of a packet's header. -/
def Packet.fld (p : Packet) (off n : Nat) : Nat := p.hdr.toNat / 2 ^ (8 * off) % 2 ^ (8 * n)

/-- TYPE. -/
def Packet.type (p : Packet) : Nat := p.fld 0 1
/-- VC. -/
def Packet.vc (p : Packet) : Nat := p.fld 1 1 % 8
/-- POISON. -/
def Packet.poison (p : Packet) : Bool := bitAt (p.fld 1 1) 3
/-- SRC. -/
def Packet.src (p : Packet) : Nat := p.fld 2 2 % 4096
/-- DST. -/
def Packet.dst (p : Packet) : Nat := p.fld 4 2 % 4096
/-- TAG. -/
def Packet.tag (p : Packet) : Nat := p.fld 8 4
/-- DOMAIN. -/
def Packet.domain (p : Packet) : Nat := p.fld 12 2
/-- FLOW. -/
def Packet.flow (p : Packet) : Nat := p.fld 14 2
/-- ADDR. -/
def Packet.addr (p : Packet) : Nat := p.fld 16 8
/-- LEN. -/
def Packet.len (p : Packet) : Nat := p.fld 24 2
/-- COUNT. -/
def Packet.count (p : Packet) : Nat := p.fld 26 2
/-- COLL. -/
def Packet.coll (p : Packet) : Nat := p.fld 28 4

/-- The fields of a packet as the source writes them. -/
structure PacketSpec where
  type : Nat
  vc : Nat
  poison : Bool := false
  dst : Nat
  op : Nat := 0
  tag : Nat := 0
  domain : Nat
  flow : Nat
  addr : Nat := 0
  len : Nat := 0
  count : Nat := 0
  coll : Nat := 0
  data : List Byte := []
deriving DecidableEq, Repr

/-- A packet with its source and HOP_LIMIT 255 (R243). -/
def PacketSpec.make (s : PacketSpec) (src : Nat) : Packet :=
  { hdr := BitVec.ofNat 256 (leNat (leBytes 1 s.type ++ leBytes 1 (s.vc + 8 * flagNat s.poison) ++ leBytes 2 src ++ leBytes 2 s.dst ++
      leBytes 1 255 ++ leBytes 1 s.op ++ leBytes 4 s.tag ++ leBytes 2 s.domain ++ leBytes 2 s.flow ++ leBytes 8 s.addr ++
      leBytes 2 s.len ++ leBytes 2 s.count ++ leBytes 4 s.coll))
    data := s.data }

/-- The bytes of a packet on the wire. -/
def Packet.bytes (p : Packet) : List Byte := leBytes 32 p.hdr.toNat ++ p.data

/-- Flits of a packet (R238). -/
def Packet.flits (p : Packet) : Nat := ceilDiv (32 + p.data.length) 240

/-- Flits of a packet as its header announces them: a READ carries no data (R238, R243). -/
def Packet.announced (p : Packet) : Nat := ceilDiv (32 + (if p.type = 2 then 0 else p.len)) 240

/-- The packet that the payloads of flits carry. -/
def packetOf (fs : List (List Byte)) : Packet := { hdr := BitVec.ofNat 256 (leNat (fs.flatten.take 32)), data := fs.flatten.drop 32 }

/-- A received packet, as far as it has come. -/
def RxPacket.pkt (q : RxPacket) : Packet := packetOf q.flits

/-- The payloads of a packet's flits. -/
def Packet.payloads (p : Packet) : List (List Byte) := chunks 240 (p.flits + 1) p.bytes

/-- The VC carries the type (R235). -/
def Packet.vcOk (p : Packet) : Bool :=
  match p.type with
  | 1 => p.vc = 0 || p.vc = 4 || p.vc = 5
  | 2 => p.vc = 1
  | 3 => p.vc = 0
  | 4 => p.vc = 3 || p.vc = 7
  | 5 => p.vc = 6 || p.vc = 7
  | 8 => p.vc = 2
  | _ => false

/-! ### Ports -/

/-- A port. -/
def Chip.link (c : Chip) (n : Nat) : LinkPort := tabGet {} c.links.ports n

/-- A port replaced. -/
def Chip.putLink (c : Chip) (n : Nat) (p : LinkPort) : Chip := { c with links.ports := tabSet c.links.ports n p }

/-- The frame of a port's page. -/
def linkFrame (n : Nat) : Nat := 0x0A0 + n

/-- The frame of the VETCH_FAB page. -/
def fabFrame : Nat := 0x00A

/-- The entry of the port's current state as the table has it: as entered, or, if no bank was active then, from the active one (R226). -/
def Chip.portRaw (c : Chip) (p : LinkPort) : List Byte :=
  match p.entry with
  | some e => e
  | none => (match c.active (tableKey 6 16 0) with
    | some im => im.entry 32 p.state
    | none => List.replicate 32 0)

/-- A field of a state entry. -/
def entryFld (e : List Byte) (off n : Nat) : Nat := leNat ((e.drop off).take n)

/-- A reserved value in a state entry (R226). -/
def entryBad (e : List Byte) : Bool :=
  let act := entryFld e 0 1
  let fl := entryFld e 1 1
  8 ≤ act || 16 ≤ fl || (bitAt fl 0 && !(act = 6 || act = 7)) || 64 ≤ entryFld e 8 1 ||
    (List.range 4).any (fun i => 15 ≤ entryFld e (16 + 4 * i) 1 || 64 ≤ entryFld e (17 + 4 * i) 1)

/-- The entry the port acts by: one with a reserved value does nothing (R226). -/
def Chip.portEntry (c : Chip) (p : LinkPort) : List Byte := if entryBad (c.portRaw p) then List.replicate 32 0 else c.portRaw p

/-- ACTION of the port's state. -/
def Chip.portAction (c : Chip) (p : LinkPort) : Nat := entryFld (c.portEntry p) 0 1

/-- LINK_UP (R250). -/
def Chip.linkUp (c : Chip) (n : Nat) : Bool := bitAt (entryFld (c.portEntry (c.link n)) 1 1) 0

/-- The PART page of a partition. -/
def partFrame (p : Nat) : Nat := 0x020 + p

/-! ### Overcommitment (R320) -/

/-- The sum of RATE of a regulator over all partitions. -/
def Chip.rateSum (c : Chip) (i : Nat) : Nat := (c.parts.map (fun e => (e.2.regs.getD i (0, 0)).1)).foldl (· + ·) 0

/-- The DDR5 peak of R156 in tenths of GB/s: 51.2 GB/s a channel at 6,400 MT/s. -/
def Chip.ddrPeak (c : Chip) : Nat := (c.tiers.ddrChannels.map (fun ch => (c.tier (16 + ch)).speed * 8 / 100)).foldl (· + ·) 0

/-- The assured PCIe rate of a port (R320); a degraded port is assured none (R337), nor is one whose link is down. -/
def pcieAssured (p : PciePort) : Nat :=
  if p.degraded || !p.linkUp then 0 else if p.rate = 6 then 112 else if p.rate = 5 then 56 else if p.rate = 4 then 28 else 0

/-- Some resource's RATE sum exceeds its assured rate (R320). -/
def Chip.overcommitted (c : Chip) : Bool :=
  let up (w : Nat) : Nat := ((List.range 24).filter (fun n => c.linkUp n && (c.link n).width = w)).length
  24000 < c.rateSum 0 || c.ddrPeak * 8 < 100 * c.rateSum 1 || 350 * up 8 + 175 * up 4 < 2 * c.rateSum 2 ||
    pcieAssured (c.port 0) < c.rateSum 3 || pcieAssured (c.port 1) < c.rateSum 4

/-- OVERCOMMIT of every partition follows; source 6 fires when it begins (R320). -/
def Chip.noteOvercommit (c : Chip) : Chip :=
  let isOver := c.overcommitted
  c.parts.foldl (fun (c : Chip) e =>
    let c := c.modPart e.1 (fun q => { q with overcommit := isOver })
    if isOver && !e.2.overcommit then c.fire (partFrame e.1) 6 else c) c

/-! ### Discards (R236, R249) -/

/-- A flit of a VC's receive buffer is freed: its cumulative return count rises (R236). -/
def Chip.freeFlits (c : Chip) (n vc k : Nat) : Chip :=
  let p := c.link n
  c.putLink n { p with crTotal := listSet p.crTotal vc ((p.crTotal.getD vc 0 + k) % 8192) }

/-- Flits freed in the receive buffer a queued packet came by. -/
def Chip.freeFrom (c : Chip) (o : Option (Nat × Nat)) (k : Nat) : Chip := o.elim c (fun e => c.freeFlits e.1 e.2 k)

/-- A packet queued at an output port that is still arriving by a port and VC (R238). -/
def TxPacket.arriving (q : TxPacket) (n vc : Nat) : Bool := q.more ≠ 0 && q.origin = some (n, vc)

/-- The packet still arriving on a VC of a port is dropped, wherever its first flits are (R249). -/
def Chip.dropArriving (c : Chip) (n vc : Nat) : Chip :=
  let p := c.link n
  match tabFind p.cut vc with
  | some m =>
    let c := c.putLink n { p with cut := tabDel p.cut vc }
    let l := c.link m
    let qs := tabGet [] l.txQueue vc
    let gone := (qs.filter (fun q => q.arriving n vc)).foldl (fun k q => k + q.flits.length) 0
    ((c.putLink m { l with txQueue := tabSet l.txQueue vc (qs.filter (fun q => !q.arriving n vc)) }).freeFlits n vc gone).count (linkFrame n) 7 1
  | none =>
    match p.rxQueue.find? (fun q => !q.whole && q.vc = vc) with
    | some q => ((c.putLink n { p with rxQueue := p.rxQueue.filter (fun q => q.whole || q.vc ≠ vc) }).freeFlits n vc q.flits.length).count (linkFrame n) 7 1
    | none => c

/-- What a port received before its link starts fresh returns no credit any more (R249). -/
def Chip.forgetOrigins (c : Chip) (n : Nat) : Chip :=
  { c with
    links.inbox := c.links.inbox.map (fun p => if p.origin.any (fun o => o.1 = n) then { p with origin := none } else p)
    links.ports := c.links.ports.map (fun e => (e.1, { e.2 with
      txQueue := e.2.txQueue.map (fun q => (q.1, q.2.map (fun t => if t.origin.any (fun o => o.1 = n) then { t with origin := none } else t)))
      rxQueue := if e.1 = n then e.2.rxQueue.map (fun q => { q with old := true }) else e.2.rxQueue })) }

/-- The discard of R249: the replay buffer and the packets under way in either direction are dropped and counted, credits and sequence
numbers reset. -/
def Chip.discardPort (c : Chip) (n : Nat) : Chip :=
  let c := (List.range 8).foldl (fun c v => c.dropArriving n v) c
  let started := (c.link n).txQueue.flatMap (fun e => e.2.filter (fun q => q.started))
  let c := started.foldl (fun c q => c.freeFrom q.origin q.flits.length) c
  let p := c.link n
  ((c.putLink n { p with
    replay := [], replayAt := none, txQueue := p.txQueue.map (fun e => (e.1, e.2.filter (fun q => !q.started))), expected := 0
    nakPending := false, sendNak := false, accepted := false, seq := 0, credit := [0, 0, 0, 0, 0, 0, 0, 0]
    peerCr := [0, 0, 0, 0, 0, 0, 0, 0], crTotal := [0, 0, 0, 0, 0, 0, 0, 0], consec := 0, replayed := false, idleAck := 0
    rrUsed := [0, 0, 0, 0, 0, 0, 0] }).forgetOrigins n).count (linkFrame n) 7 ((p.replay.filter (fun f => f.eop)).length + started.length)

/-- A bad table value (R226): TABLE_ERR and a log entry. -/
def Chip.tableErr (c : Chip) (n : Nat) : Chip :=
  (c.putLink n { c.link n with tableErr := true }).log (linkFrame n) { cls := 0x06, sev := 1, unit := n }

/-- A state entered (R225-R228, R249): its flags act, the timer restarts, EXCHANGE latches the port's own values, and
the links' assured rate follows (R320). -/
def Chip.enterState (c : Chip) (n s : Nat) : Chip :=
  let im := c.active (tableKey 6 16 0)
  let get (i : Nat) : List Byte := match im with
    | some q => q.entry 32 i
    | none => List.replicate 32 0
  let bad := entryBad (get s)
  let c := if bad then c.tableErr n else c
  let s := if bad then 0 else s
  let raw := get s
  let e := if entryBad raw then List.replicate 32 0 else raw
  let fl := entryFld e 1 1
  let wasUp := c.linkUp n
  let c := if bitAt fl 1 then c.discardPort n else c
  let p := c.link n
  let exchange := entryFld e 0 1 = 5
  let p := { p with
    state := s, entry := if im.isSome then some raw else none, gen := im.map (fun q => q.gen), enteredAt := c.time, retrain := false
    attempts := if bitAt fl 3 then 0 else if bitAt fl 2 then p.attempts + 1 else p.attempts
    canResume := if bitAt fl 1 then false else p.canResume || bitAt fl 0
    latched := if exchange then some (c.links.deviceId, p.cfg, p.alloc) else p.latched
    lastTrain := if exchange then none else p.lastTrain, peerSeen := if exchange then none else p.peerSeen, trainOk := if exchange then false else p.trainOk, rxOk := if exchange then false else p.rxOk
    lanes := if entryFld e 0 1 = 0 then 0 else p.lanes, width := if entryFld e 0 1 = 0 then 0 else p.width }
  let c := (c.putLink n p).drainShadows
  let c := if bitAt fl 2 then (c.count (linkFrame n) 6 1).fire (linkFrame n) 4 else c
  let c := if bitAt fl 0 && !wasUp then c.fire (linkFrame n) 2 else c
  let c := if bitAt fl 0 && !wasUp && p.width = 4 then (c.log (linkFrame n) { cls := 5, sev := 2, unit := n }).fire (linkFrame n) 5 else c
  (if bitAt fl 1 && wasUp then (c.log (linkFrame n) { cls := 5, sev := 2, unit := n, injected := p.ucwFault && p.faultInj }).fire (linkFrame n) 3 else c).noteOvercommit

/-! ### EXCHANGE (R228) -/

/-- The flags the port's TRAIN flits carry: RESUME with the same peer. -/
def LinkPort.resume (p : LinkPort) : Bool :=
  p.canResume && (match p.lastTrain, p.peer with
    | some t, some (i, q) => entryFld t 0 2 % 4096 = i && entryFld t 2 1 = q
    | _, _ => true)

/-- The payload of a TRAIN flit. -/
def LinkPort.trainPayload (p : LinkPort) (n : Nat) : List Byte :=
  match p.latched with
  | none => []
  | some (id, _, alloc) =>
    leBytes 2 (id % 4096) ++ leBytes 1 n ++ leBytes 1 (flagNat p.rxOk + 2 * flagNat p.resume + 4 * (if p.width = 8 then 2 else 1)) ++
      leBytes 2 p.expected ++ (alloc.map (leBytes 2)).flatten ++ (p.crTotal.map (leBytes 2)).flatten

/-- MISMATCH (R228): the device has no ID or the port's own allocations do not fit, or the peer's latest TRAIN flit differs in width or is
not the expected peer's. -/
def LinkPort.mismatch (p : LinkPort) : Bool :=
  match p.latched with
  | none => false
  | some (id, cfg, alloc) =>
    !bitAt id 31 || 64512 < alloc.foldl (· + ·) 0 || alloc.getD 7 0 < 64 ||
      (match p.lastTrain with
        | none => false
        | some t => bitField (entryFld t 3 1) 3 2 ≠ (if p.width = 8 then 2 else 1) ||
            (bitAt cfg 10 && (entryFld t 0 2 % 4096 ≠ bitField cfg 27 16 || entryFld t 2 1 ≠ bitField cfg 15 11)))

/-- AGREED: two identical TRAIN flits in a row, and the peer has seen the same. -/
def LinkPort.agreed (p : LinkPort) : Bool :=
  p.rxOk && !p.mismatch && (match p.lastTrain with
    | some t => bitAt (entryFld t 3 1) 0
    | none => false)

/-- A replay begins from the oldest unacknowledged flit (R231, R232): counted, and consecutive where no acknowledgement has advanced
since the previous one (R234). -/
def Chip.beginReplay (c : Chip) (n a : Nat) : Chip :=
  let p := c.link n
  if p.replay.isEmpty then c
  else ((c.putLink n { p with replayAt := some 0, replayFrom := a, consec := p.consec + flagNat p.replayed, replayed := true }).count (linkFrame n) 3 1).log (linkFrame n) { cls := 5, sev := 0, unit := n }

/-- The outcome of an agreed EXCHANGE: the peer, and a resumed link that replays from the peer's NEXT_RX_SEQ or a fresh
start with the peer's allocations, where both sides count CR_TOTAL from 0 again. -/
def Chip.leaveExchange (c : Chip) (n : Nat) : Chip :=
  let p := c.link n
  match p.lastTrain with
  | none => c
  | some t =>
    let peer := (entryFld t 0 2 % 4096, entryFld t 2 1)
    if p.resume && p.peer = some peer && bitAt (entryFld t 3 1) 1 then
      let nx := entryFld t 4 2 % 4096
      let keep := p.replay.dropWhile (fun f => f.seq ≠ nx)
      let keep := if (p.replay.any (fun f => f.seq = nx)) then keep else []
      let on := keep.length < p.replay.length
      (c.putLink n { p with
        peer := some peer, resumed := true, replay := keep, replayAt := none, consec := if on then 0 else p.consec
        replayed := !on && p.replayed, idleAck := if on then 0 else p.idleAck }).beginReplay n ((nx + 4095) % 4096)
    else
      let c := c.discardPort n
      let p := c.link n
      c.putLink n { p with peer := some peer, resumed := false, credit := (List.range 8).map (fun v => (entryFld t (6 + 2 * v) 2 : Int)) }

/-! ### Training (R225-R227) -/

/-- The lanes in use: all eight until a width is chosen. -/
def LinkPort.usedLanes (p : LinkPort) : Nat := if p.width = 4 then p.half else 0xFF

/-- LINK_FAULT (R225, R234). -/
def LinkPort.fault (p : LinkPort) : Bool :=
  max 1 (p.retryCfg % 16) ≤ p.consec || p.ucwFault || p.signalLost

/-- A condition of a transition holds (R225). -/
def LinkPort.cond (p : LinkPort) (now : Nat) (v : LaneView) (cond arg : Nat) : Bool :=
  match cond with
  | 1 => p.enable
  | 2 => !p.enable
  | 3 => v.signal % 256 = 0xFF
  | 4 => p.signalLost
  | 5 => v.pmd % 256 = 0xFF
  | 6 => v.locked % 256 = 0xFF
  | 7 => v.locked % 16 = 0xF || v.locked / 16 % 16 = 0xF
  | 8 => p.agreed
  | 9 => p.mismatch
  | 10 => p.fault
  | 11 => p.retrain
  | 12 => p.attempts ≤ arg
  | 13 => p.enteredAt + 1000000 * arg ≤ now
  | 14 => true
  | _ => false

/-- The transition taken: the first of the four whose condition holds. -/
def LinkPort.next (p : LinkPort) (e : List Byte) (now : Nat) (v : LaneView) : Option (Nat × Nat) :=
  ((List.range 4).map (fun i => (entryFld e (16 + 4 * i) 1, entryFld e (17 + 4 * i) 1, entryFld e (18 + 4 * i) 2))).findSome?
    (fun t => if p.cond now v t.1 t.2.2 then some (t.1, t.2.1) else none)

/-- A port as it sees its lanes in a state's ACTION (R223-R225): signal, the locked lanes, and in an alignment state the width. -/
def LinkPort.seen (p : LinkPort) (act : Nat) (v : LaneView) : LinkPort :=
  let lanes := v.locked % 256
  let p := { p with signalLost := v.signal &&& p.usedLanes ≠ p.usedLanes, lanes := if act = 0 then 0 else lanes }
  if act = 3 then { p with width := if lanes = 0xFF then 8 else 0, reversed := v.reversed }
  else if act = 4 then
    (if lanes % 16 = 0xF then { p with half := 0x0F, width := 4, reversed := v.reversed }
     else if lanes / 16 = 0xF then { p with half := 0xF0, width := 4, reversed := v.reversed } else { p with width := 0 })
  else p

/-- What the lanes show: nothing without the link PLL, so that every port meets SIGNAL_LOST (R381). -/
def Chip.laneView (c : Chip) (v : LaneView) : LaneView :=
  if c.power.linkLost then { signal := 0, pmd := 0, locked := 0, reversed := false } else v

/-- One evaluation of a port's state (R226). -/
def Chip.evalPort (c : Chip) (n : Nat) (v : LaneView) : Chip :=
  let v := c.laneView v
  let e := c.portEntry (c.link n)
  let act := entryFld e 0 1
  let p := (c.link n).seen act v
  let c := c.putLink n p
  if 24 ≤ n then c
  else if entryBad (c.portRaw p) then (c.tableErr n).enterState n 0
  else match p.next e c.time v with
    | none => c
    | some (_, nx) =>
      let c := if act = 5 && p.agreed then c.leaveExchange n else c
      c.enterState n nx

/-- The timeout transition (R225): only when no listed condition holds (R226); a reserved value comes first. -/
def Chip.portTimeout (c : Chip) (n : Nat) (v : LaneView) : Chip :=
  let v := c.laneView v
  let e := c.portEntry (c.link n)
  let act := entryFld e 0 1
  let p := (c.link n).seen act v
  let us := entryFld e 4 4
  if n < 24 && entryBad (c.portRaw p) then ((c.putLink n p).tableErr n).enterState n 0
  else if us = 0 || c.time < p.enteredAt + 1000 * us || (p.next e c.time v).isSome || 24 ≤ n then c
  else
    let c := c.putLink n p
    let c := if act = 5 && p.agreed then c.leaveExchange n else c
    c.enterState n (entryFld e 8 1)

/-- A bank of the state table is about to be replaced: a port that has entered no state under it keeps its entry until it does (R226). -/
def Chip.latchPorts (c : Chip) : Chip :=
  match c.active (tableKey 6 16 0) with
  | none => c
  | some im => (List.range 24).foldl (fun c n =>
      let p := c.link n
      if p.entry.isSome then c else c.putLink n { p with entry := some (im.entry 32 p.state), gen := some im.gen }) c

/-! ### Receiving (R224, R230, R231, R236) -/

/-- Acknowledged flits freed (R231): an advance clears the consecutive count and the timer. -/
def LinkPort.acked (p : LinkPort) (a : Nat) : LinkPort :=
  match p.replay.findIdx? (fun f => f.seq = a) with
  | none => p
  | some i =>
    { p with
      replay := p.replay.drop (i + 1)
      replayAt := match p.replayAt with
        | some r => if (p.replay.drop (i + 1)).isEmpty then none else some (r - (i + 1))
        | none => none
      consec := 0, replayed := false, idleAck := 0 }

/-- ACK and CREDIT of an intact flit used (R230, R231, R236). A NAK is ignored while a replay from the same flit goes on. -/
def Chip.useControl (c : Chip) (n : Nat) (f : Flit) : Chip :=
  let p := c.link n
  let old := p.peerCr.getD f.crVc 0
  let gain := (f.crTotal + 8192 - old % 8192) % 8192
  let p := { p with credit := listSet p.credit f.crVc (p.credit.getD f.crVc 0 + gain), peerCr := listSet p.peerCr f.crVc f.crTotal }
  let going := p.replayAt.isSome && p.replayFrom = f.ack
  let p := if f.ackValid then p.acked f.ack else p
  let c := c.putLink n p
  if f.nak && !going then c.beginReplay n f.ack else c

/-- A flit joins the packet that its port passes on while it arrives (R238); one whose packet was dropped at the output port is freed. -/
def Chip.passFlit (c : Chip) (n m : Nat) (f : Flit) : Chip :=
  let l := c.link m
  let qs := tabGet [] l.txQueue f.vc
  if qs.any (fun q => q.arriving n f.vc) then
    c.putLink m { l with txQueue := tabSet l.txQueue f.vc (qs.map (fun q =>
      if q.arriving n f.vc then { q with flits := q.flits ++ [f.payload.take f.len], more := if f.eop then 0 else max 1 (q.more - 1) } else q)) }
  else c.freeFlits n f.vc 1

/-- ECC injection meets an access to a port's link buffers, whose lines have no address: only MATCH_ANY meets them (R417). -/
def Chip.rxHit (c : Chip) (n : Nat) (onRead : Bool) : Option Health :=
  let t := (c.hdr (linkFrame n)).pert
  let e := t.ecc.toNat
  if t.armed 3 none && bitField e 31 30 ≠ 3 && bitAt e 29 == onRead && t.addrHi.getLsbD 31 then
    some (eccHealth 5 (bitField e 31 30) (bitField e 8 0) (bitField e 24 16))
  else none

/-- The packet that a flit has just been stored for, at a place of the receive buffers, meets ECC injection. -/
def Chip.rxStored (c : Chip) (n : Nat) (i : Option Nat) : Chip :=
  match i, c.rxHit n false with
  | some i, some h =>
    let p := c.link n
    (c.putLink n { p with rxQueue := p.rxQueue.mapIdx (fun j q => if j = i then { q with health := Health.plus 5 q.health h } else q) }).injected
      { blk := .vetch, inst := n } 3
  | _, _ => c

/-- An intact DATA flit accepted: it begins a packet of its VC or joins the one under way, in the receive buffer or at the port that passes
it on; one that belongs to no packet is freed. A packet whose last flit never came gives way to the next. -/
def Chip.acceptFlit (c : Chip) (n : Nat) (f : Flit) : Chip :=
  let p := c.link n
  let c := (c.putLink n { p with expected := (p.expected + 1) % 4096, nakPending := false, accepted := true }).count (linkFrame n) 1 1
  let c := if f.sop then c.dropArriving n f.vc else c
  let p := c.link n
  match tabFind p.cut f.vc with
  | some m => (if f.eop then c.putLink n { p with cut := tabDel p.cut f.vc } else c).passFlit n m f
  | none =>
    let pl := f.payload.take f.len
    if f.sop then (c.putLink n { p with rxQueue := p.rxQueue ++ [{ vc := f.vc, flits := [pl], whole := f.eop }] }).rxStored n (some p.rxQueue.length)
    else if p.rxQueue.any (fun q => !q.whole && q.vc = f.vc) then
      (c.putLink n { p with rxQueue := p.rxQueue.map (fun q => if !q.whole && q.vc = f.vc then { q with flits := q.flits ++ [pl], whole := f.eop } else q) }).rxStored
        n (p.rxQueue.findIdx? (fun q => !q.whole && q.vc = f.vc))
    else c.freeFlits n f.vc 1

/-- A flit dropped with a NAK, if none is pending (R230). -/
def Chip.nakFlit (c : Chip) (n : Nat) : Chip :=
  let p := c.link n
  if p.nakPending then c else c.putLink n { p with nakPending := true, sendNak := true }

/-- The perturbation FLIT hits a received DATA flit (R417): the next one or the one with SEQ, and then those that follow it up to COUNT.
0 is a bad CRC, 1 an uncorrectable codeword, 2 a lost flit; 3 is reserved and hits none. -/
def Chip.flitHit (c : Chip) (n : Nat) (f : Flit) : Option Nat :=
  let t := (c.hdr (linkFrame n)).pert
  let mode := bitField t.flit.toNat 31 30
  if t.armed 4 none && f.kind = 1 && mode ≠ 3 && (0 < t.left || !t.flit.getLsbD 12 || t.flit.toNat % 4096 = f.seq) then some mode else none

/-- One of the armed flits has been hit: the last of COUNT ends the injection (R417). -/
def Chip.flitUsed (c : Chip) (n : Nat) : Chip :=
  let fr := linkFrame n
  let h := c.hdr fr
  let left := if h.pert.left = 0 then max 1 (bitField h.pert.flit.toNat 23 16) else h.pert.left
  let c := c.putHdr fr { h with pert := { h.pert with fired := true, left := left - 1 } }
  if left ≤ 1 then c.injected { blk := .vetch, inst := n } 4 else c

/-- A flit arrives (R224, R230): `hit` says an uncorrectable codeword touches it, `corr` and `unc` the codewords its time
added to the counts. -/
def Chip.flitReceive (c : Chip) (n : Nat) (b : List Byte) (hit : Bool) (corr unc : Nat) : Chip :=
  let fr := linkFrame n
  let f := flitOfBytes b
  let inj := c.flitHit n f
  let word := inj = some 1
  let unc := unc + flagNat word
  let c := (c.count fr 4 corr).count fr 5 unc
  let p := c.link n
  let c := c.putLink n { p with ucw := p.ucw + unc, ucwInj := p.ucwInj || word }
  let act := c.portAction p
  let c := if inj.isSome then c.flitUsed n else c
  if 24 ≤ n || inj = some 2 then c
  else
    let bad := hit || flitBad b || inj.isSome
    let c := if bad then c.count fr 2 1 else c
    if act = 5 then
      let p := c.link n
      if bad || f.kind ≠ 2 then c.putLink n { p with trainOk := p.trainOk && !bad }
      else c.putLink n { p with peerSeen := some (entryFld f.payload 0 2 % 4096, entryFld f.payload 2 1), rxOk := p.rxOk || (p.trainOk && p.lastTrain = some f.payload), lastTrain := some f.payload, trainOk := true }
    else if act = 6 || act = 7 then
      if bad then c.nakFlit n
      else
        let c := c.useControl n f
        let p := c.link n
        if f.kind ≠ 1 then c
        else if f.seq = p.expected then c.acceptFlit n f
        else
          let d := (p.expected + 4096 - f.seq) % 4096
          if 1 ≤ d && d ≤ 2047 then c else c.nakFlit n
    else c

/-! ### Transmitting (R231-R238) -/

/-- REPLAY_TIMEOUT expires (R232): no acknowledgement has advanced for that many flit cycles, which are counted anew; as a NAK would, it
leaves a replay from the same flit that goes on. -/
def Chip.replayTimeout (c : Chip) (n : Nat) : Chip :=
  let p := c.link n
  let a := ((p.replay.head?.map (fun f => f.seq)).getD 0 + 4095) % 4096
  if p.replay.isEmpty || p.idleAck < p.retryCfg / 65536 || (p.replayAt.isSome && p.replayFrom = a) then c
  else (c.putLink n { p with idleAck := 0 }).beginReplay n a

/-- The end of a 1 ms window (R234): more uncorrectable codewords than UCW_LIMIT make LINK_FAULT hold. -/
def Chip.fecWindow (c : Chip) (n : Nat) : Chip :=
  let p := c.link n
  if c.time < p.ucwStart + 1000000 then c
  else c.putLink n { p with ucwFault := p.fecCfg % 65536 ≠ 0 && p.fecCfg % 65536 < p.ucw, ucw := 0, ucwStart := c.time, ucwInj := false, faultInj := p.ucwInj }

/-- A VC of a port can send its next flit: it has arrived, it finds a credit, or those its whole packet needs to start (R236, R238), and the
replay buffer is not full (R231). -/
def LinkPort.canSend (p : LinkPort) (vc : Nat) : Bool :=
  p.replay.length < 1024 && (match (tabGet [] p.txQueue vc).head? with
    | none => false
    | some q => !q.flits.isEmpty &&
        (if q.started then 1 else ((q.flits.length + q.more + (if q.entering then 18 else 0) : Nat) : Int)) ≤ p.credit.getD vc 0)

/-- The weight of a VC (R250). -/
def LinkPort.vcWeight (p : LinkPort) (vc : Nat) : Nat := max 1 (p.weight / 16 ^ vc % 16)

/-- A VC can send in this round of R237: its packet is under way, or its weight lets it begin another. -/
def LinkPort.inRound (p : LinkPort) (vc : Nat) : Bool :=
  p.canSend vc && ((tabGet [] p.txQueue vc).head?.any (fun q => q.started) || p.rrUsed.getD vc 0 < p.vcWeight vc)

/-- The VC that sends next (R237): VC7 first; then, flit by flit in turn, the VCs that can send in this round; where none can, a new round
begins. -/
def LinkPort.arbitrate (p : LinkPort) : Option Nat :=
  let turns := (List.range 7).map (fun i => (p.rr + 1 + i) % 7)
  if p.canSend 7 then some 7 else (turns.find? p.inRound).or (turns.find? p.canSend)

/-- The turns after a VC sends a flit, `first` of its packet or not. -/
def LinkPort.turned (p : LinkPort) (vc : Nat) (first : Bool) : LinkPort :=
  if vc = 7 then p
  else
    let used := if p.inRound vc then p.rrUsed else List.replicate 7 0
    { p with rr := vc, rrUsed := listSet used vc (used.getD vc 0 + flagNat first) }

/-- The flit cycle's control fields, with the credit report's turn moved on. -/
def LinkPort.control (p : LinkPort) (f : Flit) : Flit × LinkPort :=
  ({ f with ack := (p.expected + 4095) % 4096, ackValid := p.accepted, nak := p.sendNak, crVc := p.crNext, crTotal := p.crTotal.getD p.crNext 0 },
   { p with sendNak := false, crNext := (p.crNext + 1) % 8, idleAck := if p.replay.isEmpty then 0 else p.idleAck + 1 })

/-- An empty flit. -/
def idleFlit : Flit :=
  { kind := 0, seq := 0, ack := 0, ackValid := false, nak := false, vc := 0, sop := false, eop := false, len := 0, crVc := 0, crTotal := 0, payload := [] }

/-- A DATA flit as it goes out. -/
def TxFlit.flit (t : TxFlit) : Flit :=
  { idleFlit with kind := 1, seq := t.seq, vc := t.vc, sop := t.sop, eop := t.eop, len := t.payload.length, payload := t.payload }

/-- A new DATA flit of a VC taken from its queue: sequenced, kept for replay, its credit spent (R231, R236), with the receive buffer it
leaves. -/
def LinkPort.newData (p : LinkPort) (vc : Nat) : Option (TxFlit × LinkPort × Option (Nat × Nat)) :=
  match tabGet [] p.txQueue vc with
  | [] => none
  | q :: qs =>
    match q.flits with
    | [] => none
    | pl :: rest =>
      let eop := rest.isEmpty && q.more = 0
      let t : TxFlit := { seq := p.seq, vc := vc, sop := !q.started, eop := eop, payload := pl }
      some (t, { p.turned vc (!q.started) with
        seq := (p.seq + 1) % 4096, replay := p.replay ++ [t], credit := listSet p.credit vc (p.credit.getD vc 0 - 1)
        txQueue := tabSet p.txQueue vc (if eop then qs else { q with flits := rest, started := true } :: qs) }, q.origin)

/-- One flit cycle of a port (R228, R229, R231, R237): a replay flit, a new DATA flit, an IDLE or a TRAIN flit. -/
def Chip.flitTransmit (c : Chip) (n : Nat) : Chip :=
  let p := c.link n
  let act := c.portAction p
  let out (c : Chip) (p : LinkPort) (f : Flit) : Chip :=
    let r := p.control f
    (c.putLink n r.2).send (.flit n r.1.bytes)
  if 24 ≤ n then c
  else if act = 5 then out c p { idleFlit with kind := 2, payload := p.trainPayload n }
  else if act = 7 then out c p idleFlit
  else if act = 6 then
    match p.replayAt with
    | some i =>
      (match p.replay[i]? with
      | none => out c { p with replayAt := none } idleFlit
      | some t => (out c { p with replayAt := if i + 1 < p.replay.length then some (i + 1) else none } t.flit).count (linkFrame n) 0 1)
    | none =>
      (match p.arbitrate with
      | none => out c p idleFlit
      | some vc => (match p.newData vc with
        | none => out c p idleFlit
        | some (t, p, o) => ((out c p t.flit).count (linkFrame n) 0 1).freeFrom o 1))
  else c

/-! ### Commands -/

/-- PORT_STATE_EVAL (R226). -/
def execPortStateEval (n : Nat) (v : LaneView) : State → Host.Outcome State Fault Refusal := onChip (fun _ c => c.whenLinked (fun c => c.evalPort n v))

/-- TRAIN_STATE_TIMEOUT (R225, R226). -/
def execTrainStateTimeout (n : Nat) (v : LaneView) : State → Host.Outcome State Fault Refusal := onChip (fun _ c => c.whenLinked (fun c => c.portTimeout n v))

/-- FLIT_RECEIVE (R230). -/
def execFlitReceive (n : Nat) (b : List Byte) (hit : Bool) (corr unc : Nat) : State → Host.Outcome State Fault Refusal :=
  onChip (fun _ c => c.whenLinked (fun c => c.flitReceive n b hit corr unc))

/-- REPLAY_TIMEOUT (R232). -/
def execReplayTimeout (n : Nat) : State → Host.Outcome State Fault Refusal := onChip (fun _ c => c.whenLinked (fun c => c.replayTimeout n))

/-- FEC_WINDOW_CHECK (R234). -/
def execFecWindowCheck (n : Nat) : State → Host.Outcome State Fault Refusal := onChip (fun _ c => c.whenLinked (fun c => c.fecWindow n))

/-- FLIT_TRANSMIT (R229, R237). -/
def execFlitTransmit (n : Nat) : State → Host.Outcome State Fault Refusal := onChip (fun _ c => c.whenLinked (fun c => c.flitTransmit n))

end Sys2Proof.Machine
end

