-- ==== Sys2Proof/Machine/Fabric.lean ====
section
/-! DEFINITION. Packets at a device (R240-R249): requests issued with tags, routing by the route table, responses. -/

namespace Sys2Proof.Machine

/-- The ID written as SRC: 0 while none is set (R251). -/
def Chip.myId (c : Chip) : Nat := if bitAt c.links.deviceId 31 then c.links.deviceId % 4096 else 0

/-- A packet put in the queue of packets to route, charged to a partition's link regulator (R319). -/
def Chip.enqueuePacket (c : Chip) (p : Packet) (part : Option Nat) : Chip := { c with links.out := c.links.out ++ [(p, part)] }

/-- A request issued: tagged in sequence, outstanding until its response (R247). -/
def Chip.issue (c : Chip) (s : PacketSpec) (who : Issuer) (part : Option Nat) : Chip :=
  let tag := c.links.nextTag
  let c := { c with
    links.nextTag := (tag + 1) % 2 ^ 32
    links.tags := tabSet c.links.tags tag { issuer := who, issuedAt := c.time } }
  (c.enqueuePacket (PacketSpec.make { s with tag := tag } c.myId) part).count fabFrame 0 1

/-- A request sent again with the tag, and so the header, it had (R265). -/
def Chip.reissue (c : Chip) (s : PacketSpec) (tag : Nat) (who : Issuer) (part : Option Nat) : Chip :=
  ({ c with links.tags := tabSet c.links.tags tag { issuer := who, issuedAt := c.time } }.enqueuePacket
    (PacketSpec.make { s with tag := tag } c.myId) part).count fabFrame 0 1

/-- A response to a request (R243, R244). -/
def Chip.respond (c : Chip) (req : Packet) (status detail : Nat) (data : List Byte) : Chip :=
  c.enqueuePacket (PacketSpec.make { type := 8, vc := 2, dst := req.src, op := status, tag := req.tag, domain := req.domain, flow := req.flow, len := data.length, count := detail % 256, data := data } c.myId) none

/-- A route entry (R240). -/
structure Route where
  primary : Nat
  here : Bool
  alts : List Nat
deriving DecidableEq, Repr

/-- The route to a device in the active bank, if VALID. -/
def Chip.routeTo (c : Chip) (d : Nat) : Option Route :=
  match c.active (tableKey 7 16 0) with
  | none => none
  | some im =>
    let e := im.entry 8 d
    let fl := entryFld e 3 1
    let here := bitAt fl 1
    if !bitAt fl 0 || 16 ≤ fl || 32 ≤ entryFld e 4 1 || 32 ≤ entryFld e 5 1 || entryFld e 7 1 ≠ 0 || (here && !(bitAt c.links.deviceId 31 && d = c.myId)) then none
    else some { primary := entryFld e 0 3, here := here, alts := (if bitAt fl 2 then [entryFld e 4 1] else []) ++ (if bitAt fl 3 then [entryFld e 5 1] else []) }

/-- The output port of a packet (R241). -/
def Chip.routePort (c : Chip) (r : Route) (p : Packet) : Option Nat :=
  let up := (bitsOf 24 r.primary).filter c.linkUp
  if up.isEmpty then r.alts.find? (fun a => a < 24 && c.linkUp a)
  else up[(p.src + 3 * p.dst + 7 * p.flow) % up.length]?

/-- A discarded packet (R241): a request draws LINK_UNREACHABLE, a response is counted. -/
def Chip.unreachable (c : Chip) (p : Packet) (detail : Nat) : Chip :=
  if p.type = 8 then c.count fabFrame 6 1
  else ((c.count fabFrame 2 1).fire fabFrame 3).respond p 0x12 detail []

/-- A packet queued at an output port (R237, R238). -/
def Chip.queueAt (c : Chip) (n vc : Nat) (q : TxPacket) : Chip :=
  let l := c.link n
  c.putLink n { l with txQueue := tabSet l.txQueue vc (tabGet [] l.txQueue vc ++ [q]) }

/-- The group of a port's configuration at a place (R238). -/
def Chip.portGroup (c : Chip) (n hi lo : Nat) : Nat := bitField (c.link n).cfg hi lo

/-- A packet issued here routed (R240, R241): delivered here, or queued at its output port, which it enters (R238). -/
def Chip.routePacket (c : Chip) (p : Packet) : Chip :=
  let r := c.routeTo p.dst
  if r.any (fun q => q.here) then { c with links.inbox := c.links.inbox ++ [p] }
  else match r.bind (fun q => c.routePort q p) with
    | none => c.unreachable p 0
    | some n => c.queueAt n p.vc { flits := p.payloads, entering := true, started := false }

/-- A packet whose type may not travel on its VC, or whose type is reserved (R235, R243): dropped and counted; BAD_OPERAND
is returned where its header has come. -/
def Chip.malformed (c : Chip) (p : Packet) (inPort : Nat) (readable : Bool) : Chip :=
  let c := (c.count (linkFrame inPort) 7 1).count fabFrame 6 1
  if p.type = 8 || !readable then c else c.respond p 5 0 []

/-- The whole header of a received packet is there. -/
def RxPacket.readable (q : RxPacket) : Bool := 32 ≤ q.flits.flatten.length

/-- A received packet travels on a VC that carries its type (R235). -/
def RxPacket.wellFormed (q : RxPacket) : Bool := q.readable && q.pkt.vcOk && q.vc = q.pkt.vc

/-- The output port a received packet goes on through (R240-R243). -/
def Chip.onward (c : Chip) (q : RxPacket) : Option Nat :=
  let r := c.routeTo q.pkt.dst
  if !q.wellFormed || q.pkt.fld 6 1 = 1 || r.any (fun e => e.here) then none else r.bind (fun e => c.routePort e q.pkt)

/-- The next packet of a port's receive buffers to route: the first that has wholly arrived, or that goes on through another port, which
it may do from its first flit on (R238). -/
def Chip.nextRx (c : Chip) (n : Nat) : Option Nat := (c.link n).rxQueue.findIdx? (fun q => q.whole || (c.onward q).isSome)

/-- A packet that came by a port passed on: its hop limit counts down, it keeps its place in the receive buffer until its flits have gone,
and those still to arrive follow it. -/
def Chip.passOn (c : Chip) (n m : Nat) (q : RxPacket) : Chip :=
  let hdr := q.pkt.hdr.toNat - (if q.pkt.fld 6 1 = 0 then 0 else 2 ^ 48)
  let flits := match q.flits with
    | [] => []
    | b :: bs => (leBytes 32 hdr ++ b.drop 32) :: bs
  let more := if q.whole then 0 else max 1 (q.pkt.announced - q.flits.length)
  let l := c.link n
  let c := if q.whole then c else c.putLink n { l with cut := tabSet l.cut q.vc m }
  (c.count fabFrame 7 1).queueAt m q.vc
    { flits := flits, entering := c.portGroup n 9 7 ≠ c.portGroup m 6 4, started := false, more := more
      origin := if q.old then none else some (n, q.vc) }

/-- A received packet routed (R240-R243): delivered here, passed on, or discarded, which frees its flits (R236). -/
def Chip.routeRx (c : Chip) (n : Nat) (q : RxPacket) : Chip :=
  let p := q.pkt
  let free (c : Chip) : Chip := if q.old then c else c.freeFlits n q.vc q.flits.length
  if !q.wellFormed then (free c).malformed p n q.readable
  else if (c.routeTo p.dst).any (fun e => e.here) then
    { c with links.inbox := c.links.inbox ++ [{ p with origin := if q.old then none else some (n, q.vc, q.flits.length) }] }
  else if p.fld 6 1 = 1 then ((free c).count fabFrame 3 1).unreachable p 2
  else match c.onward q with
    | none => (free c).unreachable p 0
    | some m => c.passOn n m q

/-- A received packet is read from its buffer (R408): an error that the code corrects is logged; one it does not, or poison, is logged and
drops the packet, which is counted (R249). `places` are those of its words that have changed. -/
def Chip.readRx (c : Chip) (n : Nat) (q : RxPacket) (places : List Nat) : Chip :=
  let (c, hit) := match c.rxHit n true with
    | some h => (c.injected { blk := .vetch, inst := n } 3, h)
    | none => (c, .good)
  let own := Health.plus 5 q.health hit
  let h := Health.plus 5 own (if places.isEmpty then .good else if codeCorrects 5 places.eraseDups then .ce places.eraseDups else .ue)
  let l : LogReq := { cls := 1, sev := 0, unit := n, injected := decide (own ≠ .good) }
  let drop (c : Chip) : Chip := (if q.old then c else c.freeFlits n q.vc q.flits.length).count (linkFrame n) 7 1
  match h with
  | .good => c.routeRx n q
  | .ce _ => (c.log (linkFrame n) l).routeRx n q
  | .ue => drop (c.log (linkFrame n) { l with cls := 2, sev := 1, detail := 5 })
  | .poison => drop (c.log (linkFrame n) { l with cls := 3, sev := 1 })

/-- A packet issued here must follow another: it has the same destination, VC and flow (R248). -/
def Packet.follows (p q : Packet) : Bool := p.dst = q.dst && p.vc = q.vc && p.flow = q.flow

/-- The first packet issued here that may go: its partition's link regulator lets it (R319), and none before it that it must follow is
held back. -/
def pickOut (lets : Option Nat → Bool) : List (Packet × Option Nat) → List Packet → Nat → Option Nat
  | [], _, _ => none
  | e :: es, held, i =>
    if lets e.2 && !held.any (fun h => e.1.follows h) then some i else pickOut lets es (e.1 :: held) (i + 1)

/-- The next packet of a port's receive buffers, or of those issued here, is routed (R236, R240). A packet issued for a
partition waits while its link regulator has no level (R319); a response never waits (R235). -/
def Chip.packetRoute (c : Chip) (inPort : Option Nat) (places : List Nat) : Chip :=
  match inPort with
  | some n =>
    let l := c.link n
    (match c.nextRx n with
    | none => c
    | some i => (match l.rxQueue[i]? with
      | none => c
      | some q => (c.putLink n { l with rxQueue := l.rxQueue.eraseIdx i }).readRx n q places))
  | none =>
    (match pickOut (fun p => p.all (fun q => c.regLets q 2)) c.links.out [] 0 with
    | none => c
    | some i => (match c.links.out[i]? with
      | none => c
      | some (p, part) =>
        let c := { c with links.out := c.links.out.eraseIdx i }
        (part.elim c (fun q => c.regTake q 2 (ceilDiv (32 + p.data.length) 64))).routePacket p))

/-- PACKET_ROUTE (R240). -/
def execPacketRoute (inPort : Option Nat) (places : List Nat) : State → Host.Outcome State Fault Refusal :=
  onChip (fun _ c => c.packetRoute inPort places)

end Sys2Proof.Machine
end

