-- ==== Sys2Proof/Machine/Gate.lean ====
section
/-! DEFINITION. The step gate (R210-R221) and its part of the scalar reduction (R269-R273): the norm accumulator, the
seal, the record that goes up the tree, the resolution, the close, and GRAD_SUMSQ. -/

namespace Sys2Proof.Machine

/-- The frame of a partition's GATE page. -/
def gateFrame (p : Nat) : Nat := 0x030 + p

/-- The frame of the COLL page. -/
def collFrame : Nat := 0x009

/-- A partition's gate. -/
def Chip.gate (c : Chip) (p : Nat) : Gate := tabGet {} c.gates p

/-- A partition's gate replaced. -/
def Chip.putGate (c : Chip) (p : Nat) (g : Gate) : Chip := { c with gates := tabSet c.gates p g }

/-! ### Memory traffic of a cell command through its DMA port -/

/-- Traffic of a cell's vector unit through its DMA port: the port's counters, the tiers' counters and the partition's
regulators (R163, R319). -/
def Chip.portTraffic (c : Chip) (p cell : Nat) (reads writes : List (Nat × Nat)) : Chip :=
  let c := (c.count (0x200 + cell) 0 (ceilDiv (runBytes (foreignRuns cell reads)) 64)).count (0x200 + cell) 1 (ceilDiv (runBytes (foreignRuns cell writes)) 64)
  ((c.tierWrites writes).dramCharge p reads).dramCharge p writes

/-! ### The norm accumulator and its flags (R212, R213) -/

/-- A binary32 value that is finite and not negative, as a multiple of 2^-149. -/
def accUnits (b : Nat) : Nat :=
  match ofF32 b with
  | .num _ m e => alignNat m e (-149)
  | _ => 0

/-- The exact value of an accumulator, rounded once to binary32. -/
def accF32 (acc : Nat) : Nat := toF32 (.num false acc (-149))

/-- The block sum of R212. -/
def blockSum (gs : List Nat) : Nat :=
  finishLevels (gs.foldl (fun ls g => pushLevels ls (fmul g g)) (List.replicate 24 none))

/-- Two records combined: exact addition in 320 bits, flags by OR (R213). -/
def Scalar.plus (a b : Scalar) : Scalar :=
  { acc := (a.acc + b.acc) % 2 ^ 320, nf := a.nf || b.nf, ovf := a.ovf || b.ovf, abandon := a.abandon || b.abandon }

/-- A block's elements reach the gate (R212): a non-finite element sets NF, an infinite sum OVF, a finite sum is added and
counted. -/
def Chip.gateBlock (c : Chip) (p : Nat) (gs : List Nat) : Chip :=
  let g := c.gate p
  if gs.any (fun b => f32.nonFinite b) then c.putGate p { g with loc := { g.loc with nf := true } }
  else
    let s := blockSum gs
    if f32.nonFinite s then c.putGate p { g with loc := { g.loc with ovf := true } }
    else (c.putGate p { g with loc := { g.loc with acc := (g.loc.acc + accUnits s) % 2 ^ 320 } }).count (gateFrame p) 7 1

/-- The local ABANDON flag set (R216, R267). -/
def Chip.gateAbandon (c : Chip) (p : Nat) : Chip :=
  let g := c.gate p
  c.putGate p { g with loc := { g.loc with abandon := true } }

/-- The local OVF flag set (R264). -/
def Chip.gateOvf (c : Chip) (p : Nat) : Chip :=
  let g := c.gate p
  c.putGate p { g with loc := { g.loc with ovf := true } }

/-- The local NF flag set (R264). -/
def Chip.gateNf (c : Chip) (p : Nat) : Chip :=
  let g := c.gate p
  c.putGate p { g with loc := { g.loc with nf := true } }

/-! ### Resolution (R214) and the scalar tree (R273) -/

/-- What a combined record makes of a step (R214): the state, NORM and CLIP. -/
def resolveStep (s : Scalar) (ls : Int) (maxNorm : Nat) : GState × Option (Nat × Nat) :=
  if s.abandon then (.abandoned, none)
  else if s.nf || s.ovf then (.skipped, none)
  else
    let s32 := accF32 s.acc
    if f32.nonFinite s32 then (.skipped, none)
    else
      let norm := fmul (fsqrt s32) (toF32 (.num false 1 (-ls)))
      let clip := if (ofF32 maxNorm).lt (ofF32 norm) then fdiv maxNorm norm else toF32 (Val.ofInt 1)
      (.ready, some (norm, clip))

/-- A command of a partition that runs an opcode of class 0x0 or 0x6. -/
def Chip.runningOp (c : Chip) (p op : Nat) (k : Cmd) : Bool := k.phase = .running && k.opcode = op && c.cmdPart k = some p

/-- Every command that satisfies a test ends with a status. -/
def Chip.endAll (c : Chip) (t : Cmd → Bool) (status detail : Nat) : Chip :=
  (c.cmds.filter t).foldl (fun c k => c.endCmd k status detail) c

/-- The gate resolves (R214, R216, R269): it leaves REDUCING, the GATE_SEAL completes, and launches still waiting complete
with STEP_ABANDONED. -/
def Chip.resolveGate (c : Chip) (p : Nat) (s : Scalar) : Chip :=
  let g := c.gate p
  if g.state ≠ .reducing then c
  else
    let r := resolveStep s g.ls g.maxNorm
    let g := { g with state := r.1, res := s }
    let g := match r.2 with
      | some q => { g with norm := q.1, clip := q.2 }
      | none => g
    let c := c.putGate p g
    let c := if r.1 = .skipped then c.fire (gateFrame p) 2 else if r.1 = .abandoned then c.fire (gateFrame p) 3 else c
    let c := c.endAll (fun k => c.runningOp p 0x21 k && k.stage = 2) 0 0
    let launches := c.cmds.filter (c.runningOp p 0x71)
    let c := launches.foldl (fun c k => c.endCmd (c.seenNf k) 0x10 0) c
    { c with coll.launches := launches.foldl (fun t k => tabDel t k.id) c.coll.launches }

/-- The group of a gate's scalar reduction, where it is bound to the partition. -/
def Chip.gateGroup (c : Chip) (p : Nat) : Option Group := (tabFind c.coll.groups (c.gate p).group).filter (fun q => q.part = p)

/-- The 68 bytes of a scalar record (R273). -/
def Scalar.bytes (s : Scalar) (epoch : Nat) : List Byte :=
  leBytes 40 s.acc ++ leBytes 1 (flagNat s.nf + 2 * flagNat s.ovf + 4 * flagNat s.abandon) ++ leBytes 3 0 ++ leBytes 4 epoch ++ leBytes 20 0

/-- A scalar record read from its bytes, and its epoch. -/
def scalarOf (b : List Byte) : Scalar × Nat :=
  let f := leNat ((b.drop 40).take 1)
  ({ acc := leNat (b.take 40), nf := bitAt f 0, ovf := bitAt f 1, abandon := bitAt f 2 }, leNat ((b.drop 44).take 4))

/-- A scalar record sent to a device of the tree, up or down (R262, R273). -/
def Chip.sendScalar (c : Chip) (p : Nat) (q : Group) (dst : Nat) (s : Scalar) (result : Bool) : Chip :=
  let e := (c.gate p).epoch
  let dom := match c.part? p with
    | some pt => pt.domain
    | none => 0
  (c.issue { type := 4, vc := 7, dst := dst, domain := dom, flow := (c.gate p).group, addr := q.stageBase, len := 68
             coll := 2 ^ 29 * flagNat result + 2 ^ 28 + 2 ^ 20 * (e % 256) + (c.gate p).group, data := s.bytes e } .scalar (some p)).count collFrame 7 1

/-- A result goes on to every child (R273). -/
def Chip.passResult (c : Chip) (p : Nat) (s : Scalar) : Chip :=
  match c.gateGroup p with
  | none => c
  | some q => q.kids.foldl (fun c d => c.sendScalar p q d s true) c

/-- A combined record resolves the gate and goes on to every child (R273). -/
def Chip.applyResult (c : Chip) (p : Nat) (s : Scalar) : Chip := (c.resolveGate p s).passResult p s

/-- The member's record goes up once the gate is REDUCING, no launch of the epoch runs and every child's record has come,
or at the window or the timer without them (R269, R270, R273). The root, or a gate without a group, resolves instead. -/
def Chip.trySendUp (c : Chip) (p : Nat) : Chip :=
  let g := c.gate p
  let q := c.gateGroup p
  let kids := match q with
    | some q => q.kids
    | none => []
  let ready := g.expired || (!c.cmds.any (c.runningOp p 0x71) && (g.window || kids.all (fun d => (tabFind g.kids d).isSome)))
  if g.state ≠ .reducing || g.sent || !ready then c
  else
    let own : Scalar := { g.loc with abandon := g.loc.abandon || g.expired }
    let s := g.kids.foldl (fun a e => a.plus e.2) own
    let c := c.putGate p { g with sent := true }
    match q with
    | none => c.applyResult p s
    | some q => if q.root then c.applyResult p s else c.sendScalar p q q.parent s false

/-! ### Gate commands -/

/-- GATE_CFG of a running command (R211, R256). -/
def Chip.gateCfg (c : Chip) (k : Cmd) : Chip :=
  let p := (c.cmdPart k).getD 16
  let g := c.gate p
  let f := ctxFld k.ctx
  if g.state ≠ .unconfigured && g.state ≠ .idle then c.endCmd k 5 16
  else
    (c.putGate p { g with
      state := .idle, maxNorm := f 0 4, step := f 4 4, ls := signedOf 8 (f 8 1), lsMin := signedOf 8 (f 9 1), lsMax := signedOf 8 (f 10 1)
      lateFold := bitAt (f 11 1) 0, growth := f 12 2, group := f 14 2, timeoutMs := f 16 2, windowUs := f 18 2, slotAddr := f 24 8
      clean := 0, epoch := 0, loc := {}, res := {}, slots := [], sealAt := none, expired := false, window := false, sent := false
      kids := [], held := [], readyNorm := none, result := none }).endCmd { k with acct := { k.acct with bytes64 := k.acct.bytes64 + 1 } } 0 0

/-- BASE of a group slot (R257). -/
def gateBase (norm : Option Nat) (eInit : Int) : Int :=
  match norm with
  | none => eInit
  | some n => (match ofF32 n with
    | .num _ m e => if m = 0 then eInit else (Val.num false m e).log2
    | _ => eInit)

/-- A stage slot of a group. -/
def Group.holds (q : Group) (a : Nat) : Bool := q.stageBase ≤ a && a < q.stageBase + q.stageBytes

/-- An address in the stage region of a group of the partition. -/
def Chip.ownStage (c : Chip) (p a : Nat) : Bool := c.coll.groups.any (fun e => e.2.part = p && e.2.holds a)

/-- A stage slot when its gate opens the epoch after `prev`: what belongs to earlier epochs goes, as does a partial that its tile has
used (R268). -/
def Stage.age (s : Stage) (prev : Nat) : Stage :=
  let now := (prev + 1) % 256
  { s with
    inc := s.inc.filter (fun e => e = now && s.closed ≠ some e), closed := s.closed.filter (fun e => e = prev)
    missed := s.missed.filter (fun m => m.1 = prev), fold := s.fold.filter (fun m => m.1 = prev) }

/-- GATE_OPEN of a running command (R210, R256, R257): the accumulator, flags and slot sums are zeroed, the epoch rises,
BASE and LS are latched in the partition's group slots, and held records come in; a held result goes on to the children (R273). -/
def Chip.gateOpen (c : Chip) (k : Cmd) : Chip :=
  let p := (c.cmdPart k).getD 16
  let g := c.gate p
  if g.state ≠ .idle then c.endCmd k 5 16
  else
    let c := c.putGate p { g with
      state := .collecting, epoch := (g.epoch + 1) % 2 ^ 32, loc := {}, res := {}, slots := [], sealAt := none, expired := false
      window := false, sent := false, kids := g.held, held := [], result := g.result.filter (fun r => r.1 = (g.epoch + 1) % 2 ^ 32) }
    let c := { c with
      coll.stages := c.coll.stages.map (fun (e : Nat × Stage) => if c.ownStage p e.1 then (e.1, e.2.age (g.epoch % 256)) else e)
      coll.groups := c.coll.groups.map (fun (e : Nat × Group) =>
        if e.2.part = p then (e.1, { e.2 with base := some (gateBase g.readyNorm e.2.eInit), ls := some g.ls }) else e) }
    (match (c.gate p).result with
      | some r => c.passResult p r.2
      | none => c).endCmd k 0 0

/-- Nothing started before the seal holds it any more (R216, R269): sums committed or failed, local phases finished. -/
def Chip.sealFree (c : Chip) (p : Nat) (k : Cmd) : Bool :=
  !c.cmds.any (fun j => j.startAt < k.startAt && (c.runningOp p 0x1D j || (c.runningOp p 0x71 j && (tabFind c.coll.launches j.id).isNone)))

/-- The gate enters REDUCING: every GATE_SEAL of the partition now waits for the result, and the record may go up; a result that came
before resolves it (R273). -/
def Chip.enterReducing (c : Chip) (p : Nat) : Chip :=
  let c := c.putGate p { c.gate p with state := .reducing }
  let c := (c.cmds.filter (c.runningOp p 0x21)).foldl (fun c k => c.putCmd { k with stage := 2 }) c
  match (c.gate p).result with
  | some r => c.resolveGate p r.2
  | none => c.trySendUp p

/-- GATE_SEAL of a running command (R216, R269): DIRTY buffers abandon the step, earlier sums and local phases are waited
for, then the gate is REDUCING and joins the scalar reduction. -/
def Chip.gateSeal (c : Chip) (k : Cmd) : Chip :=
  let p := (c.cmdPart k).getD 16
  let g := c.gate p
  if k.stage = 2 then c.trySendUp p
  else if g.state ≠ .collecting then c.endCmd k 5 16
  else
    let dirty := match c.part? p with
      | some pt => pt.cells.any (fun n => (tabGet (false, false) c.tiers.gradStat n).1)
      | none => false
    let c := if k.stage = 0 then
        (c.putGate p { g with sealAt := some (g.sealAt.getD c.time), loc := { g.loc with abandon := g.loc.abandon || dirty } }).putCmd { k with stage := 1 }
      else c
    if c.sealFree p k then c.enterReducing p else c

/-- The seal's timer expires (R218, R269): the record goes up with ABANDON, whatever is still waited for. -/
def Chip.sealTimeout (c : Chip) (p : Nat) : Chip :=
  let g := c.gate p
  match g.sealAt with
  | none => c
  | some t =>
    if g.sent || c.time < t + 1000000 * g.timeoutMs || !(g.state = .collecting || g.state = .reducing) then c
    else
      (c.putGate p { g with expired := true, loc := { g.loc with abandon := true } }).enterReducing p

/-- No result within 4 × TIMEOUT_MS of the seal (R271): ABANDONED locally, `COLL` source 5. -/
def Chip.resultTimeout (c : Chip) (p : Nat) : Chip :=
  let g := c.gate p
  match g.sealAt with
  | none => c
  | some t =>
    if !g.sent || g.state ≠ .reducing || c.time < t + 4000000 * g.timeoutMs then c
    else (c.resolveGate p { g.loc with abandon := true }).fire collFrame 5

/-! ### GATE_CLOSE (R217, R221, R271) -/

/-- A ratio slot as it is written at the close: SUMSQ_D, SUMSQ_W, RATIO, OUT_FLAGS (R220, R221), from its sums and the
threshold. -/
def slotOut (s : Option SlotSum) (threshold : Nat) : Nat × Nat × Nat × Nat :=
  let q := s.getD { d := 0, w := 0, nf := false }
  let d := accF32 q.d
  let w := accF32 q.w
  let ratio := if q.nf then f32.canonNan
    else if (ofF32 w).isZero then (if (ofF32 d).isZero then 0 else f32.pack false 255 0)
    else fsqrt (fdiv d w)
  let alarm := ofF32 ratio = .nan || (ofF32 threshold).lt (ofF32 ratio)
  (d, w, ratio, flagNat alarm + 2 * flagNat s.isNone + 4 * flagNat q.nf)

/-- One slot processed (R221). An alarm's event is signalled where the partition owns the entry (R46). -/
def Chip.closeSlot (x : Ctx) (p : Nat) (g : Gate) (c : Chip) (n : Nat) : Chip :=
  let a := g.slotAddr + 32 * n
  let ctrl := c.rdNat x (a + 6) 1
  if !bitAt ctrl 0 then c
  else
    let (d, w, r, f) := slotOut (tabFind g.slots n) (c.rdNat x a 4)
    let c := c.wr x (a + 16) (leBytes 4 d ++ leBytes 4 w ++ leBytes 4 r ++ leBytes 4 f)
    if bitAt f 0 then
      let c := (c.count (gateFrame p) 6 1).fire (gateFrame p) 4
      let i := c.rdNat x (a + 4) 2
      if bitAt ctrl 1 && (c.event i).owner = some p then (c.signal x i 1).1 else c
    else c

/-- The stage slots of a partition's groups return to EMPTY; pending folds are counted in CTR4 (R271). -/
def Chip.clearStages (c : Chip) (p : Nat) : Chip :=
  let qs := (c.coll.groups.filter (fun e => e.2.part = p)).map Prod.snd
  let hit (a : Nat) : Bool := qs.any (fun q => q.holds a)
  let folds := (c.coll.stages.filter (fun e => hit e.1 && e.2.fold.isSome)).length
  ({ c with coll.stages := c.coll.stages.filter (fun e => !hit e.1) }).count (gateFrame p) 4 folds

/-- The rule of R217 at the close, with the counters and source 5 of R222. -/
def Chip.closeRule (c : Chip) (p : Nat) : Chip :=
  let g := c.gate p
  let f := gateFrame p
  match g.state with
  | .ready =>
    let grow := g.growth ≠ 0 && g.growth ≤ g.clean + 1
    let g' := { g with
      state := .idle, last := 1, step := (g.step + 1) % 2 ^ 32, ls := if grow then min (g.ls + 1) g.lsMax else g.ls
      clean := if grow then 0 else min (g.clean + 1) 0xFFFF, readyNorm := some g.norm, sealAt := none }
    let c := (c.putGate p g').count f 0 1
    if (ofF32 g.clip).lt (Val.ofInt 1) then c.count f 5 1 else c
  | .skipped =>
    let c := (c.putGate p { g with state := .idle, last := 2, ls := max (g.ls - 1) g.lsMin, clean := 0, sealAt := none }).count f 1 1
    (if g.ls ≤ g.lsMin then c.fire f 5 else c).clearStages p
  | .abandoned => ((c.putGate p { g with state := .idle, last := 3, sealAt := none }).count f 2 1).clearStages p
  | _ => c

/-- GATE_CLOSE of a running command (R217): it waits while an OPT_UPDATE of the partition runs, and for its regulators
(R319). -/
def Chip.gateClose (x : Ctx) (env : Env) (c : Chip) (k : Cmd) : Chip :=
  let p := (c.cmdPart k).getD 16
  let g := c.gate p
  let a := g.slotAddr
  if c.cmds.any (fun j => j.phase ≠ .waiting && j.tclass = 0 && j.opcode = 0x1E && c.cmdPart j = some p) then c
  else if !(g.state = .ready || g.state = .skipped || g.state = .abandoned) then c.endCmd k 5 16
  else if g.state = .ready && a ≠ 0 then
    if (c.region a 131072).isNone then c.endCmd k 1 0
    else if !c.partMay p a 131072 true then c.endCmd k 2 0
    else if !c.dramLets p [(a, 131072)] then c
    else
      let c := c.upset x env.upsets
      let x := x.upset env.upsets
      let c := c.dramCharge p [(a, 131072), (a, 131072)]
      c.afterReads x env k [(a, 131072)] (fun c => ((((List.range 4096).foldl (Chip.closeSlot x p g) c).tierWrites [(a, 131072)]).closeRule p).endCmd k 0 0)
  else (c.closeRule p).endCmd k 0 0

/-! ### GRAD_SUMSQ (R212, R215) -/

/-- GRAD_SUMSQ of a running command: its block sums and flags reach the gate together. It holds while the partition's
regulators have no level left (R319). -/
def Chip.gradSumsq (x : Ctx) (env : Env) (c : Chip) (k : Cmd) : Chip :=
  let p := (c.cmdPart k).getD 16
  let n := k.fld 24 4
  let a := k.fld 32 8
  let runs := [(a, 4 * n)]
  if !c.dramLets p runs then c
  else
    let c := c.meets x env k
    let x := x.upset env.upsets
    c.afterReads x env k runs (fun c =>
      let ws := (List.range n).map (fun i => c.rdNat x (a + 4 * i) 4)
      let c := (chunks 65536 (n + 1) ws).foldl (fun c b => c.gateBlock p b) c
      let c := c.portTraffic p k.inst runs []
      c.endCmd { k with acct := k.acct.plus { beats := ceilDiv (4 * n) 256 + env.feed + env.drain, bytes64 := ceilDiv (4 * n) 64, nf := ws.any (fun b => f32.nonFinite b) || (chunks 65536 (n + 1) ws).any (fun b => f32.nonFinite (blockSum b)) } } 0 0)

/-- GRAD_SUMSQ (R215). -/
def execGradSumsq (cmd : Nat) (env : Env) : State → Host.Outcome State Fault Refusal :=
  onOp cmd 0x1D (fun x => Chip.gradSumsq x env)

/-- GATE_CFG (R211). -/
def execGateCfg (cmd : Nat) : State → Host.Outcome State Fault Refusal := onOp cmd 0x1F (fun _ => Chip.gateCfg)

/-- GATE_OPEN (R210). -/
def execGateOpen (cmd : Nat) : State → Host.Outcome State Fault Refusal := onOp cmd 0x20 (fun _ => Chip.gateOpen)

/-- GATE_SEAL (R216). -/
def execGateSeal (cmd : Nat) : State → Host.Outcome State Fault Refusal := onOp cmd 0x21 (fun _ => Chip.gateSeal)

/-- GATE_CLOSE (R217). -/
def execGateClose (cmd : Nat) (env : Env) : State → Host.Outcome State Fault Refusal :=
  onOp cmd 0x22 (fun x => Chip.gateClose x env)

/-- SEAL_TIMEOUT (R269). -/
def execSealTimeout (p : Nat) : State → Host.Outcome State Fault Refusal := onChip (fun _ c => c.sealTimeout p)

/-- RESULT_TIMEOUT (R271). -/
def execResultTimeout (p : Nat) : State → Host.Outcome State Fault Refusal := onChip (fun _ c => c.resultTimeout p)

end Sys2Proof.Machine
end

