-- ==== Sys2Proof/Machine/Requests.lean ====
section
/-! DEFINITION. Requests delivered at this device (R243-R246): WRITE, READ, ATOMIC and EVENT_SIGNAL. A row names the
packet by its place among those delivered. -/

namespace Sys2Proof.Machine

/-- Requests of one source, VC and flow are applied in order (R248); responses are not ordered. -/
def Packet.before (q p : Packet) : Bool := q.type ≠ 8 && p.type ≠ 8 && q.src = p.src && q.vc = p.vc && q.flow = p.flow

/-- The packet at a place among those delivered, of a type, with no request before it that it must follow (R248). -/
def Chip.delivered (c : Chip) (i type : Nat) : Option Packet :=
  (c.links.inbox[i]?).filter (fun p => p.type = type && !(c.links.inbox.take i).any (fun q => q.before p))

/-- A delivered packet consumed: the receive buffer it occupied is free (R236). -/
def Chip.consume (c : Chip) (i : Nat) : Chip :=
  let d := { c with links.inbox := c.links.inbox.eraseIdx i }
  (c.links.inbox[i]?.bind (fun p => p.origin)).elim d (fun o => d.freeFlits o.1 o.2.1 o.2.2)

/-- A reserved bit of a request's header is set, or a field that must be 0 is not (R243). -/
def Packet.rsvdBad (p : Packet) (count coll : Bool) : Bool :=
  16 ≤ p.fld 1 1 || 4096 ≤ p.fld 2 2 || 4096 ≤ p.fld 4 2 || 2 ^ 44 ≤ p.addr || (!count && p.count ≠ 0) || (!coll && p.coll ≠ 0)

/-- The first partition of a domain that owns the bytes (R245, R316). -/
def Chip.domainPart (c : Chip) (dom a n : Nat) (write : Bool) : Option Nat :=
  if dom = 0 then none else (c.parts.find? (fun e => e.2.domain = dom && c.partMay e.1 a n write)).map Prod.fst

/-- A request refused by its domain (R245): counted, ACCESS_ERROR. -/
def Chip.domainRefuse (c : Chip) (p : Packet) : Chip := (c.count fabFrame 5 1).respond p 2 0 []

/-- Who a request's reads are charged to. -/
def fabConsumer (part : Nat) : Consumer := { page := some { blk := .vetchFab, inst := 0 }, part := some part, opcode := 0, target := 0 }

/-- A request judged (R244, R245): what it names must exist and belong to a partition of its domain. Answers the partition
or the status, and whether its domain is the cause. -/
def Chip.judge (c : Chip) (p : Packet) (n : Nat) (write dramOnly : Bool) : Nat ⊕ (Nat × Bool) :=
  match c.region p.addr n with
  | none => .inr (1, false)
  | some k =>
    let kindOk := match k with
      | .hbm => true
      | .ddr => true
      | .scratch _ => !dramOnly
      | .bridge => !dramOnly
      | _ => false
    if !kindOk then .inr (2, false)
    else match c.domainPart p.domain p.addr n write with
      | some q => .inl q
      | none => .inr (2, (c.domainPart p.domain p.addr n false).isNone)

/-- A refusal answered; one that the domain causes is counted (R245). -/
def Chip.refuseReq (c : Chip) (p : Packet) (why : Nat × Bool) : Chip :=
  if why.2 then c.domainRefuse p else c.respond p why.1 0 []

/-- WRITE (R244): the lines are written, poisoned where the packet is (R246). It waits while the partition's regulators
have no level left (R319). -/
def Chip.reqWrite (x : Ctx) (env : Env) (c : Chip) (i : Nat) : Chip :=
  match c.delivered i 1 with
  | none => c
  | some p =>
    let n := p.len
    if n = 0 || 4096 < n || p.data.length ≠ n || p.rsvdBad false false then (c.consume i).respond p 5 0 []
    else match c.judge p n true false with
      | .inr why => (c.consume i).refuseReq p why
      | .inl q =>
        let run := [(p.addr, n)]
        if !c.dramLets q run then c
        else
          let c := (c.upset x env.upsets).consume i
          let x := x.upset env.upsets
          let r := Chip.readLines x (fabConsumer q) (partialLines p.addr n) c
          match r.2 with
          | some f => r.1.respond p f.code.1 f.code.2 []
          | none =>
            let c := r.1.wr x p.addr p.data
            let c := if p.poison then (linesOf p.addr n).foldl (fun c l => c.stage (.health (c.key x.fuse l / 64) .poison)) c else c
            ((c.tierWrites run).dramCharge q run).respond p 0 0 []

/-- READ (R244). -/
def Chip.reqRead (x : Ctx) (env : Env) (c : Chip) (i : Nat) : Chip :=
  match c.delivered i 2 with
  | none => c
  | some p =>
    let n := p.len
    if n = 0 || 4096 < n || p.rsvdBad false false then (c.consume i).respond p 5 0 []
    else match c.judge p n false false with
      | .inr why => (c.consume i).refuseReq p why
      | .inl q =>
        let run := [(p.addr, n)]
        if !c.dramLets q run then c
        else
          let c := (c.upset x env.upsets).consume i
          let x := x.upset env.upsets
          let r := Chip.readRuns x (fabConsumer q) run c
          match r.2 with
          | some f => r.1.respond p f.code.1 f.code.2 []
          | none => (r.1.dramCharge q run).respond p 0 0 (c.rdBytes x p.addr n)

/-- The new word of an ATOMIC (R244). -/
def atomicWord (op old operand cmp : Nat) : Nat :=
  match op with
  | 0 => (old + operand) % 2 ^ 64
  | 1 => operand
  | 2 => if old = cmp then operand else old
  | _ => max old operand

/-- ATOMIC (R244). -/
def Chip.reqAtomic (x : Ctx) (env : Env) (c : Chip) (i : Nat) : Chip :=
  match c.delivered i 3 with
  | none => c
  | some p =>
    let op := p.fld 7 1
    if p.len ≠ 16 || p.data.length ≠ 16 || 4 ≤ op || p.addr % 8 ≠ 0 || p.rsvdBad false false then (c.consume i).respond p 5 0 []
    else match c.judge p 8 true true with
      | .inr why => (c.consume i).refuseReq p why
      | .inl q =>
        let run := [(p.addr, 8)]
        if !c.dramLets q run then c
        else
          let c := (c.upset x env.upsets).consume i
          let x := x.upset env.upsets
          let r := Chip.readRuns x (fabConsumer q) run c
          match r.2 with
          | some f => r.1.respond p f.code.1 f.code.2 []
          | none =>
            let old := c.rdNat x p.addr 8
            let new := atomicWord op old (leNat (p.data.take 8)) (leNat (p.data.drop 8))
            let c := r.1.wr x p.addr (leBytes 8 new)
            ((c.tierWrites run).dramCharge q run).respond p 0 0 (leBytes 8 old)

/-- EVENT_SIGNAL (R244-R246, R46). -/
def Chip.reqSignal (x : Ctx) (c : Chip) (i : Nat) : Chip :=
  match c.delivered i 5 with
  | none => c
  | some p =>
    let c := c.consume i
    let e := c.event (p.addr % 2 ^ 16)
    let dom := match e.owner with
      | some q => (match c.part? q with
        | some pt => p.domain ≠ 0 && pt.domain = p.domain
        | none => false)
      | none => false
    if 2 ^ 16 ≤ p.addr || p.count = 0 || p.len ≠ 0 || p.rsvdBad true false then c.respond p 5 0 []
    else if !e.fabric then (c.count 0x006 0 1).domainRefuse p
    else if !dom then c.domainRefuse p
    else (c.signal x (p.addr % 2 ^ 16) p.count).1.respond p 0 0 []

/-- WRITE (R244). -/
def execWrite (i : Nat) (env : Env) : State → Host.Outcome State Fault Refusal := onChip (fun x c => Chip.reqWrite x env c i)

/-- READ (R244). -/
def execRead (i : Nat) (env : Env) : State → Host.Outcome State Fault Refusal := onChip (fun x c => Chip.reqRead x env c i)

/-- ATOMIC (R244). -/
def execAtomic (i : Nat) (env : Env) : State → Host.Outcome State Fault Refusal := onChip (fun x c => Chip.reqAtomic x env c i)

/-- EVENT_SIGNAL (R244). -/
def execEventSignal (i : Nat) : State → Host.Outcome State Fault Refusal := onChip (fun x c => Chip.reqSignal x c i)

end Sys2Proof.Machine
end

