-- ==== Sys2Proof/Machine/Collect.lean ====
section
/-! DEFINITION. Collectives (chapter 11): the arithmetic of a hop, launches with their local phase and tiles, partials and
folds as they arrive, repeats, norm blocks, the scalar reduction's packets, gathers, and responses and their time-outs. -/

namespace Sys2Proof.Machine

/-! ### Arithmetic of a hop (R263) -/

/-- The bump of a block at an exponent; whether it saturates (R263). -/
def chooseBump (v : List Val) (e : Int) : Nat × Bool :=
  match (List.range 16).find? (fun (b : Nat) => v.all (fun x => ((x.scale (-(e + (b : Int)))).rneInt).natAbs ≤ 127)) with
  | some b => (b, false)
  | none => (15, true)

/-- Hop 0 (R263): the block and whether it saturated. -/
def encode0 (x : List Val) (e : Int) : Pb8 × Bool :=
  let b := chooseBump x e
  (pb8Encode e b.1 x, b.2)

/-- A local input rounded onto a grid and saturated, and whether it saturated. -/
def onGrid (x : List Val) (g : Int) : List Int × Bool :=
  let l := x.map (fun v => (v.scale (-g)).rneInt)
  (l.map (fun v => clampInt v (-(2 ^ 30)) (2 ^ 30 - 1)), l.any (fun v => v < -(2 ^ 30) || 2 ^ 30 - 1 < v))

/-- A sum of integers. -/
def sumInt (l : List Int) : Int := l.foldl (· + ·) 0

/-- The sums of a hop on the incoming grid. -/
structure HopSum where
  s : List Int
  g : Int
  ovf : Bool
  ok : Bool
deriving DecidableEq, Repr

/-- The add of a hop (R263), with a fold as a second local input (R270). -/
def hopAdd (b : Pb8) (x : List Val) (fold : Option (List Val)) (ePrev : Int) : HopSum :=
  let g := ePrev + b.bump
  let l := onGrid x g
  let m := match fold with
    | some f => onGrid f g
    | none => (l.1.map (fun _ => 0), false)
  let t := List.zipWith (· + ·) l.1 m.1
  let s := List.zipWith (· + ·) b.vals t
  { s := s, g := g, ovf := l.2 || m.2, ok := sumInt s % 127 = (b.residue + sumInt t) % 127 }

/-- A residue rotated left in 7 bits (R69). -/
def rotl7 (r k : Nat) : Nat := (r * 2 ^ k % 128) ||| (r / 2 ^ (7 - k))

/-- Requantisation onto a hop's grid (R263): the block, whether it saturated, and whether the shift check passes. -/
def requantise (h : HopSum) (e : Int) : Pb8 × Bool × Bool :=
  let vs := h.s.map (fun v => (Val.ofInt v).scale h.g)
  let b := chooseBump vs e
  let o := pb8Encode e b.1 vs
  let k : Int := e + b.1 - h.g
  let d := if 0 ≤ k then sumInt (List.zipWith (fun v q => v - q * 2 ^ k.toNat) h.s o.vals) else 0
  (o, b.2, b.2 || ((rotl7 o.residue (k % 7).toNat : Nat) : Int) = (sumInt h.s - d) % 127)

/-- An NF block (R69, R264); its BUMP is 0 where R69 states none (log 105). -/
def nfBlock : Pb8 := { bump := 0, nf := true, residue := 0, vals := List.replicate 32 0 }

/-- The exponent of a hop (R257). -/
def hopExp (flat : Bool) (e0 : Int) (h : Nat) : Int := if flat || h = 0 then e0 else e0 + (Nat.log2 h + 1 : Nat)

/-! ### Stage slots and launches -/

/-- The state of the stage slot at an address. -/
def Chip.stageAt (c : Chip) (a : Nat) : Stage := tabGet {} c.coll.stages a

/-- The state of a stage slot replaced. -/
def Chip.putStage (c : Chip) (a : Nat) (s : Stage) : Chip := { c with coll.stages := tabSet c.coll.stages a s }

/-- A launch past its local phase, replaced. -/
def Chip.putLaunch (c : Chip) (id : Nat) (l : Launch) : Chip := { c with coll.launches := tabSet c.coll.launches id l }

/-- One tile of a launch set. -/
def Chip.setTile (c : Chip) (id t : Nat) (v : Tile) : Chip :=
  match tabFind c.coll.launches id with
  | none => c
  | some l => c.putLaunch id { l with tiles := listSet l.tiles t v }

/-- Who the hub's reads for a collective are charged to. -/
def collConsumer (p : Nat) (k : Cmd) : Consumer := { page := some { blk := .coll, inst := 0 }, part := some p, opcode := k.opcode, target := k.target }

/-- A tile fails (R267): the gate's ABANDON, `COLL` source 2, the command ends, and the member may send its record. -/
def Chip.failLaunch (c : Chip) (k : Cmd) (st dt : Nat) : Chip :=
  let p := (c.cmdPart k).getD 16
  let c := ((c.gateAbandon p).fire collFrame 2).endCmd (c.seenNf ((c.cmd? k.id).getD k)) st dt
  ({ c with coll.launches := tabDel c.coll.launches k.id }).trySendUp p

/-- A saturation (R264): the gate's OVF, CTR5 and source 3. -/
def Chip.satBlock (c : Chip) (p : Nat) : Chip := ((c.gateOvf p).count collFrame 5 1).fire collFrame 3

/-- The partition's fabric domain. -/
def Chip.domainOf (c : Chip) (p : Nat) : Nat := match c.part? p with
  | some pt => pt.domain
  | none => 0

/-- The request that carries a tile's partial to SUCC (R262). -/
def Chip.partialSpec (c : Chip) (l : Launch) (q : Group) (t : Nat) (d : List Byte) : PacketSpec :=
  { type := 4, vc := 3, dst := q.succ, domain := c.domainOf l.part, flow := l.group, addr := l.stage + 16384 * t, len := d.length
    coll := 2 ^ 20 * (l.epoch % 256) + 2 ^ 8 * l.hop + l.group, data := d }

/-- A tile's partial sent to SUCC (R262), from its bytes. -/
def Chip.sendPartial (c : Chip) (l : Launch) (q : Group) (id t : Nat) (d : List Byte) : Chip :=
  (c.issue (c.partialSpec l q t d) (.tile id t) (some l.part)).count collFrame 0 (d.length / 34)

/-- Beats of a cell's vector unit added to a command, where the group's adds run there (R255): 512 elements a beat (R202). -/
def Chip.siteBeats (c : Chip) (q : Group) (id n : Nat) : Chip :=
  match q.site, c.cmd? id with
  | some _, some k => c.putCmd { k with acct := { k.acct with beats := k.acct.beats + ceilDiv n 512 } }
  | _, _ => c

/-- A tile's outgoing partial is ready: the retained copy is written (R261) and it is sent, unless a perturbation holds it
back (R417, R419). -/
def Chip.outPartial (c : Chip) (x : Ctx) (l : Launch) (q : Group) (id t : Nat) (d : List Byte) : Chip :=
  let c := c.wr x (l.stage + 16384 * t + 10432) d
  let pt := (c.hdr collFrame).pert
  let us := bitField pt.late.toNat 15 0
  if pt.armed 6 (some l.part) && bitField pt.late.toNat 31 16 = t then
    (c.injected { blk := .coll, inst := 0 } 6).setTile id t (.late (if us = 0xFFFF then none else some (c.time + 1000 * us)))
  else (c.sendPartial l q id t d).setTile id t .sent

/-- The blocks of a tile as one hop forms them: the outgoing blocks or the final sums, whether a check failed (1 adder, 2
shift), the saturations. -/
structure HopRun where
  outs : List (Option (Pb8 ⊕ (List Int × Int)))
  fail : Nat
  sats : Nat
deriving DecidableEq, Repr

/-- One block of a hop from 1 on (R263, R264, R270). -/
def hopBlock (final : Bool) (ePrev e : Int) (b : Pb8) (x : List Val) (fold : Option (List Val)) (r : HopRun) : HopRun :=
  if b.nf || x.any (fun v => !v.finite) || (fold.getD []).any (fun v => !v.finite) then { r with outs := r.outs ++ [none] }
  else
    let h := hopAdd b x fold ePrev
    if !h.ok then { r with fail := if r.fail = 0 then 1 else r.fail }
    else if final then { r with outs := r.outs ++ [some (.inr (h.s, h.g))], sats := r.sats + flagNat h.ovf }
    else
      let o := requantise h e
      if !o.2.2 then { r with fail := if r.fail = 0 then 2 else r.fail }
      else { r with outs := r.outs ++ [some (.inl o.1)], sats := r.sats + flagNat (h.ovf || o.2.1) }

/-- An NF block produced: CTR4 and source 4 (R264, R277). -/
def Chip.nfProduced (c : Chip) : Chip := (c.count collFrame 4 1).fire collFrame 4

/-- The addresses of a run of an owner's output elements from element `i` of the flat sequence on (R259). -/
def Cmd.outAddr (k : Cmd) (i : Nat) : Nat := k.fld 40 8 + 4 * (i / k.fld 24 2 * k.fld 36 4 + i % k.fld 24 2)

/-- The FP32 words of a final block (R263, R264). -/
def finalWords : Option (Pb8 ⊕ (List Int × Int)) → List Nat
  | some (.inr r) => r.1.map (fun v => toF32 ((Val.ofInt v).scale r.2))
  | _ => List.replicate 32 f32.canonNan

/-- The bytes of an outgoing block. -/
def outBytes : Option (Pb8 ⊕ (List Int × Int)) → List Byte
  | some (.inl b) => b.bytes
  | _ => nfBlock.bytes

/-- The incoming blocks of a tile: the stored partial, short ones padded with zero blocks, or zero blocks where the tile
closed without one (R268, R270). -/
def partialBlocks (d : List Byte) (n : Nat) : List Pb8 :=
  (List.range n).map (fun i => pb8OfBytes ((d.drop (34 * i)).take 34 ++ List.replicate (34 - ((d.drop (34 * i)).take 34).length) 0))

/-- A tile runs (R259, R263-R267, R270): once its local contribution is there, and at hops from 1 on its partial or the
window's close, and its regulators have level (R319), its blocks are formed, counted and sent on, or written by the owner, which no
page table bound meanwhile may hold (R285). -/
def Chip.runTile (x : Ctx) (c : Chip) (id t : Nat) : Chip :=
  match c.cmd? id, tabFind c.coll.launches id with
  | some k, some l =>
    (match tabFind c.coll.groups l.group with
    | none => c
    | some q =>
      let p := l.part
      let a := l.stage + 16384 * t
      let s := c.stageAt a
      let e8 := l.epoch % 256
      let n := min 2048 (k.launchElems - 2048 * t)
      let nb := n / 32
      let got := s.inc = some e8
      let closes := (c.gate p).window && (c.gate p).epoch = l.epoch
      let fold := s.fold.filter (fun f => (f.1 + 1) % 256 = e8)
      let runs := [(a + 64, 4 * n)] ++ (if l.hop ≠ 0 && got then [(a + 8256, 34 * nb)] else []) ++ (if fold.isSome then [(a + 12608, 34 * nb)] else [])
      let final := l.hop = q.g - 1
      let outs := if final then (List.range nb).map (fun i => (k.outAddr (2048 * t + 32 * i), 128)) else [(a + 10432, 34 * nb)]
      if l.tiles[t]? ≠ some .waiting || k.phase ≠ .running || !(l.hop = 0 || got || closes) || !(c.dramLets p runs && c.dramLets p outs) then c
      else if final && outs.any (fun u => c.tableHit u.1 u.2) then c.failLaunch k 2 0
      else
        let x := x.now c
        let r := Chip.readRuns x (collConsumer p k) (runs ++ partRuns outs) c
        match r.2 with
        | some f => r.1.failLaunch k f.code.1 f.code.2
        | none =>
          let c := Chip.coverRuns x outs ((r.1.dramCharge p runs).dramCharge p outs)
          let c := if l.hop = 0 then c else c.siteBeats q id n
          let xs := chunks 32 (nb + 1) ((List.range n).map (fun i => ofF32 (c.rdNat x (a + 64 + 4 * i) 4)))
          let fv (i : Nat) : Option (List Val) := fold.map (fun f => (pb8OfBytes (c.rdBytes x (a + 12608 + 34 * i) 34)).decode f.2)
          let shut (st : Stage) : Stage := { st with opened := false, closed := some e8, fold := none }
          if l.hop = 0 then
            let c := c.putStage a (shut s)
            let go := (List.range nb).foldl (fun (acc : Chip × List Byte × Bool) i =>
              let xb := xs.getD i []
              let v := match fv i with
                | some f => List.zipWith Val.add xb f
                | none => xb
              if v.any (fun u => !u.finite) then (acc.1.nfProduced, acc.2.1 ++ nfBlock.bytes, true)
              else
                let o := encode0 v l.e0
                ((if o.2 then acc.1.satBlock p else acc.1), acc.2.1 ++ o.1.bytes, acc.2.2)) (c, [], l.nf)
            let l := { l with nf := go.2.2 }
            (go.1.putLaunch id l).outPartial x l q id t go.2.1
          else
            let ePrev := hopExp q.flat l.e0 (l.hop - 1)
            let bs := partialBlocks (if got then c.rdBytes x (a + 8256) (34 * nb) else []) nb
            let run := (List.range nb).foldl (fun r i =>
              hopBlock final ePrev (hopExp q.flat l.e0 l.hop) (bs.getD i nfBlock) (xs.getD i []) (fv i) r) { outs := [], fail := 0, sats := 0 }
            let l := { l with nf := l.nf || run.outs.any Option.isNone }
            let c := c.putLaunch id l
            if run.fail ≠ 0 then ((c.count collFrame 3 (q.limit - s.repeats + 1))).failLaunch k 0x11 run.fail
            else
              let s := if got then s else { s with missed := some (e8, ePrev) }
              let c := c.putStage a (shut s)
              let c := (List.range run.sats).foldl (fun c _ => c.satBlock p) c
              let c := c.count collFrame 1 (run.outs.filter Option.isSome).length
              if final then
                let c := (run.outs.filter Option.isNone).foldl (fun c _ => c.nfProduced) (if run.outs.any Option.isNone then c.gateNf p else c)
                let ws := run.outs.flatMap finalWords
                let c := c.putLaunch id { l with nf := l.nf || ws.any (fun b => f32.nonFinite b) }
                let c := (List.range (ceilDiv n 32)).foldl (fun c i =>
                  c.wr x (k.outAddr (2048 * t + 32 * i)) (((ws.drop (32 * i)).take 32).flatMap (leBytes 4))) c
                (c.tierWrites outs).setTile id t .done
              else
                let c := (run.outs.filter Option.isNone).foldl (fun c _ => c.nfProduced) c
                c.outPartial x l q id t (run.outs.flatMap outBytes))
  | _, _ => c

/-- A launch whose tiles are all done ends (R259); with NB_CLOSE at the owner, after the earlier launches of its group, it
first adds its norm block (R272). -/
def Chip.closeLaunch (x : Ctx) (c : Chip) (id : Nat) : Chip :=
  match c.cmd? id, tabFind c.coll.launches id with
  | some k, some l =>
    if k.phase ≠ .running || !l.tiles.all (fun t => t = .done) then c
    else
      let p := l.part
      let owner : Bool := match tabFind c.coll.groups l.group with
        | some q => l.hop = q.g - 1
        | none => false
      let nb := owner && bitAt (k.fld 17 1) 0
      let ended (ws : List Nat) (c : Chip) : Chip :=
        let nf := k.acct.nf || l.nf || ws.any (fun b => f32.nonFinite b) || f32.nonFinite (blockSum ws)
        let c := c.endCmd { k with acct := { k.acct with bytes64 := k.acct.bytes64 + ceilDiv (4 * k.launchElems) 64, nf := nf } } 0 0
        ({ c with coll.launches := tabDel c.coll.launches id }).trySendUp p
      if !nb then ended [] c
      else if c.cmds.any (fun j => c.runningOp p 0x71 j && j.fld 16 1 = k.fld 16 1 && j.startAt < k.startAt) then c
      else
        let x := x.now c
        let run := [(k.fld 48 8, 4 * k.fld 56 4)]
        if !c.dramLets p run then c
        else
        let r := Chip.readRuns x (collConsumer p k) run c
        match r.2 with
        | some f =>
          let c := (r.1.gateAbandon p).endCmd (c.seenNf k) f.code.1 f.code.2
          ({ c with coll.launches := tabDel c.coll.launches id }).trySendUp p
        | none =>
          let ws := (List.range (k.fld 56 4)).map (fun i => c.rdNat x (k.fld 48 8 + 4 * i) 4)
          ended ws ((r.1.dramCharge p run).gateBlock p ws)
  | _, _ => c

/-- The running launches of a group, in the order they started. -/
def Chip.launchesOf (c : Chip) (grp : Nat) : List Nat :=
  let ks := c.cmds.filter (fun k => k.phase = .running && k.opcode = 0x71 && k.tclass = 6 && k.fld 16 1 = grp)
  (ks.mergeSort (fun a b => a.startAt ≤ b.startAt)).map (fun k => k.id)

/-- Every launch of a group that can now end does. -/
def Chip.closeLaunches (x : Ctx) (c : Chip) (grp : Nat) : Chip := (c.launchesOf grp).foldl (Chip.closeLaunch x) c

/-- A tile runs, and the launches of its group end where they can. -/
def Chip.advance (x : Ctx) (c : Chip) (id t grp : Nat) : Chip := Chip.closeLaunches x (Chip.runTile x c id t) grp

/-! ### Commands -/

/-- A group from its context (R253). -/
def groupOf (p : Nat) (b : List Byte) : Group :=
  let f := ctxFld b
  { part := p, g := f 0 2, member := f 2 2, succ := f 4 2 % 4096, pred := f 6 2 % 4096, parent := f 8 2 % 4096, root := bitAt (f 8 2) 15
    flat := bitAt (f 11 1) 0, site := if bitAt (f 11 1) 1 then some (f 14 1) else none, eInit := signedOf 8 (f 12 1), limit := f 13 1
    stageBase := f 16 8, stageBytes := f 24 8, kids := (List.range (f 10 1)).map (fun i => f (32 + 2 * i) 2 % 4096) }

/-- The stage slots of a region return to EMPTY. -/
def Chip.emptyStages (c : Chip) (q : Group) : Chip := { c with coll.stages := c.coll.stages.filter (fun e => !q.holds e.1) }

/-- COLL_GROUP_SET of a running command (R254). -/
def Chip.groupSet (c : Chip) (k : Cmd) : Chip :=
  let p := (c.cmdPart k).getD 16
  let grp := k.fld 16 1
  let q := groupOf p k.ctx
  let c := match tabFind c.coll.groups grp with
    | some o => c.emptyStages o
    | none => c
  let c := c.emptyStages q
  ({ c with coll.groups := tabSet c.coll.groups grp q }).endCmd { k with acct := { k.acct with bytes64 := k.acct.bytes64 + 1 } } 0 0

/-- A group slot unbound (R254). -/
def Chip.unbind (c : Chip) (grp : Nat) : Chip :=
  match tabFind c.coll.groups grp with
  | none => c
  | some q => { c.emptyStages q with coll.groups := tabDel c.coll.groups grp }

/-- COLL_GROUP_FREE of a running command (R254). -/
def Chip.groupFree (c : Chip) (k : Cmd) : Chip := (c.unbind (k.fld 16 1)).endCmd k 0 0

/-- COLL_LAUNCH of a running command (R259, R260): it waits for its local phase; once past it, partials that a perturbation
delayed go when due, tiles that only a regulator held run (R319), and it ends when every tile is done. -/
def Chip.launch (x : Ctx) (c : Chip) (k : Cmd) : Chip :=
  if k.stage = 0 then c.putCmd { k with stage := 1 }
  else
    match tabFind c.coll.launches k.id with
    | none => c
    | some l =>
      let c := match tabFind c.coll.groups l.group with
        | none => c
        | some q =>
          (List.range l.tiles.length).foldl (fun c t =>
            match l.tiles[t]? with
            | some (Tile.late (some due)) =>
              if due ≤ c.time then
                (c.sendPartial l q k.id t (c.rdBytes x (l.stage + 16384 * t + 10432) (34 * (min 2048 (k.launchElems - 2048 * t) / 32)))).setTile k.id t .sent
              else c
            | some .waiting => Chip.runTile x c k.id t
            | _ => c) c
      Chip.closeLaunches x c l.group

/-- COLL_LOCAL_PHASE (R260): with the partition RESIDENT and the cell's earlier accumulations committed (R131), the source is read and
zeroed into the local areas, E_0 is latched (R257), and every tile that can run does. -/
def Chip.localPhase (x : Ctx) (env : Env) (c : Chip) (k : Cmd) : Chip :=
  let p := (c.cmdPart k).getD 16
  let cell := k.fld 19 1
  let grp := k.fld 16 1
  match c.part? p, tabFind c.coll.groups grp with
  | some pt, some q =>
    let n := k.launchElems
    let areas := (List.range (ceilDiv n 2048)).map (fun t => (q.stageBase + k.fld 32 4 + 16384 * t + 64, 4 * min 2048 (n - 2048 * t)))
    if k.stage ≠ 1 || pt.state ≠ .resident || c.accumHeld k cell || !c.dramLets p areas then c
    else
      let c := c.upset x env.upsets
      let x := x.upset env.upsets
      let runs := k.launchSource
      let r := Chip.readRuns x (collConsumer p k) runs c
      match r.2 with
      | some f => (r.1.zeroSome x runs).failLaunch k f.code.1 f.code.2
      | none =>
        let ws := runs.flatMap (fun u => (List.range (u.2 / 4)).map (fun i => c.rdNat x (u.1 + 4 * i) 4))
        let inj := r.1.nfInject { blk := .coll, inst := 0 } k n
        let ws := match inj with
          | some (i, v) => listSet ws i (toF32 v)
          | none => ws
        let c := (r.1.nfDone { blk := .coll, inst := 0 } inj).dramCharge p areas
        let stage := q.stageBase + k.fld 32 4
        let c := runs.foldl (fun c u => c.wr x u.1 (List.replicate u.2 0)) c
        let tiles := chunks 2048 (n / 2048 + 2) ws
        let c := (List.range tiles.length).foldl (fun c t =>
          let a := stage + 16384 * t
          let d := (tiles.getD t []).flatMap (leBytes 4)
          ((c.wr x (a + 64) d).tierWrites [(a + 64, d.length)]).putStage a { c.stageAt a with opened := true, repeats := 0 }) c
        let e0 := clampInt (q.base.getD q.eInit + q.ls.getD (c.gate p).ls + k.sfld 18) (-149) 104
        let c := { c with coll.groups := tabSet c.coll.groups grp { q with e0 := e0 } }
        let c := c.putLaunch k.id
          { e0 := e0, epoch := (c.gate p).epoch, group := grp, stage := stage, hop := (q.member + 2 * q.g - k.fld 20 2 - 1) % q.g, part := p
            tiles := List.replicate tiles.length .waiting, nf := ws.any (fun b => f32.nonFinite b) }
        let c := c.putCmd { k with stage := 2, acct := { k.acct with beats := k.acct.beats + ceilDiv (4 * n) 1024 + env.feed + env.drain } }
        let c := (List.range tiles.length).foldl (fun c t => Chip.runTile x c k.id t) c
        let c := Chip.closeLaunches x c grp
        if c.cmds.any (c.runningOp p 0x21) then
          (c.cmds.filter (c.runningOp p 0x21)).foldl (fun c j => if j.stage = 1 && c.sealFree p j then c.enterReducing p else c) c
        else c
  | _, _ => c

/-! ### Partials (R265, R268) -/

/-- The partition that the domain check of a REDUCE_ADD finds (R245). -/
def Chip.reducePart (c : Chip) (q : Packet) (n : Nat) : Option Nat :=
  if q.domain = 0 then none else (c.parts.find? (fun e => e.2.domain = q.domain && c.hubMay e.1 q.addr n)).map Prod.fst

/-- A collective packet dropped (R268): in the gate's CTR4 under LATE-FOLD, else in `COLL` CTR6. -/
def Chip.dropColl (c : Chip) (p : Nat) (late : Bool) : Chip :=
  if late && (c.gate p).lateFold then c.count (gateFrame p) 4 1 else c.count collFrame 6 1

/-- The running launch and tile whose stage slot an address is. -/
def Chip.tileAt (c : Chip) (a : Nat) : Option (Nat × Nat) :=
  (c.coll.launches.find? (fun e => e.2.stage ≤ a && a < e.2.stage + 16384 * e.2.tiles.length)).map (fun e => (e.1, (a - e.2.stage) / 16384))

/-- What a partial that passed the checks of R245 and R268 finds in its slot, by its epoch (R268). -/
inductive Arrival where
  | stored
  | duplicate
  | fold (missed : Option (Nat × Int))
  | dropped
deriving DecidableEq, Repr

/-- The table of R268 for a slot's state, in a gate at an epoch, under its policy: `e` is the packet's epoch. The incoming area is empty
once the tile of the epoch it holds has run, and a tile that has closed takes no partial any more. -/
def Stage.arrival (s : Stage) (now : Nat) (lateFold : Bool) (e : Nat) : Arrival :=
  let next := (now + 1) % 256
  let missed := s.missed.filter (fun m => m.1 = e)
  let empty := match s.inc with
    | none => true
    | some i => (i ≠ now && i ≠ next) || s.closed = some i
  if lateFold && missed.isSome && s.fold.isNone && s.closed ≠ some ((e + 1) % 256) then .fold missed
  else if !(e = now || e = next) then .dropped
  else if s.inc = some e then .duplicate
  else if empty && s.closed ≠ some e then .stored
  else .dropped

/-- A REDUCE_ADD that is not SCALAR (R265, R268): judged by its domain and its slot, then by its epoch stored, folded or dropped; a
block that fails its check stores nothing; a stored partial lets its tile run. It waits while the partition's regulator has no level
(R319). -/
def Chip.reduceAdd (x : Ctx) (c : Chip) (i : Nat) : Chip :=
  match c.delivered i 4 with
  | none => c
  | some r =>
    let n := r.len
    let grp := r.coll % 256
    let e := bitField r.coll 27 20
    if bitAt r.coll 28 then c
    else if n = 0 || n % 34 ≠ 0 || 2176 < n || r.data.length ≠ n || r.rsvdBad false true || 2 ^ 29 ≤ r.coll then (c.consume i).respond r 5 0 []
    else if (c.region r.addr n).isNone then (c.consume i).respond r 1 0 []
    else match c.reducePart r n with
    | none => (c.consume i).domainRefuse r
    | some p =>
      match c.slotMine p grp with
      | none => (c.consume i).respond r 2 0 []
      | some q =>
        if !q.holds r.addr || (r.addr - q.stageBase) % 16384 ≠ 0 then (c.consume i).respond r 2 0 []
        else
          let g := c.gate p
          let s := c.stageAt r.addr
          let bs := (chunks 34 (n / 34 + 1) r.data).map pb8OfBytes
          let bad := (bs.filter Pb8.mismatch).length
          let nfs := (bs.filter (fun b => b.nf)).length
          let keep (off : Nat) (d : List Byte) (s : Stage) (c : Chip) : Chip :=
            ((((c.consume i).wr x (r.addr + off) d).tierWrites [(r.addr + off, d.length)]).dramCharge p [(r.addr + off, d.length)]).count collFrame 4 nfs
              |>.putStage r.addr s
          match s.arrival (g.epoch % 256) g.lateFold e with
          | .dropped => ((c.consume i).dropColl p true).respond r 0 0 []
          | .duplicate => (c.consume i).respond r 0 0 []
          | .fold missed =>
            if bad ≠ 0 then ((c.consume i).count collFrame 2 bad).respond r 0x11 0 []
            else if !c.dramLets p [(r.addr, n)] then c
            else ((keep 12608 r.data { s with fold := missed, missed := none } c).count (gateFrame p) 3 1).respond r 0 0 []
          | .stored =>
            if bad ≠ 0 then ((c.consume i).count collFrame 2 bad).respond r 0x11 0 []
            else if !c.dramLets p [(r.addr, n)] then c
            else
              let c := (keep 8256 (r.data ++ List.replicate (2176 - n) 0) { s with inc := some e } c).respond r 0 0 []
              match c.tileAt r.addr with
              | some (id, t) => Chip.advance x c id t grp
              | none => c

/-! ### Scalar records (R269, R270, R273) -/

/-- A delivered scalar record, checked (R245, R268): the partition, its group and the record with its epoch. -/
def Chip.scalarIn (c : Chip) (r : Packet) : Option (Nat × Group × Scalar × Nat) :=
  match tabFind c.coll.groups (r.coll % 256) with
  | none => none
  | some q =>
    if q.stageBase = r.addr && r.domain ≠ 0 && c.domainOf q.part = r.domain then
      let s := scalarOf r.data
      some (q.part, q, s.1, s.2)
    else none

/-- A scalar packet that is malformed. -/
def Packet.scalarBad (r : Packet) : Bool := r.len ≠ 68 || r.data.length ≠ 68 || r.rsvdBad false true || 2 ^ 30 ≤ r.coll

/-- SCALAR_RECORD (R273): a child's record of this epoch is kept for the sum, one of the next epoch is held, others are
dropped. -/
def Chip.scalarRecord (c : Chip) (i : Nat) : Chip :=
  match c.delivered i 4 with
  | none => c
  | some r =>
    if !bitAt r.coll 28 || bitAt r.coll 29 then c
    else
      let c := c.consume i
      if r.scalarBad then c.respond r 5 0 []
      else match c.scalarIn r with
      | none => c.domainRefuse r
      | some (p, q, s, e) =>
        let g := c.gate p
        let kid := r.src
        let c := c.respond r 0 0 []
        if !q.kids.contains kid || g.group ≠ r.coll % 256 then c.dropColl p false
        else if e = (g.epoch + 1) % 2 ^ 32 then
          (if (tabFind g.held kid).isSome then c.dropColl p false else c.putGate p { g with held := tabSet g.held kid s })
        else if e = g.epoch then
          (if g.sent || g.window || (tabFind g.kids kid).isSome then c.dropColl p true
          else (c.putGate p { g with kids := tabSet g.kids kid s }).trySendUp p)
        else c.dropColl p (serialNewer 32 g.epoch e)

/-- SCALAR_RESULT (R273): the parent's result resolves a REDUCING gate and goes on to every child. One that comes while the gate still
collects goes on at once and resolves it when it is REDUCING; one of the next epoch is held until the gate opens it. -/
def Chip.scalarResult (c : Chip) (i : Nat) : Chip :=
  match c.delivered i 4 with
  | none => c
  | some r =>
    if !bitAt r.coll 28 || !bitAt r.coll 29 then c
    else
      let c := c.consume i
      if r.scalarBad then c.respond r 5 0 []
      else match c.scalarIn r with
      | none => c.domainRefuse r
      | some (p, q, s, e) =>
        let g := c.gate p
        let c := c.respond r 0 0 []
        let held := c.putGate p { g with result := some (e, s) }
        if q.root || r.src ≠ q.parent || g.group ≠ r.coll % 256 then c.dropColl p false
        else if e = g.epoch && g.state = .reducing then c.applyResult p s
        else if g.result.isSome then c.dropColl p false
        else if e = g.epoch && g.state = .collecting then held.passResult p s
        else if e = (g.epoch + 1) % 2 ^ 32 && g.state ≠ .unconfigured then held
        else c.dropColl p false

/-- FOLD_WINDOW_EXPIRE (R270): every waiting tile of the epoch closes on zero blocks, and the record goes up without the
children still missing. -/
def Chip.foldWindow (x : Ctx) (c : Chip) (p : Nat) : Chip :=
  let g := c.gate p
  match g.sealAt with
  | none => c
  | some t =>
    if !g.lateFold || g.window || c.time < t + 1000 * g.windowUs || !(g.state = .collecting || g.state = .reducing) then c
    else
      let c := c.putGate p { g with window := true }
      let ls := c.coll.launches.filter (fun e => e.2.part = p && e.2.epoch = g.epoch)
      let c := ls.foldl (fun c e => (List.range e.2.tiles.length).foldl (fun c t => Chip.runTile x c e.1 t) c) c
      ((ls.map (fun e => e.2.group)).eraseDups.foldl (Chip.closeLaunches x) c).trySendUp p

/-! ### COLL_GATHER (R275, R276) -/

/-- The gather's take leaves the entry's waiters. -/
def Chip.leaveWaiters (c : Chip) (i id : Nat) : Chip :=
  let e := c.event i
  if e.waiters.contains id then c.putEvent i { e with waiters := e.waiters.filter (· ≠ id) } else c

/-- A gather ends: its take no longer stands. -/
def Chip.endGather (c : Chip) (k : Cmd) (st dt : Nat) : Chip := (c.leaveWaiters (k.fld 18 2) k.id).endCmd k st dt

/-- The piece of a gather's turn `h` at this member (R275). -/
def Cmd.gatherPiece (k : Cmd) (q : Group) (h : Nat) : Nat := k.piece ((q.member + q.g - h % q.g) % q.g)

/-- One piece written to SUCC in packets of 4,096 bytes (R275); poisoned lines make their packets travel poisoned (R246). -/
def Chip.gatherSend (x : Ctx) (env : Env) (c : Chip) (k : Cmd) (p h : Nat) : Chip :=
  match tabFind c.coll.groups (k.fld 16 1) with
  | none => c.endGather k 5 16
  | some q =>
    let a := k.gatherPiece q h
    let n := k.fld 20 4
    let runs := [(a, n)]
    if !c.dramLets p runs then c
    else
      let c := c.upset x env.upsets
      let x := x.upset env.upsets
      let lines := linesOf a n
      let (c, x) := c.onRead x (some p) lines
      let bad := lines.filter (fun l => c.lineHealth x l = .poison)
      let r := Chip.readLines x (collConsumer p k) (lines.filter (fun l => c.lineHealth x l ≠ .poison)) c
      match r.2 with
      | some f => r.1.endGather k f.code.1 f.code.2
      | none =>
        let c := bad.foldl (fun c l => c.poisonRead x l (collConsumer p k)) r.1
        let c := c.dramCharge p runs
        let ps := pieces (n / 4096 + 2) 0 n
        let c := ps.foldl (fun c u =>
          c.issue { type := 1, vc := 4, dst := q.succ, domain := c.domainOf p, flow := k.fld 16 1, addr := a + u.1, len := u.2
                    poison := bad.any (fun l => overlap l 64 (a + u.1) u.2), data := c.rdBytes x (a + u.1) u.2 } (.gather k.id) (some p)) c
        c.putCmd { k with stage := 1, data := [h, ps.length, flagNat (!bad.isEmpty)], acct := { k.acct with bytes64 := k.acct.bytes64 + ceilDiv n 64 } }

/-- COLL_GATHER of a running command (R275): its own piece goes first. -/
def Chip.gather (x : Ctx) (env : Env) (c : Chip) (k : Cmd) : Chip :=
  if k.stage = 0 then Chip.gatherSend x env c k ((c.cmdPart k).getD 16) 0 else c

/-- The responses of a piece's writes have all come: SUCC's event is signalled and the take of the next piece begins to wait,
unless the piece was poisoned. -/
def Chip.gatherWritten (c : Chip) (k : Cmd) : Chip :=
  let p := (c.cmdPart k).getD 16
  match tabFind c.coll.groups (k.fld 16 1) with
  | none => c.endGather k 5 16
  | some q =>
    if k.data.getD 2 0 ≠ 0 then c.endGather k 8 0
    else
      let c := c.issue { type := 5, vc := 6, dst := q.succ, domain := c.domainOf p, flow := k.fld 16 1, addr := k.fld 18 2, count := 1 } (.signal k.id) (some p)
      let e := c.event (k.fld 18 2)
      (c.putEvent (k.fld 18 2) { e with waiters := e.waiters ++ [k.id] }).putCmd { k with stage := 2 }

/-- GATHER_TAKE (R275): once the take succeeds, the next piece goes, or after the last one the command ends. A poisoned
entry ends it (R40). -/
def Chip.gatherTake (x : Ctx) (env : Env) (c : Chip) (k : Cmd) : Chip :=
  let i := k.fld 18 2
  let c := if k.stage = 2 then c.meetEvent x i else c
  let e := c.event i
  let g := (tabFind c.coll.groups (k.fld 16 1)).elim 0 (fun q => q.g)
  if k.stage = 3 then Chip.gatherSend x env c k ((c.cmdPart k).getD 16) (k.data.getD 0 0)
  else if k.stage ≠ 2 then c
  else if e.poisoned then c.endGather k 9 0
  else if e.waiters.head? ≠ some k.id || e.count = 0 then c
  else
    let c := c.putEvent i { e with count := e.count - 1, waiters := e.waiters.tail }
    let h := k.data.getD 0 0 + 1
    let c := if g ≤ h + 1 then c.endCmd k 0 0
      else
        let k := { k with stage := 3, data := [h, 0, 0] }
        Chip.gatherSend x env (c.putCmd k) k ((c.cmdPart k).getD 16) h
    settle c.settleFuel x [i] c

/-! ### Responses and time-outs (R247, R265, R276) -/

/-- What the end of a request makes of the command that issued it; a partial that failed its check goes again with its header (R265). -/
def Chip.answered (x : Ctx) (c : Chip) (tag : Nat) (who : Issuer) (st dt : Nat) : Chip :=
  match who with
  | .scalar => c
  | .signal id =>
    (match c.cmd? id with
    | some k => if k.phase = .running && st ≠ 0 then c.endGather k st dt else c
    | none => c)
  | .gather id =>
    (match c.cmd? id with
    | some k =>
      if k.phase ≠ .running || k.stage ≠ 1 then c
      else if st ≠ 0 then c.endGather k st dt
      else
        let k := { k with data := [k.data.getD 0 0, k.data.getD 1 0 - 1, k.data.getD 2 0] }
        if k.data.getD 1 0 = 0 then c.gatherWritten k else c.putCmd k
    | none => c)
  | .tile id t =>
    (match c.cmd? id, tabFind c.coll.launches id with
    | some k, some l =>
      if k.phase ≠ .running || l.tiles[t]? ≠ some .sent then c
      else if st = 0 then Chip.closeLaunches x (c.setTile id t .done) l.group
      else if st ≠ 0x11 then c.failLaunch k st dt
      else
        let a := l.stage + 16384 * t
        let s := c.stageAt a
        (match tabFind c.coll.groups l.group with
        | none => c
        | some q =>
          if q.limit ≤ s.repeats then c.failLaunch k 0x11 0
          else
            let d := c.rdBytes x (a + 10432) (34 * (min 2048 (k.launchElems - 2048 * t) / 32))
            ((c.putStage a { s with repeats := s.repeats + 1 }).reissue (c.partialSpec l q t d) tag (.tile id t) (some l.part)).count collFrame 0 (d.length / 34))
    | _, _ => c)

/-- RESPONSE (R247): it completes its request, or is late. -/
def Chip.response (x : Ctx) (c : Chip) (i : Nat) : Chip :=
  match c.delivered i 8 with
  | none => c
  | some r =>
    let c := c.consume i
    match tabFind c.links.tags r.tag with
    | none => c.count fabFrame 4 1
    | some o => Chip.answered x { c with links.tags := tabDel c.links.tags r.tag } r.tag o.issuer (r.fld 7 1) (r.count % 256)

/-- TXN_TIMEOUT (R247): a request without a response for TXN_TIMEOUT µs. -/
def Chip.txnTimeout (x : Ctx) (c : Chip) (tag : Nat) : Chip :=
  match tabFind c.links.tags tag with
  | none => c
  | some o =>
    if c.time < o.issuedAt + 1000 * max 1 c.links.txnTimeout then c
    else Chip.answered x ((({ c with links.tags := tabDel c.links.tags tag }).count fabFrame 1 1).fire fabFrame 2) tag o.issuer 0x12 1

/-- COLL_GROUP_SET (R254). -/
def execCollGroupSet (cmd : Nat) : State → Host.Outcome State Fault Refusal := onOp cmd 0x70 (fun _ => Chip.groupSet)

/-- COLL_GROUP_FREE (R254). -/
def execCollGroupFree (cmd : Nat) : State → Host.Outcome State Fault Refusal := onOp cmd 0x73 (fun _ => Chip.groupFree)

/-- COLL_LAUNCH (R259). -/
def execCollLaunch (cmd : Nat) : State → Host.Outcome State Fault Refusal := onOp cmd 0x71 Chip.launch

/-- COLL_LOCAL_PHASE (R260). -/
def execCollLocalPhase (cmd : Nat) (env : Env) : State → Host.Outcome State Fault Refusal :=
  onOp cmd 0x71 (fun x => Chip.localPhase x env)

/-- COLL_GATHER (R275). -/
def execCollGather (cmd : Nat) (env : Env) : State → Host.Outcome State Fault Refusal := onOp cmd 0x72 (fun x => Chip.gather x env)

/-- GATHER_TAKE (R275). -/
def execGatherTake (cmd : Nat) (env : Env) : State → Host.Outcome State Fault Refusal := onOp cmd 0x72 (fun x => Chip.gatherTake x env)

/-- REDUCE_ADD (R268). -/
def execReduceAdd (i : Nat) : State → Host.Outcome State Fault Refusal := onChip (fun x c => Chip.reduceAdd x c i)

/-- SCALAR_RECORD (R273). -/
def execScalarRecord (i : Nat) : State → Host.Outcome State Fault Refusal := onChip (fun _ c => c.scalarRecord i)

/-- SCALAR_RESULT (R273). -/
def execScalarResult (i : Nat) : State → Host.Outcome State Fault Refusal := onChip (fun _ c => c.scalarResult i)

/-- RESPONSE (R247). -/
def execResponse (i : Nat) : State → Host.Outcome State Fault Refusal := onChip (fun x c => Chip.response x c i)

/-- TXN_TIMEOUT (R247). -/
def execTxnTimeout (tag : Nat) : State → Host.Outcome State Fault Refusal := onChip (fun x c => Chip.txnTimeout x c tag)

/-- FOLD_WINDOW_EXPIRE (R270). -/
def execFoldWindowExpire (p : Nat) : State → Host.Outcome State Fault Refusal := onChip (fun x c => Chip.foldWindow x c p)

end Sys2Proof.Machine
end

