-- ==== Sys2Proof/Machine/Content.lean ====
section
/-! DEFINITION. CRC-32C (R50) and the content rules of loadable images that their own chapters give (R51). -/

namespace Sys2Proof.Machine

/-- Eight steps of the reflected Castagnoli polynomial. -/
def crc32cByte (crc : BitVec 32) (b : Byte) : BitVec 32 :=
  (List.range 8).foldl (fun (r : BitVec 32) _ => if r.getLsbD 0 then (r >>> 1) ^^^ 0x82F63B78#32 else r >>> 1)
    (crc ^^^ b.setWidth 32)

/-- CRC-32C, reflected, initial value and final XOR 0xFFFF_FFFF (R50). -/
def crc32c (bs : List Byte) : Nat := ((bs.foldl crc32cByte 0xFFFFFFFF#32) ^^^ 0xFFFFFFFF#32).toNat

/-- The entries of an image. -/
def entriesOf (bytes count : Nat) (body : List Byte) : List (List Byte) := (chunks bytes (count + 1) body).take count

/-- A cell program's header and live-range entries (R323). -/
def programOk (es : List (List Byte)) : Bool :=
  let f := ctxField_
  match es with
  | [] => false
  | h :: rs =>
    f h 0 1 = 0 && f h 1 1 = 0 && f h 4 2 ≤ 16383 && f h 4 2 = rs.length && f h 6 2 = 0 && f h 8 8 = 0 &&
      rs.all (fun e =>
        let space := f e 2 1
        let off := f e 4 4
        let len := f e 8 4
        let units := if space = 0 then 0x1000000 / 64 else 0x200000 / 64
        f e 0 1 = 1 && space ≤ 1 && f e 3 1 = 0 && off < 2 ^ 19 && len < 2 ^ 19 && (f e 1 1 < 96 || f e 1 1 = 0xFF) &&
          (space = 0 || (off % 16 = 0 && len % 16 = 0)) && off + len ≤ units)
where
  /-- Bytes of an entry as a number. -/
  ctxField_ (b : List Byte) (off n : Nat) : Nat := leNat ((b.drop off).take n)

/-- The format image reproduces entries 0x0 to 0xC bit for bit (R52). -/
def fixedFormatsOk (body : List Byte) : Bool := body.take 208 = publishedFormats.flatten

/-- A pace-voltage curve (R372): valid entries first, at least three, rising strictly from 620 mV to 900 mV, with an entry of
680 mV and at least 1,100 Mbeat/s at 105 °C, and no reserved bit. -/
def curveOk (es : List (List Byte)) : Bool :=
  let f (b : List Byte) (off n : Nat) : Nat := leNat ((b.drop off).take n)
  let valid := es.filter (fun e => bitAt (f e 6 1) 0)
  let rises (off : Nat) : Bool := (valid.zip (valid.drop 1)).all (fun (p : List Byte × List Byte) => f p.1 off 2 < f p.2 off 2)
  es.take valid.length == valid && 3 ≤ valid.length && es.all (fun e => f e 6 1 < 2 && f e 7 1 = 0) &&
    valid.all (fun e => f e 0 2 % 5 = 0) && rises 0 && rises 2 && rises 4 &&
    f (valid.headD []) 0 2 = 620 && f (valid.getLastD []) 0 2 = 900 && valid.any (fun e => f e 0 2 = 680 && 1100 ≤ f e 4 2)

/-- The content rules that an object's chapter gives for a load (R51): cell programs (R323) and pace-voltage curves (R372).
The other objects' chapters judge an entry where it is used (R58, R174, R199, R205, R226, R240). -/
def contentOk (id _inst : Nat) (body : List Byte) : Bool :=
  if id = 0 then programOk (entriesOf 16 (body.length / 16) body)
  else if id = 5 then curveOk (entriesOf 8 32 body)
  else true

end Sys2Proof.Machine
end

