-- ==== Sys2Proof/Machine/RegMap.lean ====
section
/-! DEFINITION. The registers of every page: which are stored, which are kept per requester, their writable bits and reset
values (the page chapters; R8, R9, R27, R426). -/

namespace Sys2Proof.Machine

/-- How software writes a block-specific register: stored with writable bits and a reset value, kept per requester with
writable bits, written by a function of its own, or read only. -/
inductive RegKind where
  | rw (mask reset : Nat)
  | sel (mask : Nat)
  | op
  | ro
deriving DecidableEq, Repr

/-- All 32 bits. -/
def allBits : Nat := 0xFFFFFFFF

/-- The block-specific registers of a page that have fields: offset and the bits that are not reserved (the page tables of
R46, R55, R101, R144, R163-R165, R191, R222, R250, R251, R277, R308, R309, R334, R359, R384, R385, R403, R407, R415). -/
def blockRegs : Block → List (Nat × Nat)
  | .foxglove =>
    [(0x100, 0xFFE0007F), (0x104, 0xFFFF00F3), (0x108, 0xFFC000FF), (0x10C, 1), (0x110, allBits), (0x114, allBits), (0x118, allBits),
     (0x11C, allBits), (0x120, 0xFF), (0x124, 0xFF000003), (0x128, 0xFFF), (0x12C, allBits), (0x130, 0xFFF), (0x134, allBits),
     (0x138, allBits), (0x13C, allBits), (0x140, 0xFF)]
  | .sorrel =>
    [(0x100, 0x8000FFFF), (0x104, allBits), (0x108, 3), (0x10C, allBits), (0x110, 0xFFF), (0x114, allBits), (0x118, allBits),
     (0x11C, 0x803FFF1F), (0x120, allBits)]
  | .campion =>
    [(0x100, 0xFFFF0003), (0x104, 0xFFE0001F), (0x108, allBits), (0x10C, 0xF7), (0x110, 0xFFFFFF), (0x114, 0xFFFF), (0x118, 0xFFFF),
     (0x11C, allBits), (0x120, 0x3F), (0x124, 0xE3FFFFFF), (0x128, 0x7FFFFF), (0x12C, 0xFFFF), (0x130, allBits), (0x134, allBits),
     (0x138, 0x7F), (0x13C, 0x8000FFFF), (0x140, 0x7F), (0x144, 0xFFFF)]
  | .clkgen => [(0x100, 0x337), (0x104, 1), (0x108, 3)]
  | .spare =>
    [(0x100, 0x7F), (0x104, 0x813F), (0x108, 0x0FF0FFFF), (0x10C, allBits), (0x110, 0xFFFF), (0x114, 0xFFF), (0x118, 0x8000013F),
     (0x11C, 0xF0000000)]
  | .tansy => [(0x100, 0xFFFFF), (0x104, 0xF1), (0x108, allBits), (0x10C, allBits)]
  | .evt => [(0x100, allBits), (0x104, 0xFFFF)]
  | .hbmmap => [(0x100, 0x3F), (0x104, 0xFFFFFFF), (0x108, 0x1FFFFFF), (0x10C, 0xF)]
  | .teasel =>
    [(0x100, 7), (0x104, 0xFC000000), (0x108, 0x7FFFFF), (0x10C, 0x3FF00FF), (0x110, 0xFFFFFFF), (0x114, 0x7FFFFF), (0x118, allBits),
     (0x11C, 0x3FFF)]
  | .coll => [(0x100, 0xFF), (0x104, 0x8F000FFF), (0x108, 0x1FFF), (0x10C, allBits), (0x110, allBits)]
  | .vetchFab => [(0x100, 0x80000FFF), (0x104, 0xFFFF)]
  | .pcie => [(0x100, 0x0F1F1111), (0x104, allBits), (0x108, 0x800000FF)]
  | .part =>
    [(0x100, 0xFFE00000), (0x104, allBits), (0x108, 0xFFFF), (0x10C, 0x3FFFFF), (0x110, allBits), (0x114, allBits), (0x118, allBits),
     (0x11C, 0xFFFF), (0x120, 7), (0x124, allBits), (0x128, allBits), (0x12C, 0xFFFF), (0x130, allBits), (0x134, allBits),
     (0x138, allBits), (0x13C, 0xF), (0x140, allBits), (0x144, 0xFFF), (0x148, allBits), (0x14C, 3), (0x150, 0x7F), (0x154, allBits),
     (0x158, allBits), (0x15C, 3)]
  | .gate => [(0x100, 0xFF010EC7), (0x104, allBits), (0x108, allBits), (0x10C, allBits), (0x110, 0xFFFF), (0x114, allBits)]
  | .serve =>
    [(0x100, 0xC0000000), (0x104, allBits), (0x108, 0x3FFFFFFF), (0x10C, 0x3FFFFFFF), (0x110, allBits), (0x114, allBits), (0x118, 0x3FFF),
     (0x11C, 0xFFF80000), (0x120, 0x7FFFFF), (0x124, 0x7FFFFF)]
  | .hbm => [(0x100, 0x107), (0x104, 0xFF), (0x108, 0xFF), (0x10C, 0x7FFFFFFF), (0x110, allBits), (0x114, 0x1F), (0x118, 0xFF)]
  | .ddr => [(0x100, 0xFFFFFF8E), (0x104, 0xFF), (0x108, 0xFF), (0x10C, 0x30F), (0x110, allBits), (0x114, 0x1F), (0x118, 0xFF)]
  | .vetch =>
    [(0x100, 3), (0x104, 0x0FFFFFF0), (0x108, 0xFFFFFFC0), (0x10C, 0x0FFFF801), (0x130, 0xFFFF000F), (0x134, 0xFFFF), (0x138, 0xFFFFFFF)] ++
      (List.range 8).map (fun i => (0x110 + 4 * i, 0xFFFF))
  | .cowslip => arrayRegs ++ (List.range 10).map (fun i => (0x130 + 4 * i, allBits))
  | .meadow => arrayRegs
  | .cdma => [(0x100, 0xF), (0x104, 7), (0x108, 3), (0x10C, 0x3F), (0x110, 0x800FFFFF), (0x114, 0xFFFFFF), (0x118, 0x1FFFFFF)]
where
  /-- The registers of R101. -/
  arrayRegs : List (Nat × Nat) :=
    [(0x100, 0x077F7FFF), (0x104, 0x077F7FFF), (0x128, 0xCF), (0x12C, 3)] ++ (List.range 8).map (fun i => (0x108 + 4 * i, allBits))

/-- The bits of a block-specific register that are not reserved. -/
def regDefined (b : Block) (off : Nat) : Nat :=
  if b = .foxglove && 0x400 ≤ off && off < 0xC00 then allBits
  else match (blockRegs b).find? (fun e => e.1 = off) with
    | some e => e.2
    | none => 0

/-- The kind of a block-specific register, by block and offset. -/
def regKind (b : Block) (off : Nat) : RegKind :=
  match b with
  | .foxglove => .op
  | .sorrel => if off = 0x100 || off = 0x104 || off = 0x110 then .op else .ro
  | .campion =>
    if off = 0x100 then .rw 0xFFFF0003 (100 * 65536 + 3) else if off = 0x108 then .rw allBits (4800 * 65536 + 4200)
    else if off = 0x110 then .rw 0xFF 100 else if off = 0x120 then .sel 0x3F else if off = 0x138 || off = 0x140 then .sel 0x7F
    else if off = 0x10C || off = 0x128 then .op else .ro
  | .clkgen => if off = 0x104 then .rw 1 1 else if off = 0x108 then .rw 3 2 else .ro
  | .spare => if off = 0x100 then .sel 0x7F else if off = 0x118 then .op else .ro
  | .tansy => if off = 0x100 then .sel 0xFFFFF else .ro
  | .evt => .op
  | .hbmmap => if off = 0x100 then .sel 0x3F else .op
  | .teasel => if off = 0x100 then .sel 7 else .ro
  | .coll => if off = 0x100 then .sel 0xFF else .ro
  | .vetchFab => .op
  | .pcie => if off = 0x104 then .op else .ro
  | .part =>
    if off = 0x120 then .sel 7 else if off = 0x12C then .sel 0xFFFF else if off = 0x13C then .sel 0xF
    else if off = 0x150 then .sel 0x7F else if off = 0x15C then .rw 3 3 else .ro
  | .gate => .ro
  | .serve => if off = 0x118 then .sel 0x3FFF else .ro
  | .hbm => tierKind off
  | .ddr => tierKind off
  | .cowslip => if off = 0x12C then .rw 3 3 else if 0x130 ≤ off then .op else .ro
  | .vetch => .op
  | .meadow => if off = 0x12C then .rw 3 3 else .ro
  | .cdma => if off = 0x100 then .rw 0xF 8 else if off = 0x10C then .sel 0x3F else if off = 0x108 then .op else .ro
where
  /-- The registers of R163 and R165. -/
  tierKind (off : Nat) : RegKind :=
    if off = 0x104 then .rw 0xFF 32 else if off = 0x108 then .rw 0xFF 24 else if off = 0x118 then .rw 0xFF 4 else .ro

/-- The bits of PAGE_CTRL, PAGE_STAT, ELOG_CTRL and the header's other writable registers that are not reserved (R27, R30,
R410, R417); a header register that is read only ignores a write, and a 1 in a reserved bit of it is a reserved bit. -/
def headerMask (b : Block) (off : Nat) : Nat :=
  if off = 0x004 then 0xFFF1FF
  else if off = 0x008 then 0xC0000003
  else if off = 0x00C then 0xF000000F
  else if off = 0x010 || off = 0x014 || off = 0x018 || off = 0x01C then 2 ^ b.nIrq - 1
  else if off = 0x020 then 0xF8FFFFFF
  else if off = 0x02C then 0x80000FFF
  else if off = 0x038 then 0x8FFFFFFF
  else if off = 0x03C then 0x800000FF
  else if off = 0x080 then 0x7F
  else if off = 0x084 then 0xEF00007F
  else if off = 0x088 then 0xFF00FFFF
  else if off = 0x094 then 0xE1FF01FF
  else if off = 0x09C then 0x80000FFF
  else if off = 0x0A0 then 0xC0FF1FFF
  else if off = 0x0A4 then 0xC0FFFFFF
  else if off = 0x0AC then 3
  else if off = 0x0C0 then 0x8000000F
  else if off = 0x0C4 then 1
  else if off < 0x0AC then 0xFFFFFFFF
  else 0

/-- A 32-bit register of PAGE_STAT (R27). -/
def Chip.pageStat (c : Chip) (pg : Page) : Nat :=
  let h := c.hdr pg.frame
  let busy := c.cmds.any (fun k => k.phase ≠ .waiting && (c.pagesOf k).contains pg)
  flagNat h.rsvdWr * 2 ^ 31 + flagNat h.badWidth * 2 ^ 30 + flagNat h.accessDenied * 2 ^ 29 + flagNat (h.satMap != 0) * 2 ^ 28 +
    8 * flagNat h.elog.valid + 4 * flagNat (h.quiesce && !busy) + 2 * flagNat busy + flagNat h.ready

/-- A register of the common header as a read returns it, the counters by the requester's latch (R27, R30, R32, R410). -/
def Chip.readHeader (c : Chip) (req : Nat) (pg : Page) (off : Nat) : Nat :=
  let h := c.hdr pg.frame
  let e := h.elog
  let t := h.pert
  if off = 0x000 then pg.blk.typeCode * 2 ^ 16 + pg.inst * 16 + 1
  else if off = 0x004 then pg.blk.nIrq * 2 ^ 16 + pg.blk.nCtr * 2 ^ 12 + 256 * flagNat pg.blk.taggable + 1
  else if off = 0x008 then 2 * flagNat h.irqEn + flagNat h.quiesce
  else if off = 0x00C then c.pageStat pg
  else if off = 0x010 then h.irqRaw.toNat
  else if off = 0x014 then h.irqMask.toNat
  else if off = 0x018 then h.irqPend.toNat
  else if off = 0x020 then flagNat e.valid * 2 ^ 31 + flagNat e.overflow * 2 ^ 30 + e.severity * 2 ^ 28 + flagNat e.injected * 2 ^ 27 + e.cls * 2 ^ 16 + e.count
  else if off = 0x024 then e.code
  else if off = 0x028 then e.addr.getD 0 % 2 ^ 32
  else if off = 0x02C then flagNat e.addr.isSome * 2 ^ 31 + e.addr.getD 0 / 2 ^ 32 % 2 ^ 12
  else if off = 0x030 then e.time % 2 ^ 32
  else if off = 0x034 then e.time / 2 ^ 32 % 2 ^ 32
  else if off = 0x038 then flagNat e.part.isSome * 2 ^ 31 + e.part.getD 0 * 2 ^ 24 + e.opcode * 2 ^ 16 + e.target
  else if off = 0x03C then h.satMap.toNat
  else if 0x040 ≤ off && off < 0x080 then
    let n := (off - 0x040) / 8
    let v := h.ctr.getD n 0
    if off % 8 = 0 then v % 2 ^ 32
    else match tabFind c.latch (2 ^ 14 * req + pg.frame) with
      | some l => if l.1 = n then l.2 else v / 2 ^ 32
      | none => v / 2 ^ 32
  else if off = 0x080 then pg.blk.pertCap
  else if off = 0x084 then t.ctrl.toNat
  else if off = 0x088 then t.delay.toNat
  else if off = 0x08C then t.bp.toNat
  else if off = 0x090 then t.stall.toNat
  else if off = 0x094 then t.ecc.toNat
  else if off = 0x098 then t.addrLo.toNat
  else if off = 0x09C then t.addrHi.toNat
  else if off = 0x0A0 then t.flit.toNat
  else if off = 0x0A4 then t.nf.toNat
  else if off = 0x0A8 then t.late.toNat
  else if off = 0x0AC then 2 * flagNat t.expired + flagNat t.fired
  else if off = 0x0C0 then (match c.pageTag pg with
    | some p => 2 ^ 31 + p
    | none => 0)
  else if off = 0x0C4 then flagNat h.vfWrite
  else 0

/-- The pages within a requester's reach: the power state, recovery mode and the SCRAPPED lifecycle leave few, a virtual function has
the slots of R342, and JTAG every page at D3 (R388, R400, R426, R427). -/
def Chip.reaches (c : Chip) (fz : Fuses) (req : Requester) (pg : Page) : Bool :=
  if c.power.off then false
  else if fz.lifecycle = 4 then pg.blk = .foxglove && req = .mgmt
  else if c.power.pstate = 4 then (pg.blk = .foxglove || pg.blk = .sorrel || pg.blk = .campion) && req = .mgmt
  else if c.sec.recovery then pg.blk = .foxglove
  else match req with
    | .jtag => c.sec.dbgLevel = 3
    | .vf x i => (match c.partOfFn (32 * x + i) with
      | some p => (List.range 256).any (fun n => c.slotPage p n = some pg)
      | none => false)
    | _ => true

/-- The event table's memory is within a requester's reach: a virtual function comes to it through its port (R46, R427). -/
def Chip.reachesEvents (c : Chip) (fz : Fuses) (req : Requester) : Bool :=
  c.reaches fz (match req with
    | .vf x _ => .pf x
    | r => r) { blk := .evt, inst := 0 }

/-- A write reaches a page: not in the fatal state, nor over SCRAPPED's read-only view (R358, R400, R427). -/
def Chip.writeReaches (c : Chip) (fz : Fuses) (req : Requester) (pg : Page) : Bool :=
  c.reaches fz req pg && c.fatal = 0 && fz.lifecycle ≠ 4

/-- The page and offset that an offset of the requester's control view names (R341, R342, R388, R422). -/
def Chip.resolve (c : Chip) (fz : Fuses) (req : Requester) (off : Nat) : Option (Page × Nat) :=
  let pg := match req with
    | .vf x i => (match c.partOfFn (32 * x + i) with
      | some p => if off / 4096 < 256 then c.slotPage p (off / 4096) else none
      | none => none)
    | _ => Page.ofFrame (off / 4096)
  match pg with
  | some pg => if c.reaches fz req pg then some (pg, off % 4096) else none
  | none => none

/-- A perturbation register written, if the requester's debug session allows its kinds (R418). -/
def Chip.writePert (c : Chip) (req : Requester) (pg : Page) (off v : Nat) : Chip :=
  let h := c.hdr pg.frame
  let t := h.pert
  let ctrl := if off = 0x084 then v else t.ctrl.toNat
  let kinds := ctrl % 2 ^ 7
  let serves := (match c.sec.dbgPart with
    | some p => c.sec.partValid && (c.pageTag pg = some p || (c.pageTag pg = none && bitAt ctrl 29 && bitField ctrl 27 24 = p))
    | none => false)
  let need := if !serves || bitAt kinds 4 then 3 else if bitAt kinds 3 || bitAt kinds 5 || bitAt kinds 6 then 2 else 1
  if !c.session req need then c.deny pg
  else
    let c := c.rsvd pg v (0xFFFFFFFF - headerMask pg.blk off)
    let h := c.hdr pg.frame
    let w := BitVec.ofNat 32 (v &&& headerMask pg.blk off)
    let t := if off = 0x084 then
        (let t' := { t with ctrl := w &&& ~~~ (BitVec.ofNat 32 (2 ^ 7 - 1) &&& ~~~ BitVec.ofNat 32 pg.blk.pertCap) }
         if w.getLsbD 31 then { t' with fired := false, expired := false, used := [], left := 0, since := c.instant } else t')
      else if off = 0x088 then { t with delay := w } else if off = 0x08C then { t with bp := w }
      else if off = 0x090 then { t with stall := w } else if off = 0x094 then { t with ecc := w }
      else if off = 0x098 then { t with addrLo := w } else if off = 0x09C then { t with addrHi := w }
      else if off = 0x0A0 then { t with flit := w } else if off = 0x0A4 then { t with nf := w }
      else if off = 0x0A8 then { t with late := w } else t
    c.putHdr pg.frame { h with pert := t }

/-- CTR_CLR (R27, R32): every counter and SAT bit of the page. -/
def Chip.clearCounters (c : Chip) (pg : Page) : Chip :=
  c.putHdr pg.frame { c.hdr pg.frame with ctr := [0, 0, 0, 0, 0, 0, 0, 0], satMap := 0 }

/-- IRQ_CLR (R30, R31). -/
def Chip.clearIrq (c : Chip) (pg : Page) (mask : Nat) : Chip :=
  let h := c.hdr pg.frame
  c.putHdr pg.frame { h with irqRaw := h.irqRaw &&& ~~~ BitVec.ofNat 32 mask }

/-- ELOG_CTRL.CLEAR (R410, R411): the entry, COUNT and OVERFLOW. -/
def Chip.clearElog (c : Chip) (pg : Page) : Chip := c.putHdr pg.frame { c.hdr pg.frame with elog := {} }

/-- QUIESCE written (R29). -/
def Chip.setQuiesce (c : Chip) (pg : Page) (on : Bool) : Chip := c.putHdr pg.frame { c.hdr pg.frame with quiesce := on }

/-- A header register without an operation of its own written, the requester being permitted. -/
def Chip.writeHeader (c : Chip) (req : Requester) (pg : Page) (off v : Nat) : Chip :=
  let f := pg.frame
  let h := c.hdr f
  if off = 0x008 then
    let c := c.setHdr f { h with irqEn := bitAt v 1, quiesce := bitAt v 0 }
    if bitAt v 30 then c.clearCounters pg else c
  else if off = 0x00C then
    c.putHdr f { h with rsvdWr := h.rsvdWr && !bitAt v 31, badWidth := h.badWidth && !bitAt v 30, accessDenied := h.accessDenied && !bitAt v 29 }
  else if off = 0x014 then c.setHdr f { h with irqMask := BitVec.ofNat 32 (v % 2 ^ pg.blk.nIrq) }
  else if off = 0x01C then c.clearIrq pg v
  else if off = 0x03C then (if bitAt v 31 then c.clearElog pg else c)
  else if 0x084 ≤ off && off ≤ 0x0A8 then c.writePert req pg off v
  else if off = 0x0C4 then c.putHdr f { h with vfWrite := bitAt v 0 }
  else c

/-- A refusal of a write by its width or alignment (R26). -/
def badWidth (width off : Nat) : Bool := !(width = 32 || width = 64) || off % (width / 8) ≠ 0

/-- BAD_WIDTH set (R26). -/
def Chip.setBadWidth (c : Chip) (pg : Page) : Chip := c.putHdr pg.frame { c.hdr pg.frame with badWidth := true }

end Sys2Proof.Machine
end

