-- ==== Sys2Proof/Machine/HostQueues.lean ====
section
/-! DEFINITION. The host interface (chapter 14): doorbells, queues, descriptor fetch, records that wait, MSI-X and BAR4. -/

namespace Sys2Proof.Machine

/-- The page frame of a port. -/
def portFrame (x : Nat) : Nat := 0x010 + x

/-- An ignored doorbell counts in CTR7, is logged as a HOST error, and ERR_VECTOR becomes due (R346, R412). -/
def Chip.badDoorbell (c : Chip) (fn : Nat) : Chip :=
  ((c.count (portFrame (fn / 32)) 7 1).log (portFrame (fn / 32)) { cls := 0x0B, sev := 1, part := c.partOfFn fn }).errVector fn

/-- Pages of the link complex: the ports, VETCH_FAB and COLL (R363). -/
def linkPages : List Nat := [0x009, 0x00A] ++ (List.range 24).map (fun n => 0x0A0 + n)

/-- READY of some pages set (R365, R427). -/
def Chip.setReady (c : Chip) (fs : List Nat) (on : Bool) : Chip := fs.foldl (fun c f => c.putHdr f { c.hdr f with ready := on }) c

/-- A power-state transition begins (R368-R370), to end after a free time of at most `bound` ns; of P3 entry the spec bounds no
time (`bound` none). -/
def Chip.beginTrans (c : Chip) (target : Nat) (bound : Option Nat) : Chip :=
  let n := Config.freeNat c.free
  { c with
    power.trans := some { target := target, ends := c.time + bound.elim n (fun b => n % (b + 1)) }
    free := c.free + 1 }

/-- The exit from P3 begins: within 5 ms (R367). While P3 is being entered it is only asked for (R370). -/
def Chip.beginExit (c : Chip) : Chip :=
  if c.power.pstate ≠ 3 then c
  else match c.power.trans with
    | none => Chip.beginTrans { c with power.stateReq := 0 } 0 (some 5000000)
    | some t => if t.target = 3 then { c with power.trans := some { t with wake := true } } else c

/-- The exit from P3 ends (R367, R368): the memory tiers leave self-refresh, the link complex is on and ready, ports then
train. -/
def Chip.leaveStandby (c : Chip) : Chip :=
  if c.power.pstate ≠ 3 then c
  else ({ c with
    power.pstate := 0
    power.stateReq := 0
    power.trans := none
    tiers.units := c.tiers.units.map (fun (e : Nat × Tier) => (e.1, { e.2 with selfRefresh := false })) } : Chip).setReady linkPages true

/-- A doorbell write in P3 also starts the exit to P0 (R367). -/
def Chip.doorbellWakes (c : Chip) (fn : Nat) : Chip := if c.fnWrites fn then c.beginExit else c

/-- A tail doorbell (R346). -/
def Chip.sqTail (c : Chip) (fn q v : Nat) : Chip :=
  let c := c.doorbellWakes fn
  let key := 256 * fn + q
  let s := c.sq key
  if !c.fnWrites fn then c
  else if !s.enable then (c.putSq key { s with cause := 2 }).badDoorbell fn
  else if ringSlots s.sizeLog2 ≤ v then (c.putSq key { s with cause := 1 }).badDoorbell fn
  else (c.putSq key { s with tail := v }).count (portFrame (fn / 32)) 0 1

/-- A head doorbell (R346): the written index must not lie beyond the tail. -/
def Chip.cqHead (c : Chip) (fn q v : Nat) : Chip :=
  let c := c.doorbellWakes fn
  let key := 256 * fn + q
  let s := c.cq key
  let n := ringSlots s.sizeLog2
  if !c.fnWrites fn then c
  else if n ≤ v || (s.tail + n - s.head) % n < (v + n - s.head) % n then (c.putCq key { s with cause := 1 }).badDoorbell fn
  else (c.putCq key { s with head := v }).count (portFrame (fn / 32)) 0 1

/-- SQ_CFG written with ENABLE = 1 (R345). A queue that still drains, or is in ERROR, runs once nothing of it is left (R349). -/
def Chip.sqEnable (c : Chip) (fn q v : Nat) : Chip :=
  let key := 256 * fn + q
  let s := c.sq key
  if !c.fnWrites fn then c
  else if s.enable then c.putSq key { s with cause := 4 }
  else
    let s := { s with cq := bitField v 23 16, sizeLog2 := v % 32 }
    if !(c.cq (256 * fn + s.cq)).enable then c.putSq key { s with cause := 5 }
    else (c.putSq key { s with enable := true, state := if s.state = 0 then 1 else 2, head := 0, tail := 0 }).settleSq key

/-- SQ_CFG written with ENABLE = 0 (R349): DRAINING, unstarted commands CANCELLED, DISABLED once nothing is left. While ENABLE is
already 0 the configuration is written (R345). -/
def Chip.sqDisable (x : Ctx) (c : Chip) (fn q v : Nat) : Chip :=
  let key := 256 * fn + q
  let s := c.sq key
  if !c.fnWrites fn then c
  else if !s.enable then c.putSq key { s with cq := bitField v 23 16, sizeLog2 := v % 32 }
  else
    let c := c.putSq key { s with enable := false, state := 2 }
    (((c.cmds.filter (fun k => k.queue = key && k.phase = .waiting)).map (fun k => k.id)).foldl (fun c i => c.discard x i true) c).settleSq key

/-- CQ_CFG written with ENABLE = 1 (R345). Records that still wait for a slot of it go on waiting: each command has one (R41). -/
def Chip.cqEnable (c : Chip) (fn q v : Nat) : Chip :=
  let key := 256 * fn + q
  let s := c.cq key
  if !c.fnWrites fn then c
  else if s.enable then c.putCq key { s with cause := 4 }
  else c.putCq key { s with
    enable := true, irqEn := bitAt v 30, vector := bitField v 26 16, sizeLog2 := v % 32, head := 0, written := 0, due := false
    lastMsg := none, masked := false }

/-- CQ_CFG written with ENABLE = 0 (R349): refused with CAUSE 3 while an enabled SQ feeds it. -/
def Chip.cqDisable (c : Chip) (fn q v : Nat) : Chip :=
  let key := 256 * fn + q
  let s := c.cq key
  if !c.fnWrites fn then c
  else if !s.enable then c.putCq key { s with irqEn := bitAt v 30, vector := bitField v 26 16, sizeLog2 := v % 32 }
  else if (List.range 256).any (fun i => let u := c.sq (256 * fn + i); u.enable && u.cq = q) then c.putCq key { s with cause := 3 }
  else c.putCq key { s with enable := false }

/-- The message of a vector that was pending while masked is the previous message of the completion queues it was due for
(R348). -/
def CQ.unmask (q : CQ) (vec now : Nat) : CQ := if q.masked && q.vector = vec then { q with masked := false, lastMsg := some now } else q

/-- A vector unmasked: its pending message is sent (R351). -/
def Chip.unmask (c : Chip) (fn vec : Nat) : Chip :=
  let r := c.fnRegs fn
  let c := c.putFn fn { r with unmasked := r.unmasked.filter (· ≠ vec) ++ [vec], pendingVecs := r.pendingVecs.filter (· ≠ vec) }
  if r.pendingVecs.contains vec then
    ({ c with cqs := c.cqs.map (fun e => if e.1 / 256 = fn then (e.1, e.2.unmask vec c.time) else e) } : Chip).vector fn vec
  else c

/-! ### BAR4 (R343) -/

/-- What R396 calls memory: all of R10 but the event table and the control region, and the engine buffers. -/
def Region.Kind.plain : Region.Kind → Bool
  | .hbm => true
  | .scratch _ => true
  | .wide _ => true
  | .bridge => true
  | .ddr => true
  | .engine _ => true
  | _ => false

/-- The memory a debug session opens to its holder (R396): at D2 what R316 grants to its partition, at D3 all of it. -/
def Chip.debugMay (c : Chip) (r : Requester) (a n : Nat) (write : Bool) : Bool :=
  (c.store a n).any Region.Kind.plain &&
    (c.session r 3 || (c.session r 2 && c.sec.partValid && (match c.sec.dbgPart with
      | some p => if isEng a then c.segsOwned p (engOf a).1 (engOf a).2 n else c.partMay p a n write
      | none => false)))

/-- A function may reach HBM bytes through BAR4 (R343); the holder of a debug session also those of R396. -/
def Chip.bar4May (c : Chip) (fn a n : Nat) (write : Bool) : Bool :=
  match c.region a n with
  | some .hbm => (match c.partOfFn fn with
    | some p => c.partMay p a n write
    | none => fn = 32 * c.primary && c.unowned a n) || (fn % 32 = 0 && c.debugMay (.pf (fn / 32)) a n write)
  | _ => false

/-- A refusal of BAR4 counts in CTR7. -/
def Chip.bar4Refuse (c : Chip) (fn : Nat) : Chip := c.count (portFrame (fn / 32)) 7 1

/-- The access of BAR4 waits: the memory PLL is not locked (R381), HBM is not up (R159), or a regulator of the function's partition, HBM's or its
PCIe port's, has no level (R319, R352). -/
def Chip.bar4Held (c : Chip) (fn : Nat) : Bool :=
  c.memHeld || !c.hbmUp || (match c.partOfFn fn with
    | none => false
    | some p => !c.regLets p 0 || !c.regLets p (3 + fn / 32))

/-- An access of BAR4 charged to both regulators (R319, R352). -/
def Chip.bar4Charge (c : Chip) (fn a n : Nat) : Chip :=
  match c.partOfFn fn with
  | none => c
  | some p => (c.regTake p 0 (linesOf a n).length).regTake p (3 + fn / 32) (linesOf a n).length

/-- The consumer of what BAR4 reads. -/
def Chip.bar4Consumer (c : Chip) (fn : Nat) : Consumer :=
  { page := some { blk := .pcie, inst := fn / 32 }, part := c.partOfFn fn, opcode := 0, target := 0 }

/-- The size of a function's BAR4 (R341). -/
def Chip.bar4Size (c : Chip) (fn : Nat) : Nat :=
  if fn % 32 = 0 then 2 ^ (c.fnRegs fn).bar4Log else 2 ^ (c.fnRegs (fn / 32 * 32)).vfBar4Log

/-- A read through BAR4: data, Unsupported Request, Completer Abort, or a poisoned completion. -/
def Chip.bar4Read (x : Ctx) (c : Chip) (fn off n : Nat) : Chip :=
  let a := (c.fnRegs fn).win4 * 2 ^ 30 + off
  if !c.fnReach fn || c.bar4Size fn < off + n then c.send (.readUR fn)
  else if c.sec.recovery then
    (if 0x4000000 < off + n then (c.bar4Refuse fn).send (.readUR fn)
      else c.send (.readBytes fn (c.rdBytes x (bridgeAddr off) n) false))
  else if 0xD800000000 < a + n then (c.bar4Refuse fn).send (.readUR fn)
  else if !c.bar4May fn a n false then (c.bar4Refuse fn).send (.readCA fn)
  else if c.bar4Held fn then c
  else
    let r := Chip.readRuns x (c.bar4Consumer fn) [(a, n)] (c.bar4Charge fn a n)
    r.1.send (.readBytes fn (c.rdBytes x a n) r.2.isSome)

/-- A write through BAR4: applied, or dropped and counted. One that a bad line it touches in part forbids changes nothing beyond
what the read of that line does (R153). -/
def Chip.bar4Write (x : Ctx) (c : Chip) (fn off : Nat) (d : List Byte) : Chip :=
  let a := (c.fnRegs fn).win4 * 2 ^ 30 + off
  if c.bar4Size fn < off + d.length then c
  else if !c.fnWrites fn then c.bar4Refuse fn
  else if c.sec.recovery then (if 0x4000000 < off + d.length then c.bar4Refuse fn else c.wr x (bridgeAddr off) d)
  else if 0xD800000000 < a + d.length || !c.bar4May fn a d.length true then c.bar4Refuse fn
  else if c.bar4Held fn then c
  else
    let r := Chip.readRuns x (c.bar4Consumer fn) (partRuns [(a, d.length)]) (c.bar4Charge fn a d.length)
    if r.2.isSome then r.1.bar4Refuse fn
    else ((Chip.coverRuns x [(a, d.length)] r.1).wr x a d).tierWrites [(a, d.length)]

/-! ### Memory within a debug session's rights (R396) -/

/-- Such an access waits for the device to return to P0 (R400), for its tier (R159, R160, R381), and for the block that holds the
store. -/
def Chip.debugHeld (c : Chip) (a n : Nat) : Bool :=
  c.power.pstate ≠ 0 || !c.trafficLets none [(a, n)] || (match c.storagePage a with
    | some (pg, _) => !(c.hdr pg.frame).ready
    | none => false)

/-- The consumer of what such an access reads. -/
def Chip.debugConsumer (c : Chip) : Consumer := { page := some { blk := .foxglove, inst := 0 }, part := c.sec.dbgPart, opcode := 0, target := 0 }

/-- Memory read within a debug session's rights: poisoned where a line is bad; nothing is read beyond them. -/
def Chip.debugRead (x : Ctx) (c : Chip) (r : Requester) (a n : Nat) : Chip :=
  if !c.reaches x.fuse r { blk := .foxglove, inst := 0 } || !c.debugMay r a n false then c.send (.readData r.code a 0)
  else if c.debugHeld a n then c
  else
    let v := Chip.readRuns x c.debugConsumer [(a, n)] c
    v.1.send (.readBytes r.code (c.rdBytes x a n) v.2.isSome)

/-- Memory written within a debug session's rights, a line touched in part being read first (R153). -/
def Chip.debugWrite (x : Ctx) (c : Chip) (r : Requester) (a : Nat) (d : List Byte) : Chip :=
  if !c.writeReaches x.fuse r { blk := .foxglove, inst := 0 } || !c.debugMay r a d.length true then c.send (.writeRefused r.code a 2)
  else if c.debugHeld a d.length then c
  else
    let v := Chip.readRuns x c.debugConsumer (partRuns [(a, d.length)]) c
    if v.2.isSome then v.1.send (.writeRefused r.code a 2)
    else ((Chip.coverRuns x [(a, d.length)] v.1).wr x a d).tierWrites [(a, d.length)]

/-! ### Descriptors (R347, R349) -/

/-- Fetched commands of a queue that have not started. -/
def Chip.unstarted (c : Chip) (key : Nat) : Nat := (c.cmds.filter (fun k => k.queue = key && k.phase = .waiting)).length

/-- How many descriptors the next read of a queue takes: up to 16, to the tail, to the ring's end, and at most 64
unstarted. -/
def Chip.fetchCount (c : Chip) (key : Nat) : Nat :=
  let s := c.sq key
  let n := ringSlots s.sizeLog2
  min (min 16 ((s.tail + n - s.head) % n)) (min (n - s.head) (64 - c.unstarted key))

/-- A submission queue is ready to be fetched from. -/
def Chip.fetchReady (c : Chip) (key : Nat) : Bool :=
  c.fnReach (key / 256) && (c.sq key).state = 1 && (c.sq key).reading.isNone && c.fetchCount key ≠ 0

/-- It is a queue's turn (R347): its function is the first after the last one served on the port, and it the first of the function,
among those with something to fetch. -/
def Chip.fetchTurn (c : Chip) (fn q : Nat) : Bool :=
  let after (turn n i : Nat) : Nat := (i + n - turn % n) % n
  c.sqs.all (fun e =>
    let g := e.1 / 256
    let d := after (c.port (fn / 32)).turn 32 (fn % 32)
    let d' := after (c.port (fn / 32)).turn 32 (g % 32)
    !(c.fetchReady e.1 && g / 32 = fn / 32) || d < d' ||
      (g = fn && after (c.fnRegs fn).turn 256 q ≤ after (c.fnRegs fn).turn 256 (e.1 % 256)))

/-- A descriptor read issued by the queue whose turn it is; the head advances (R347). -/
def Chip.fetch (c : Chip) (fn q : Nat) : Chip :=
  let key := 256 * fn + q
  let s := c.sq key
  let n := c.fetchCount key
  if !c.fetchReady key || c.fatal ≠ 0 || !c.fetchTurn fn q then c
  else
    let c := (c.putFn fn { c.fnRegs fn with turn := q + 1 }).putPort (fn / 32) { c.port (fn / 32) with turn := fn % 32 + 1 }
    (c.putSq key { s with reading := some (s.head, n), head := (s.head + n) % ringSlots s.sizeLog2 }).send (.descRead fn q s.head n)

/-- Descriptors queued as commands, in ring order. -/
def Chip.enqueue (c : Chip) (fn q : Nat) (ds : List (BitVec 512)) : Chip :=
  ds.foldl (fun c d =>
    { c with
      cmds := c.cmds ++ [{ id := c.nextCmd, fn := fn, sq := q, desc := d, arrival := c.instant }]
      nextCmd := c.nextCmd + 1, instant := c.instant + 1 }) c

/-- The 64-byte descriptors in a run of bytes. -/
def descsOf (n : Nat) (b : List Byte) : List (BitVec 512) :=
  (List.range n).map (fun i => BitVec.ofNat 512 (leNat ((b.drop (64 * i)).take 64)))

/-- A descriptor read completes (R349). One that fails puts the queue in ERROR with CAUSE 3; descriptors that come to a
draining queue are cancelled, and it may then be drained. -/
def Chip.fetchDone (x : Ctx) (c : Chip) (fn q : Nat) (r : HostRead) : Chip :=
  let key := 256 * fn + q
  let s := c.sq key
  match s.reading with
  | none => c
  | some (_, n) =>
    let c := c.putSq key { s with reading := none }
    match r with
    | .data b =>
      let c := (((c.putSq key { s with reading := none, inFlight := s.inFlight + n }).enqueue fn q (descsOf n b)).count (portFrame (fn / 32)) 1 n).noteParts x
      if s.state = 2 then
        (((c.cmds.filter (fun k => k.queue = key && k.phase = .waiting)).map (fun k => k.id)).foldl (fun c i => c.discard x i true) c).settleSq key
      else c
    | _ =>
      let f := portFrame (fn / 32)
      let c := c.putSq key { s with reading := none, state := 3, cause := 3 }
      (((c.count f 6 1).log f { cls := 0x0B, sev := 1, part := c.partOfFn fn }).fire f 4).errVector fn

/-- The oldest waiting record is written once its slot is free and the regulator lets it (R348, R352), or its write fails (R349);
its queue may then be drained. With none waiting, a failure is that of a record written before, which the host reports late. -/
def Chip.pendingRecord (c : Chip) (fn q : Nat) (written : Bool) : Chip :=
  let key := 256 * fn + q
  let s := c.cq key
  match s.waiting with
  | [] => if !written && s.enable && !s.error && s.written ≠ 0 then c.recordWriteFailed fn q else c
  | r :: rs =>
    if !s.enable || s.full || !c.recordLets fn then c
    else if written then ((c.putCq key { s with waiting := rs }).emitRecord key r).settleSq (256 * fn + r.sq)
    else c.recordWriteFailed fn q

/-- A due vector held back by COAL_US is sent when the interval has passed (R348). -/
def Chip.coalTimer (c : Chip) (fn q : Nat) : Chip :=
  let key := 256 * fn + q
  if (c.cq key).due && (c.cq key).coalPassed c.time then c.cqSend key else c

/-- CQ_HEAD_DOORBELL (R346). -/
def execCqHeadDoorbell (f q v : Nat) : State → Host.Outcome State Fault Refusal := onChip (fun _ c => c.cqHead f q v)

/-- SQ_ENABLE (R345). -/
def execSqEnable (f q v : Nat) : State → Host.Outcome State Fault Refusal := onChip (fun _ c => c.sqEnable f q v)

/-- SQ_DISABLE (R349). -/
def execSqDisable (f q v : Nat) : State → Host.Outcome State Fault Refusal := onChip (fun x c => Chip.sqDisable x c f q v)

/-- CQ_ENABLE (R345). -/
def execCqEnable (f q v : Nat) : State → Host.Outcome State Fault Refusal := onChip (fun _ c => c.cqEnable f q v)

/-- CQ_DISABLE (R349). -/
def execCqDisable (f q v : Nat) : State → Host.Outcome State Fault Refusal := onChip (fun _ c => c.cqDisable f q v)

/-- MSIX_UNMASK (R351). -/
def execMsixUnmask (f v : Nat) : State → Host.Outcome State Fault Refusal := onChip (fun _ c => c.unmask f v)

/-- BAR4_READ (R343). -/
def execBar4Read (f off n : Nat) : State → Host.Outcome State Fault Refusal := onChip (fun x c => Chip.bar4Read x c f off n)

/-- DESCRIPTOR_FETCH (R347). -/
def execDescriptorFetch (f q : Nat) : State → Host.Outcome State Fault Refusal := onChip (fun _ c => c.fetch f q)

/-- DESCRIPTOR_READ_DONE (R349). -/
def execDescriptorReadDone (f q : Nat) (r : HostRead) : State → Host.Outcome State Fault Refusal :=
  onChip (fun x c => Chip.fetchDone x c f q r)

/-- PENDING_RECORD_WRITE (R348); `written` says whether the host takes the write (R349). -/
def execPendingRecordWrite (f q : Nat) (written : Bool) : State → Host.Outcome State Fault Refusal :=
  onChip (fun _ c => c.pendingRecord f q written)

/-- CQ_COAL_TIMER (R348). -/
def execCqCoalTimer (f q : Nat) : State → Host.Outcome State Fault Refusal := onChip (fun _ c => c.coalTimer f q)

end Sys2Proof.Machine
end

