-- ==== Sys2Proof/Machine/Power.lean ====
section
/-! DEFINITION. Power, pace and clocking (chapter 15): domains and their switching, power states P3 and P4, the governor,
throttling, sensors, monitors, meters, and the input conditions of R360 that leave the always-on part alive. -/

namespace Sys2Proof.Machine

/-- The CAMPION page. -/
def campionFrame : Nat := 0x002

/-- The CLKGEN page. -/
def clkgenFrame : Nat := 0x003

/-- The FOXGLOVE page. -/
def foxFrame : Nat := 0x000

/-- CAMPION.CTRL (R384). -/
def Chip.campCtrl (c : Chip) : Nat := c.reg campionFrame 0x100 (100 * 65536 + 3)

/-- SUSTAINED_W in force (R384). -/
def Chip.sustainedW (c : Chip) : Nat := max 1500 (min 4200 (c.reg campionFrame 0x108 (4800 * 65536 + 4200) % 65536))

/-- EXCURSION_W in force (R384). -/
def Chip.excursionW (c : Chip) : Nat := min 4800 (c.reg campionFrame 0x108 (4800 * 65536 + 4200) / 65536)

/-- THROTTLE_C in force (R384). -/
def Chip.throttleC (c : Chip) : Nat := max 80 (min 105 (c.reg campionFrame 0x110 100 % 256))

/-! ### Debug sessions end (R398, R419) -/

/-- Every armed perturbation stops: the session under which it was armed has ended (R419). -/
def Chip.disarmAll (c : Chip) : Chip :=
  { c with headers := c.headers.map (fun e => (e.1, { e.2 with pert := { e.2.pert with ctrl := e.2.pert.ctrl &&& ~~~ (1#32 <<< 31) } })) }

/-- The debug session ends with a cause; source 3 of FOXGLOVE fires (R398). -/
def Chip.endSession (c : Chip) (cause : Nat) : Chip :=
  if c.sec.dbgLevel = 0 then c
  else ({ c.disarmAll with
    sec.dbgLevel := 0, sec.dbgHolder := 0, sec.dbgPart := none, sec.partValid := false, sec.endCause := cause } : Chip).fire foxFrame 3

/-- A new nonce is drawn (R397). -/
def Chip.newNonce (c : Chip) : Chip := { c with sec.nonce := c.free, free := c.free + 1 }

/-- A mailbox operation ends (R402): BUSY clears, DONE and RESULT are written, source 6 fires. -/
def Chip.mboxEnd (c : Chip) (result : Nat) : Chip :=
  ({ c with sec.op := 0, sec.done := true, sec.result := result, sec.image := none } : Chip).fire foxFrame 6

/-- A DBG_UNLOCK is refused (R398, R403): counted, source 4, and a new nonce is drawn (R397). -/
def Chip.unlockRefused (c : Chip) (result : Nat) : Chip :=
  (((c.newNonce).count foxFrame 3 1).fire foxFrame 4).mboxEnd result

/-! ### Domains (R363-R366) -/

/-- The block pages of a switched domain. -/
def domainPages (d : Nat) : List Nat :=
  if d < 48 then [0x100 + 2 * d, 0x101 + 2 * d, 0x200 + 2 * d, 0x201 + 2 * d]
  else if d < 60 then [0x080 + (d - 48)] else if d = 60 then [0x008] else []

/-- A cell pair's record of who holds it. -/
def Chip.pairRes (c : Chip) (q : Nat) : PairRes := tabGet {} c.pairs q

/-- A cell pair's record replaced. -/
def Chip.putPair (c : Chip) (q : Nat) (r : PairRes) : Chip := { c with pairs := tabSet c.pairs q r }

/-- A RING_OPEN that starts, or that nothing but its domain keeps from starting (R364, R365). -/
def Chip.opensBridge (c : Chip) (k : Cmd) : Bool :=
  k.tclass = 3 && k.opcode = 0x50 &&
    (k.phase ≠ .waiting || (c.orderOk k && c.takeOk k && c.partLets k && (c.cq (256 * k.fn + (c.sq k.queue).cq)).waiting.isEmpty &&
      !(c.hdr 0x008).quiesce))

/-- The domain of the cell pair or stack engine that a self-test speaks of (R405). -/
def SelfTest.domain (t : SelfTest) : Nat := if t.engine then 48 + t.index else t.index

/-- The on condition of a domain (R364), recovery mode's need of the bridge (R388), and a self-test's of its pair or engine (R405). -/
def Chip.domainUsed (c : Chip) (d : Nat) : Bool :=
  if c.selftest.busy && d = c.selftest.domain then true
  else if d < 48 then (c.pairRes d).resident.isSome
  else if d < 60 then
    c.reg (0x080 + (d - 48)) 0x150 0 ≠ 0 || c.reg (0x080 + (d - 48)) 0x154 0 ≠ 0 ||
      c.cmds.any (fun k => k.tclass = 2 && !k.isRound && k.inst = d - 48 && k.phase ≠ .waiting)
  else c.sec.recovery || !c.bridge.rings.isEmpty || c.cmds.any c.opensBridge

/-- A domain is requested on: its condition holds, or automatic switching is off (R364). -/
def Chip.domainWanted (c : Chip) (d : Nat) : Bool := !bitAt c.campCtrl 0 || c.domainUsed d

/-- Memory of a switched domain, by the model's addresses: base and length. -/
def domainRanges (d : Nat) : List (Nat × Nat) :=
  if d < 48 then [(scratchAddr (2 * d) 0, 0x2000000), (wideAddr (2 * d) 0, 0x400000), (keepAddr (2 * d), 2 ^ 25), (progAddr (2 * d), 2 ^ 22)]
  else if d < 60 then [(engAddr (d - 48) 0, 0x800000), (keepAddr (96 + (d - 48)), 2 ^ 24)]
  else if d = 60 then [(bridgeAddr 0, 0xA000000), (rowAddr 0 0, 2 ^ 25)] else []

/-- What switching a domain off loses, and switching it on zeroes: SRAM, keep buffers, residency entries and the record of the last
resident (R364). -/
def Chip.clearDomain (c : Chip) (x : Ctx) (d : Nat) : Chip :=
  let c := (domainRanges d).foldl (fun (c : Chip) r => c.wrZero x r.1 r.2) c
  if d < 48 then
    let c := c.putPair d { c.pairRes d with last := none }
    { c with
      keeps := tabDelRange c.keeps (2 * d) (2 * d + 2)
      tiers.resid := tabDelRange c.tiers.resid (2 * d) (2 * d + 2) }
  else if d < 60 then { c with keeps := tabDel c.keeps (96 + (d - 48)) } else c

/-- A domain is off, its contents lost (R364, R365). -/
def Chip.domainOff (c : Chip) (x : Ctx) (d : Nat) : Chip :=
  let v := c.domain d
  let c := if v.on then c.count campionFrame 5 1 else c
  ((c.putDomain d { v with on := false, switching := false, vdd := 0 }).clearDomain x d).setReady (domainPages d) false

/-- Every domain 0 to 60 that is on, or switching, off. -/
def Chip.allOff (c : Chip) (x : Ctx) : Chip :=
  (c.power.domains.filter (fun e => e.2.on || e.2.switching)).foldl (fun (c : Chip) e => c.domainOff x e.1) c

/-! ### Curves and voltages (R372-R374) -/

/-- The curve a domain follows: VDD_MV, PACE_25 and PACE_105 of its valid entries. -/
def Chip.curve (c : Chip) (d : Nat) : List (Int × Int × Int) :=
  match c.active (tableKey 5 16 d) with
  | none => []
  | some im => ((entriesOf 8 32 im.body).filter (fun e => ctxFld e 6 1 = 1)).map (fun e => ((ctxFld e 0 2 : Int), (ctxFld e 2 2 : Int), (ctxFld e 4 2 : Int)))

/-- A curve's pace at a temperature in 1/16 °C, times 1,280 (`p_entry` of R373, exact). -/
def paceAt (t : Int) (e : Int × Int × Int) : Int := 1280 * e.2.1 + (e.2.2 - e.2.1) * (t - 400)

/-- `v_for` beyond the first entry: the first segment that reaches the pace. -/
def vForFrom (t p : Int) : List (Int × Int × Int) → Int
  | a :: b :: l =>
    let lo := paceAt t a
    let hi := paceAt t b
    if p ≤ hi then 5 * (-((-(a.1 * (hi - lo) + (p - lo) * (b.1 - a.1))) / (5 * (hi - lo)))) else vForFrom t p (b :: l)
  | [a] => a.1
  | [] => 0

/-- `v_for` of R373 for a pace times 1,280 and a temperature in 1/16 °C; none without a curve. -/
def vFor (curve : List (Int × Int × Int)) (p t : Int) : Option Int :=
  let t := clampInt t 400 1680
  match curve with
  | [] => none
  | a :: l => some (if p ≤ paceAt t a then a.1 else vForFrom t p (a :: l))

/-- The sensors that govern a domain (R377): none for domains 61 to 63. -/
def domainSensors (d : Nat) : List Nat :=
  if d < 48 then [d] else if d < 60 then [52 + (d - 48)] else if d = 60 then [48, 49, 50, 51] else []

/-- A domain's hottest governing reading, in 1/16 °C; none before the first. -/
def Chip.domainTemp (c : Chip) (d : Nat) : Option Int :=
  ((domainSensors d).filterMap (fun i => tabFind c.power.sensors i)).foldl (fun (b : Option Int) t => match b with
    | none => some t
    | some u => some (max t u)) none

/-- A domain's temperature t: the reading plus the sensors' tolerance of 2 °C (R374), in 1/16 °C; DOM_TEMP reads 0 before the
first reading (R384). -/
def Chip.domainT (c : Chip) (d : Nat) : Int := match c.domainTemp d with
  | some t => t + 32
  | none => 32

/-- TARGET in force (R384). -/
def Domain.tgt (v : Domain) : Nat := max 1100 (min 1850 v.target)

/-- The target pace times 1,280 (R374, step 2). -/
def Chip.targetPace (c : Chip) (v : Domain) : Int := ((v.tgt * min c.power.scale v.tscale * 20 : Nat) : Int)

/-- The lowest voltage of a domain at its temperature (R374, step 4). -/
def Chip.vmin (c : Chip) (d : Nat) : Int := if c.domainT d ≤ 1680 then 680 else 620

/-- The voltage Campion wants for a domain, its trim given (R374). Without a curve the spec gives no value: it is a free one of
R363's 5 mV steps. -/
def Chip.wantedMv (c : Chip) (d : Nat) (trim : Nat) : Nat :=
  let v := (vFor (c.curve d) (c.targetPace (c.domain d)) (c.domainT d)).getD ((5 * Config.freeNat c.free : Nat) : Int)
  (clampInt (v + trim) (c.vmin d) 900).toNat

/-- The monitors of a domain (R371, R384). -/
def domainMonitors (d : Nat) : List Nat :=
  if d < 48 then [2 * d, 2 * d + 1] else if d < 60 then [96 + (d - 48)] else if d = 60 then [108, 109, 110, 111] else []

/-- The pace of a domain: the smallest count among its monitors (R371); 0 for domains 61 to 63 and while off. -/
def Chip.pace (c : Chip) (d : Nat) : Nat :=
  if !(c.domain d).on then 0
  else match (domainMonitors d).map (fun i => tabGet 0 c.power.monitors i) with
    | [] => 0
    | a :: l => l.foldl min a

/-- A domain's regulator begins to ramp (R365): on request, in P0, not FAILED. -/
def Chip.switchOn (c : Chip) (d : Nat) : Chip :=
  let v := c.domain d
  if d ≤ 60 && c.domainWanted d && !v.on && !v.switching && !v.failed && c.power.pstate = 0 && !c.power.off then
    c.putDomain d { v with switching := true, startedAt := c.time, attempts := 0 }
  else c

/-- SELFTEST_STAT is cleared when the domain it speaks of switches on (R427). -/
def Chip.clearSelftest (c : Chip) (d : Nat) : Chip :=
  if !c.selftest.busy && d = c.selftest.domain then { c with selftest.result := 0 } else c

/-- The on sequence ends (R365): contents zeroed, the domain ready, trim 0 and TSCALE 64 (R374). -/
def Chip.onDone (c : Chip) (x : Ctx) (d : Nat) : Chip :=
  let v := c.domain d
  if !v.switching || c.time < v.startedAt + 10000 then c
  else
    let v := { v with on := true, switching := false, trim := 0, tscale := 64, usedAt := c.time, gen := (c.active (tableKey 5 16 d)).map (fun im => im.gen) }
    let c := c.putDomain d v
    let c := c.putDomain d { v with vdd := c.wantedMv d 0 }
    let c := if (c.curve d).isEmpty then c.draw 1 else c
    let c := if d < 48 then { c with tiers.gradStat := tabDelRange c.tiers.gradStat (2 * d) (2 * d + 2) } else c
    ((((c.clearDomain x d).clearSelftest d).setReady (domainPages d) true).count campionFrame 4 1).count 0x005 3 1

/-- The supply did not reach 620 mV in 50 µs (R366): logged and tried once more, then FAILED with source 7. -/
def Chip.rampTimeout (c : Chip) (x : Ctx) (d : Nat) : Chip :=
  let v := c.domain d
  if !v.switching || c.time < v.startedAt + 50000 then c
  else if v.attempts = 0 then
    (c.putDomain d { v with attempts := 1, startedAt := c.time }).log campionFrame { cls := 8, sev := 2, unit := d }
  else ((c.putDomain d { v with switching := false, failed := true }).fire campionFrame 7).noteParts x

/-- The off condition of a domain has held for GATE_DELAY µs (R364). -/
def Chip.offDelay (c : Chip) (x : Ctx) (d : Nat) : Chip :=
  let v := c.domain d
  if d ≤ 60 && v.on && !c.domainWanted d && v.usedAt + 1000 * (c.campCtrl / 65536) ≤ c.time then c.domainOff x d else c

/-! ### The fatal state (R358) -/

/-- HUB_FATAL (R358): 1 Tansy store, 2 scheduler state, 3 hub queue state. -/
def Chip.hubFatal (c : Chip) (cause : Nat) : Chip :=
  if c.fatal ≠ 0 || cause = 0 || 3 < cause || c.power.off || c.power.pstate = 4 then c
  else
    let c := { c with fatal := cause }
    [0, 1].foldl (fun (c : Chip) p =>
      ((c.log (portFrame p) { cls := 0x0C, sev := 3, unit := cause }).fire (portFrame p) 5).send (.aerFatal p)) c

/-! ### The governor (R374, R375, R361) -/

/-- SCALE after an interval (R375). -/
def scaleNext (scale p sus exc : Nat) : Nat :=
  if exc < p then max 1 (scale - 4) else if sus < p then max 1 (scale - 1) else if p + 100 < sus then min 64 (scale + 1) else scale

/-- One domain's interval (R374): trim by the pace of the last interval, then the voltage, at most 10 mV away. -/
def Chip.governDomain (c : Chip) (d : Nat) : Chip :=
  let v := c.domain d
  if !v.on then c
  else
    let gen := (c.active (tableKey 5 16 d)).map (fun im => im.gen)
    let p := (1280 * c.pace d : Nat)
    let tgt := c.targetPace v
    let trim :=
      if gen ≠ v.gen then 0
      else if !bitAt c.campCtrl 1 then v.trim
      else if (p : Int) < tgt then min 50 (v.trim + 5)
      else if 51 * tgt < 50 * (p : Int) then v.trim - 5 else v.trim
    let want := c.wantedMv d trim
    let vdd := if v.vdd < want then min want (v.vdd + 10) else max want (v.vdd - 10)
    let c := if (c.curve d).isEmpty then c.draw 1 else c
    let c := c.putDomain d { v with trim := trim, vdd := vdd, gen := gen }
    if vdd ≠ v.vdd then c.count campionFrame 7 1 else c

/-- A power limit is broken (R361): an average above its limit, or a run above SUSTAINED_W of more than 20 ms. -/
def Chip.capBroken (c : Chip) : Bool :=
  c.sustainedW < c.power.p1s || c.excursionW < c.power.p1ms || (match c.power.overSince with
    | some t => t + 20000000 < c.time
    | none => false)

/-- Every active clockless domain is at its lowest voltage. -/
def Chip.atFloor (c : Chip) : Bool := c.power.domains.all (fun e => !e.2.on || (e.2.vdd : Int) ≤ c.vmin e.1)

/-- One interval of the pace governor (R374, R375, R361). -/
def Chip.governor (c : Chip) : Chip :=
  if c.power.off || c.time < c.power.governorAt + 10000 then c
  else
    let old := c.power.scale
    let new := scaleNext old c.power.inputP c.sustainedW c.excursionW
    let c := { c with power.scale := new, power.governorAt := c.time }
    let c := if new < 64 && old = 64 then c.fire campionFrame 2 else c
    let c := if new < 64 then c.count campionFrame 0 10 else c
    let c := (List.range 61).foldl (fun (c : Chip) d => c.governDomain d) c
    let unmet := c.capBroken && c.atFloor
    let was := c.power.capUnmet
    let c := { c with power.capUnmet := unmet }
    let c := if unmet && !was then c.fire campionFrame 5 else c
    if unmet then c.count campionFrame 3 10 else c

/-! ### Sensors, monitors, meters (R362, R371, R376-R378) -/

/-- Some domain's TSCALE is below 64. -/
def Chip.thermThrottled (c : Chip) : Bool := c.power.domains.any (fun e => e.2.tscale < 64)

/-- A stack's refresh rate follows its temperature readout (R151): doubled from 85 °C, with source 4 when it begins. -/
def Chip.refreshRate (c : Chip) (s : Nat) : Chip :=
  match tabFind c.power.sensors (52 + s) with
  | none => c
  | some t =>
    let u := c.tier s
    let hot := decide (1360 ≤ t)
    if hot = u.ref2x then c
    else
      let c := c.putTier s { u with ref2x := hot }
      if hot then c.fire (0x060 + s) 4 else c

/-- One reading of every sensor (R376, R377): readings in 1/16 °C by sensor number. -/
def Chip.sensorSample (c : Chip) (rs : List (Nat × Int)) : Chip :=
  if c.power.off || c.time < c.power.sensorAt + 10000 then c
  else
    let was := c.thermThrottled
    let c := { c with power.sensorAt := c.time, power.sensors := rs.foldl (fun t r => if r.1 < 68 then tabSet t r.1 r.2 else t) c.power.sensors }
    let th : Int := 16 * c.throttleC
    let c := (List.range 61).foldl (fun (c : Chip) d =>
      match c.domainTemp d with
      | none => c
      | some r =>
        let v := c.domain d
        if th ≤ r + 32 then c.putDomain d { v with tscale := max 1 (v.tscale - 1) }
        else if r + 32 < th - 32 && v.tscale < 64 then c.putDomain d { v with tscale := v.tscale + 1 } else c) c
    let c := if c.thermThrottled && !was then (c.log campionFrame { cls := 9, sev := 2 }).fire campionFrame 3 else c
    let c := if c.thermThrottled then c.count campionFrame 1 10 else c
    let lost := c.power.domains.any (fun e => e.2.on && 1680 < c.domainT e.1)
    let hadLost := c.power.floorLost
    let c := { c with power.floorLost := lost }
    let c := if lost && !hadLost then (c.log campionFrame { cls := 9, sev := 2 }).fire campionFrame 4 else c
    let c := if lost then c.count campionFrame 2 10 else c
    let c := (List.range 12).foldl (fun (c : Chip) s => c.refreshRate s) c
    let hot := 640 < tabGet 0 c.power.sensors 64
    let hadHot := c.power.coolant
    let c := { c with power.coolant := hot }
    if hot && !hadHot then (c.log campionFrame { cls := 9, sev := 2 }).fire campionFrame 8 else c

/-- Every pace monitor's count, by monitor number (R371); a domain that is off shows 0. -/
def Chip.monitorUpdate (c : Chip) (ms : List (Nat × Nat)) : Chip :=
  if c.power.off || c.time < c.power.monitorAt + 1000 then c
  else { c with
    power.monitorAt := c.time
    power.monitors := ms.foldl (fun t m => if m.1 < 112 then tabSet t m.1 (m.2 % 65536) else t) c.power.monitors }

/-- The domain a monitor belongs to. -/
def monitorDomain (m : Nat) : Nat := if m < 96 then m / 2 else if m < 108 then m - 48 else 60

/-- The energy of one meter interval (R378): millivolts times milliamperes for 1 µs is picojoules; an idle pair's energy goes
to its resident partition (R332). -/
def Chip.meterOne (c : Chip) (m : Nat × Nat × Nat) : Chip :=
  let (d, mv, ma) := m
  if 64 ≤ d then c
  else
    let v := c.domain d
    let c := c.putDomain d { v with energyPj := min (v.energyPj + mv * ma) ((2 ^ 64 - 1) * 1000000) }
    match (if d < 48 then (c.pairRes d).resident else none) with
    | none => c
    | some p =>
      if c.cmds.any (fun k => k.phase ≠ .waiting && k.isCell && (if k.tclass = 1 then k.inst = d else k.inst / 2 = d)) then c
      else c.chargePj p (mv * ma)

/-- One interval of the energy meters. -/
def Chip.energyTick (c : Chip) (ms : List (Nat × Nat × Nat)) : Chip :=
  if c.power.off || c.time < c.power.energyAt + 1000 then c
  else ms.foldl Chip.meterOne { c with power.energyAt := c.time }

/-- The management controller answers: running, not within the 200 ms of a restart (R415). -/
def Chip.mgmtUp (c : Chip) : Bool :=
  c.sorrel.running && !c.sorrel.halted && (match c.sorrel.expiredAt with
    | some t => t + 200000000 ≤ c.time
    | none => true)

/-- The average of the newest `n` samples of the input power, or of as many as there are (R361, R362); each covers 10 µs. -/
def meanPower (n : Nat) (samples : List Nat) : Nat := (samples.take n).sum / (samples.take n).length

/-- One measurement of the input (R362): millivolts, 10 mA units and the power of the last 10 µs. The averages follow, CTR6
integrates the energy, and the management controller reports the three over MCTP on SMBus, but not in SCRAPPED (R400). -/
def Chip.inputMeasure (c : Chip) (fz : Fuses) (mv ca p : Nat) : Chip :=
  if c.power.off || c.time < c.power.measureAt + 10000 then c
  else
    let samples := (p :: c.power.samples).take 100000
    let p1ms := meanPower 100 samples
    let c := ({ c with
      power.measureAt := c.time, power.inputV := mv, power.inputI := ca, power.inputP := p, power.samples := samples
      power.p1s := meanPower 100000 samples, power.p1ms := p1ms } : Chip)
    let c := { c with power.overSince := if c.sustainedW < p1ms then some (c.power.overSince.getD c.time) else none }
    (if c.mgmtUp && fz.lifecycle ≠ 4 then c.send (.inputReport mv ca p) else c).count campionFrame 6 (10 * p)

/-! ### Power states (R367-R370) -/

/-- PSTATE (R367): P1 and P2 are derived. -/
def Chip.pstate (c : Chip) : Nat :=
  if c.power.pstate ≠ 0 then c.power.pstate
  else if !c.power.domains.any (fun e => e.1 ≤ 60 && (e.2.on || e.2.switching)) then 2
  else if c.power.scale < 64 || c.thermThrottled then 1 else 0

/-- The cause that refuses P3 (R368), 0 if none. -/
def Chip.standbyErr (c : Chip) : Nat :=
  if c.cmds.any (fun k => k.phase ≠ .waiting) then 1
  else if c.parts.any (fun e => e.2.state ≠ .idle && e.2.state ≠ .suspended) then 2
  else if !c.bridge.rings.isEmpty then 3
  else if c.serve.parts.any (fun e => e.2.plan.isSome) then 4 else 0

/-- P3 entered (R368): domains off, ports to entry 0 with the discard of R249, the link complex off, the memories in
self-refresh. The transition is in progress until its time ends. -/
def Chip.enterStandby (c : Chip) (x : Ctx) : Chip :=
  let c := c.allOff x
  let c := (c.links.ports.map Prod.fst).foldl (fun (c : Chip) n => (c.discardPort n).enterState n 0) c
  Chip.beginTrans (Chip.setReady { c with
    power.pstate := 3, power.stateReq := 3, power.err := 0
    links := { c.links with
      out := [], inbox := []
      ports := c.links.ports.map (fun e => (e.1, { e.2 with rxQueue := [], cut := [], txQueue := [] })) }
    tiers.units := (List.range 28).foldl (fun (t : Tab Tier) u => if u < 12 || (16 ≤ u && c.tiers.ddrChannels.contains (u - 16)) then tabSet t u { tabGet {} t u with selfRefresh := true } else t) c.tiers.units } linkPages false) 3 none

/-- What only power or the hub's domain holds is gone: everything but the always-on part (R357, R369). The memories count as
memory that nothing has written. -/
def Chip.loseHub (c : Chip) : Chip :=
  { time := c.time, free := c.free, nextCmd := c.nextCmd, instant := c.instant, outbox := c.outbox, primary := c.primary
    trace := c.trace, traceHead := c.traceHead, traced := c.traced, sorrel := c.sorrel, power := c.power, sec := c.sec, pins := c.pins
    headers := c.headers.filter (fun e => e.1 < 3), regs := c.regs.filter (fun e => e.1 < 3 * 1024)
    sel := c.sel.filter (fun e => e.1 % 2 ^ 24 < 3 * 1024), latch := c.latch.filter (fun e => e.1 % 2 ^ 14 < 3)
    staged := c.staged ++ [.zero 0 (6 * 2 ^ 48)] }

/-- P4 entered (R369), which takes at most 1 ms and abandons a transition in progress (R370): sessions above D1 end (R398), a D1 session keeps only the always-on part (R400), an unlock whose D3
zeroisation runs fails with RESULT 8 (R401). -/
def Chip.enterOff (c : Chip) : Chip :=
  if c.power.off || c.power.pstate = 4 then c
  else
    let c := if 2 ≤ c.sec.dbgLevel then c.endSession 4 else c
    let c := if c.sec.zeroising.isSome then c.unlockRefused 8 else c
    let n := (c.power.domains.filter (fun e => e.1 ≤ 60 && e.2.on)).length
    let c := if n = 0 then c else c.count campionFrame 5 n
    let c := c.loseHub
    Chip.beginTrans { c with
      power.pstate := 4
      power.domains := c.power.domains.map (fun e => (e.1, { e.2 with on := false, switching := false, vdd := 0 }))
      power.linkLock := false, power.memLock := false, power.pcieLock := false
      sec.zeroising := none, sec.dbgPart := none, sec.partValid := false } 4 (some 1000000)

/-- A transition whose time has come ends (R367-R370). -/
def Chip.transDone (c : Chip) : Chip :=
  match c.power.trans with
  | none => c
  | some t =>
    if c.time < t.ends then c
    else if t.target = 0 then c.leaveStandby
    else
      let c := { c with power.trans := none }
      if t.wake then c.beginExit else c

/-- 40 ns of local time pass (R379), and with them a power-state transition; nothing while the module has no power. -/
def Chip.pass (c : Chip) : Chip := if c.power.off then c else Chip.transDone (c.passNs 40)

/-- A write of CAMPION that a requester may make (R33, R427). -/
def Chip.campWrites (c : Chip) (fz : Fuses) (r : Requester) : Bool := c.writeReaches fz r { blk := .campion, inst := 0 }

/-- A guarded write of STATE_REQ: permission, then ERR 5 while a transition is in progress (R370), then the effect. -/
def Chip.stateReq (x : Ctx) (c : Chip) (r : Requester) (f : Chip → Chip) : Chip :=
  let pg : Page := { blk := .campion, inst := 0 }
  if !c.campWrites x.fuse r then c
  else if !c.mayWrite r pg 0x10C then c.deny pg
  else if c.power.trans.isSome then { c with power.err := 5 } else f c

/-- STATE_REQ written 3 (R368). -/
def Chip.standby (x : Ctx) (c : Chip) (r : Requester) : Chip :=
  Chip.stateReq x c r (fun c =>
    if c.power.pstate ≠ 0 then c
    else if c.standbyErr ≠ 0 then { c with power.err := c.standbyErr } else c.enterStandby x)

/-- STATE_REQ written 4 (R367, R369). -/
def Chip.offHot (x : Ctx) (c : Chip) (r : Requester) : Chip :=
  Chip.stateReq x c r (fun c => if c.power.pstate = 4 then c else { c.enterOff with power.stateReq := 4, power.err := 0 })

/-- A sensor at or above its trip point (R377): THERMTRIP_N and P4. -/
def Chip.thermTrip (c : Chip) (sensor : Nat) (temp : Int) : Chip :=
  if c.power.off || !((sensor < 52 && 1840 ≤ temp) || (52 ≤ sensor && sensor < 64 && 1680 ≤ temp)) then c
  else
    let c := ({ c with power.sensors := tabSet c.power.sensors sensor temp, power.thermtrip := true } : Chip).log campionFrame { cls := 9, sev := 2, unit := sensor }
    c.enterOff

/-! ### The input (R360) -/

/-- INPUT_FAULT set (R360): source 6, a log entry; ALERT_N follows. -/
def Chip.inputFault (c : Chip) : Chip :=
  if c.power.off || c.power.inputFault then c
  else (({ c with power.inputFault := true } : Chip).log campionFrame { cls := 8, sev := 2 }).fire campionFrame 6

/-- INPUT_FAULT cleared (R360). -/
def Chip.inputFaultClear (c : Chip) : Chip := { c with power.inputFault := false }

/-- ALERT_N is asserted: some cause the spec names for it remains (R159, R360, R361, R377, R358, R415, R434). -/
def Chip.alert (c : Chip) : Bool :=
  !c.power.off && (c.power.inputFault || c.power.capUnmet || c.power.coolant || c.tiers.hbmFailed || c.fatal ≠ 0 || c.sorrel.halted)

/-! ### The pins of J4 (R420, R434) -/

/-- What drives a module output: the boundary register under EXTEST and CLAMP, nothing under HIGHZ or without power, else the
module. `i` is the output's cell, `own` whether the module pulls it low. -/
def Chip.pulled (c : Chip) (i : Nat) (own : Bool) : Bool :=
  !c.power.off && c.sec.jtagIr ≠ 5 && (if 3 ≤ c.sec.jtagIr && c.sec.jtagIr ≤ 7 then !c.sec.boundary.getD i true else own)

/-- ALERT_N is pulled low. -/
def Chip.alertPin (c : Chip) : Bool := c.pulled 0 c.alert

/-- THERMTRIP_N is pulled low. -/
def Chip.thermtripPin (c : Chip) : Bool := c.pulled 1 c.power.thermtrip

/-- The levels that the boundary cells capture: ALERT_N, THERMTRIP_N, PWR_EN, RESET_N, PRI_SEL, SMB_ADDR and PERST_N of both ports. -/
def Chip.pinLevels (c : Chip) : List Bool :=
  [!c.alertPin, !c.thermtripPin, c.pins.pwrEn, c.pins.resetN, c.pins.priSel, c.pins.smbAddr, c.pins.perstN.getD 0 false, c.pins.perstN.getD 1 false]

/-! ### The rows of this chapter that end here -/

/-- STANDBY_REQUEST (R368). -/
def execStandbyRequest (r : Requester) : State → Host.Outcome State Fault Refusal := onChip (fun x c => Chip.standby x c r)

/-- OFF_HOT_REQUEST (R369). -/
def execOffHotRequest (r : Requester) : State → Host.Outcome State Fault Refusal := onChip (fun x c => Chip.offHot x c r)

/-- DOMAIN_SWITCH_ON (R365). -/
def execDomainSwitchOn (d : Nat) : State → Host.Outcome State Fault Refusal := onChip (fun _ c => c.switchOn d)

/-- DOMAIN_ON_DONE (R365). -/
def execDomainOnDone (d : Nat) : State → Host.Outcome State Fault Refusal := onChip (fun x c => c.onDone x d)

/-- DOMAIN_RAMP_TIMEOUT (R366). -/
def execDomainRampTimeout (d : Nat) : State → Host.Outcome State Fault Refusal := onChip (fun x c => c.rampTimeout x d)

/-- DOMAIN_OFF_DELAY_EXPIRE (R364). -/
def execDomainOffDelayExpire (d : Nat) : State → Host.Outcome State Fault Refusal := onChip (fun x c => c.offDelay x d)

/-- PACE_GOVERNOR_TICK (R374). -/
def execPaceGovernorTick : State → Host.Outcome State Fault Refusal := onChip (fun _ c => c.governor)

/-- SENSOR_SAMPLE (R377). -/
def execSensorSample (rs : List (Nat × Int)) : State → Host.Outcome State Fault Refusal := onChip (fun _ c => c.sensorSample rs)

/-- THERMTRIP (R377). -/
def execThermtrip (sensor : Nat) (temp : Int) : State → Host.Outcome State Fault Refusal := onChip (fun _ c => c.thermTrip sensor temp)

/-- PACE_MONITOR_UPDATE (R371). -/
def execPaceMonitorUpdate (ms : List (Nat × Nat)) : State → Host.Outcome State Fault Refusal := onChip (fun _ c => c.monitorUpdate ms)

/-- ENERGY_METER_TICK (R378). -/
def execEnergyMeterTick (ms : List (Nat × Nat × Nat)) : State → Host.Outcome State Fault Refusal := onChip (fun _ c => c.energyTick ms)

/-- INPUT_MEASURE (R362). -/
def execInputMeasure (mv ca p : Nat) : State → Host.Outcome State Fault Refusal := onChip (fun x c => c.inputMeasure x.fuse mv ca p)

/-- INPUT_FAULT (R360). -/
def execInputFault : State → Host.Outcome State Fault Refusal := onChip (fun _ c => c.inputFault)

/-- INPUT_FAULT_CLEAR (R360). -/
def execInputFaultClear : State → Host.Outcome State Fault Refusal := onChip (fun _ c => c.inputFaultClear)

/-- INPUT_BELOW_44V (R360): P4. -/
def execInputBelow44v : State → Host.Outcome State Fault Refusal := onChip (fun _ c => c.enterOff)

/-- GLITCH_REJECT (R383). -/
def execGlitchReject : State → Host.Outcome State Fault Refusal := onChip (fun _ c => if c.power.off then c else c.count clkgenFrame 3 1)

end Sys2Proof.Machine
end

