-- ==== Sys2Proof/Machine/Serve.lean ====
section
/-! DEFINITION. The round scheduler (R283, R286, R292-R307): joins and leaves, the planning of a round, its commit, token
records and their interrupts, and customers' buckets. -/

namespace Sys2Proof.Machine

/-- The frame of a partition's SERVE page. -/
def serveFrame (p : Nat) : Nat := 0x040 + p

/-- A partition's scheduler replaced. -/
def Chip.putServe (c : Chip) (p : Nat) (s : Serve) : Chip := { c with serve.parts := tabSet c.serve.parts p s }

/-- A request replaced; a FREE slot is not listed. -/
def Serve.putReq (s : Serve) (slot : Nat) (q : Req) : Serve :=
  { s with reqs := if q.state = .free then tabDel s.reqs slot else tabSet s.reqs slot q }

/-! ### Pools (R285, R286) -/

/-- The handles in use. -/
def Serve.handles (s : Serve) : List Nat := s.reqs.flatMap (fun e => e.2.pages.map Prod.snd)

/-- Set indices in use in a stack's pool. -/
def Serve.usedHbm (s : Serve) (stack : Nat) : List Nat :=
  (s.handles.filter (fun h => h / 2 ^ 30 = 1 && handleStack h = stack)).map (fun h => h % 2 ^ 26)

/-- Set indices in use in the DDR5 pool. -/
def Serve.usedDdr (s : Serve) : List Nat := (s.handles.filter (fun h => h / 2 ^ 30 = 2)).map (fun h => h % 2 ^ 30)

/-- Free HBM sets of all stacks (R308). -/
def Serve.hbmFree (s : Serve) : Nat := 12 * s.f 20 4 - (s.handles.filter (fun h => h / 2 ^ 30 = 1)).length

/-- Free DDR5 sets (R308). -/
def Serve.ddrFree (s : Serve) : Nat := s.f 28 4 - s.usedDdr.length

/-- The lowest index below a size that is not in a list. -/
def lowestFree (used : List Nat) (size : Nat) : Option Nat :=
  ((List.range (used.length + 1)).find? (fun i => !used.contains i)).filter (fun i => i < size)

/-- A handle for local page `j` of a slot (R286). -/
def Serve.allocHbm (s : Serve) (slot j : Nat) : Option Nat :=
  (List.range 12).findSome? (fun t =>
    let st := (slot + j + t) % 12
    (lowestFree (s.usedHbm st) (s.f 20 4)).map (fun i => 2 ^ 30 + st * 2 ^ 26 + i))

/-- A handle in the DDR5 pool: the lowest free set. -/
def Serve.allocDdr (s : Serve) : Option Nat := (lowestFree s.usedDdr (s.f 28 4)).map (fun i => 2 * 2 ^ 30 + i)

/-- New HBM sets for local pages of a slot (R286). -/
def Serve.grow (s : Serve) (slot : Nat) (js : List Nat) : Serve :=
  js.foldl (fun s j => match s.allocHbm slot j with
    | some h => s.putReq slot { s.req slot with pages := tabSet (s.req slot).pages j h }
    | none => s) s

/-- A slot's sets moved: into HBM, or into the DDR5 pool. -/
def Serve.moveSets (s : Serve) (slot : Nat) (toHbm : Bool) : Serve :=
  let js := (s.req slot).pages.map Prod.fst
  let s := s.putReq slot { s.req slot with pages := [] }
  js.foldl (fun s j => match (if toHbm then s.allocHbm slot j else s.allocDdr) with
    | some h => s.putReq slot { s.req slot with pages := tabSet (s.req slot).pages j h }
    | none => s) s

/-- A range copied with its lines' errors: a corrected line arrives good, an uncorrectable or poisoned one poisoned (R153,
R409). Answers whether a line was bad. -/
def Chip.copyRange (x : Ctx) (w : Consumer) (c : Chip) (src dst n : Nat) : Chip × Bool :=
  let lines := linesOf src n
  let (c, x) := c.onRead x w.part lines
  let bad := lines.filter (fun a => match c.lineHealth x a with
    | .ue => true
    | .poison => true
    | _ => false)
  let c := Chip.coverRuns x [(dst, n)] (Chip.readLines x w lines c).1
  let c := (pieces (n / 4096 + 2) dst n).foldl (fun c pc =>
    c.stage (.bytes (c.key x.fuse pc.1) (c.rdBytes x (src + (pc.1 - dst)) pc.2))) c
  ((bad.foldl (fun c a => c.stage (.health (c.key x.fuse (dst + (a - src)) / 64) .poison)) c).tierWrites [(dst, n)], !bad.isEmpty)

/-- A page handle that a command changes: slot, local page, handle before and after. -/
structure PageChange where
  slot : Nat
  page : Nat
  old : Nat
  new : Nat
deriving DecidableEq, Repr

/-- The page handles that differ between two states of a scheduler. -/
def Serve.changes (old new : Serve) : List PageChange :=
  (((old.reqs.map Prod.fst) ++ (new.reqs.map Prod.fst)).eraseDups).flatMap (fun slot =>
    let a := (old.req slot).pages
    let b := (new.req slot).pages
    (((a.map Prod.fst) ++ (b.map Prod.fst)).eraseDups).filterMap (fun j =>
      if tabGet 0 a j = tabGet 0 b j then none else some { slot := slot, page := j, old := tabGet 0 a j, new := tabGet 0 b j }))

/-- A change moves a set between the pools (R294). -/
def PageChange.moves (h : PageChange) : Bool := h.old ≠ 0 && h.new ≠ 0

/-- The runs of a set. -/
def Chip.setRun (c : Chip) (p : Nat) (s : Serve) (f : Fmt) (h : Nat) : Nat × Nat := (c.setAddr p s f h, s.setBytes f)

/-- What changes of page handles read: the sets that move (R294). -/
def Chip.changeReads (c : Chip) (p : Nat) (s : Serve) (f : Fmt) (hs : List PageChange) : List (Nat × Nat) :=
  (hs.filter PageChange.moves).map (fun h => c.setRun p s f h.old)

/-- What they write: page-table entries, the tags of new sets, sets at their new places (R285, R286, R294). -/
def Chip.changeWrites (c : Chip) (p : Nat) (s : Serve) (f : Fmt) (hs : List PageChange) : List (Nat × Nat) :=
  hs.flatMap (fun h =>
    (s.entryAddr h.slot h.page, 4) ::
      (if h.new = 0 then []
       else if h.old = 0 then (List.range (s.f 4 1)).map (fun g => (c.setAddr p s f h.new + g * s.pageBytes f, 1024))
       else [c.setRun p s f h.new]))

/-- Changes of page handles made in memory: entries written, new sets with fresh tags, moved sets copied (R285, R286, R294). -/
def Chip.applyChanges (x : Ctx) (p : Nat) (s : Serve) (f : Fmt) (hs : List PageChange) (c : Chip) : Chip :=
  let c := hs.foldl (fun c h =>
    let c := c.wr x (s.entryAddr h.slot h.page) (leBytes 4 h.new)
    let d := c.setRun p s f h.new
    if h.new = 0 then c
    else if h.old = 0 then
      (List.range (s.f 4 1)).foldl (fun c g => c.wr x (d.1 + g * s.pageBytes f) (List.replicate 1024 0xFF#8)) c
    else
      let src := c.setAddr p s f h.old
      (pieces (d.2 / 4096 + 2) d.1 d.2).foldl (fun c pc => c.stage (.bytes (c.key x.fuse pc.1) (c.rdBytes x (src + (pc.1 - d.1)) pc.2))) c) c
  (c.tierWrites (c.changeWrites p s f hs)).dramCharge p (c.changeReads p s f hs ++ ((hs.filter PageChange.moves).map (fun h => c.setRun p s f h.new)))

/-- A round command goes from one state of its scheduler to the next (R298): what it reads and writes in memory must be let through, then
it is read, and nothing is changed where a line fails; `body` makes the change and ends the command. -/
def Chip.roundIo (x : Ctx) (env : Env) (k : Cmd) (p : Nat) (old new : Serve) (reads writes : List (Nat × Nat)) (c : Chip) (body : Chip → Chip) : Chip :=
  let f := c.fmt k p new.fmtCode
  let hs := old.changes new
  let rs := reads ++ c.changeReads p new f hs
  let ws := writes ++ c.changeWrites p new f hs
  if !c.dramLets p (rs ++ ws) then c
  else c.afterIo x env k rs ws (fun c => body (Chip.applyChanges x p new f hs c))

/-! ### Token records and vectors (R305-R307) -/

/-- A token record's bytes (R305). -/
def tokenBytes (tok pos : Nat) (phase : Bool) (lp flags : Nat) : List Byte :=
  leBytes 4 (tok % 2 ^ 20) ++ leBytes 4 (pos % 2 ^ 23 + 2 ^ 31 * flagNat phase) ++ leBytes 4 lp ++ leBytes 4 flags

/-- A record of a request written to its ring and pending on its vector; while the port is down the write is lost (R356). -/
def Chip.putToken (c : Chip) (fn : Nat) (s : Serve) (slot tok pos lp flags : Nat) : Chip × Serve :=
  let q := s.req slot
  let n := q.f 20 4
  let phase := (q.recs / n + 1) % 2 = 1
  let v := q.f 14 2
  let e : Nat × Nat × Bool := tabGet (0, c.time, false) s.vecs v
  let e' : Nat × Nat × Bool := (e.1 + 1, if e.1 = 0 then c.time else e.2.1, e.2.2 || bitAt flags 0)
  (if (c.port (fn / 32)).linkUp then c.send (.tokenRecord fn (q.f 24 8 + 16 * (q.recs % n)) (tokenBytes tok pos phase lp flags)) else c,
    { (s.putReq slot { q with recs := (q.recs + 1) % 2 ^ 32 }) with vecs := tabSet s.vecs v e' })

/-- A request that ends with an error gets one record (R305); source 3 (R308). -/
def Chip.errorRecord (c : Chip) (p fn : Nat) (s : Serve) (slot code : Nat) : Chip × Serve :=
  let r := c.putToken fn s slot 0 (s.req slot).tokenLen 0 (1 + 4 + 256 * code + s.round % 2 ^ 16 * 2 ^ 16)
  (r.1.fire (serveFrame p) 3, r.2)

/-- Vectors whose time has come are raised and their counts cleared (R307). -/
def Chip.raiseVectors (c : Chip) (fn : Nat) (s : Serve) (test : Nat × Nat × Nat × Bool → Bool) : Chip × Serve :=
  let due := s.vecs.filter test
  (due.foldl (fun c e => c.vector fn e.1) c, { s with vecs := s.vecs.filter (fun e => !test e) })

/-! ### Planning a round (R294-R296, R302, R304, R306) -/

/-- Slots inserted in descending priority, then ascending join order. -/
def insertReq (s : Serve) (slot : Nat) : List Nat → List Nat
  | [] => [slot]
  | t :: ts =>
    let a := s.req slot
    let b := s.req t
    if b.f 10 1 < a.f 10 1 || (a.f 10 1 = b.f 10 1 && a.seq < b.seq) then slot :: t :: ts else t :: insertReq s slot ts

/-- The slots of a state in descending priority and ascending join order. -/
def Serve.order (s : Serve) (st : RState) : List Nat :=
  ((s.reqs.filter (fun e => e.2.state = st)).map Prod.fst).foldl (fun l slot => insertReq s slot l) []

/-- The target KV length of a prefill (R295). -/
def Req.target (q : Req) : Nat := if q.recompute then q.tokenLen - 1 else q.f 0 4

/-- The request is in prefill. -/
def Req.inPrefill (q : Req) : Bool := q.kvLen < q.target

/-- The chunk a budget allows (R295). -/
def Serve.chunk (s : Serve) (q : Req) (budget : Nat) : Nat :=
  let left := q.target - q.kvLen
  let m := min left (min (s.f 14 2) budget)
  if m = left then m else m / 256 * 256

/-- Local pages that a run of positions needs and the request lacks (R294). -/
def Serve.newPages (s : Serve) (q : Req) (pos n : Nat) : List Nat :=
  if n = 0 then []
  else ((List.range ((pos + n - 1) / 256 - pos / 256 + 1)).filterMap (fun i => s.localPage (pos / 256 + i))).filter (fun j => (tabFind q.pages j).isNone)

/-- The free space of a request's ring, from the consumer index read for it (R306); none where the read failed. -/
def Req.space (q : Req) (slot : Nat) (heads : List (Nat × HostRead)) : Option Int :=
  match tabFind heads slot with
  | some (.data b) => some ((q.f 20 4 : Int) - ((q.recs + 2 ^ 32 - leNat (b.take 4)) % 2 ^ 32 : Nat))
  | _ => none

/-- N_DRAFT of a decode entry (R296, R306). -/
def Req.drafts (q : Req) (slot : Nat) (heads : List (Nat × HostRead)) : Nat :=
  min q.spec (min (q.f 0 4 + q.f 4 4 - q.tokenLen - 1) (((q.space slot heads).getD 0 - 1).toNat))

/-- New local pages that the RUNNING requests need, with prefill chunks from the round's budget (R294, step 2). -/
def Serve.runNeeds (s : Serve) (heads : List (Nat × HostRead)) : List (Nat × List Nat) :=
  ((s.order .running).foldl (fun (a : Nat × List (Nat × List Nat)) slot =>
    let q := s.req slot
    if q.inPrefill then
      let n := s.chunk q a.1
      (a.1 - n, a.2 ++ [(slot, s.newPages q q.kvLen n)])
    else (a.1, a.2 ++ [(slot, s.newPages q q.kvLen (q.drafts slot heads + 1))])) (s.f 16 4, [])).2

/-- A round being planned: the scheduler, what steps 1 and 3 did, and requests ended with NO_MEM. -/
structure Planning where
  s : Serve
  restored : Nat := 0
  parked : Nat := 0
  dropped : Nat := 0
  noMem : List Nat := []
deriving DecidableEq, Repr

/-- Step 1, restore (R294): in order, while the HBM pool holds the sets restored so far and their needs. -/
def restoreReqs (heads : List (Nat × HostRead)) (free0 : Nat) : List Nat → Nat → Planning → Planning
  | [], _, a => a
  | slot :: ts, used, a =>
    let q := a.s.req slot
    let need := q.pages.length + (a.s.newPages q q.kvLen (if q.inPrefill then a.s.chunk q (a.s.f 16 4) else q.drafts slot heads + 1)).length
    if used + need ≤ free0 then
      let s := a.s.moveSets slot true
      restoreReqs heads free0 ts (used + need) { a with s := s.putReq slot { s.req slot with state := .running }, restored := a.restored + 1 }
    else a

/-- Step 3, victims (R293, R294): the lowest priority, latest join, until the needs fit. -/
def takeVictims (heads : List (Nat × HostRead)) : Nat → Planning → Planning
  | 0, a => a
  | fuel + 1, a =>
    let needs := a.s.runNeeds heads
    if needs.foldl (fun n e => n + e.2.length) 0 ≤ a.s.hbmFree then a
    else match (a.s.order .running).reverse with
      | [] => a
      | [slot] => { a with s := a.s.putReq slot { a.s.req slot with pages := [] }, noMem := a.noMem ++ [slot] }
      | slot :: _ =>
        let q := a.s.req slot
        if q.pages.length ≤ a.s.ddrFree then
          let s := a.s.moveSets slot false
          takeVictims heads fuel { a with s := s.putReq slot { s.req slot with state := .parked }, parked := a.parked + 1 }
        else
          takeVictims heads fuel
            { a with s := a.s.putReq slot { q with state := .queued, recompute := true, kvLen := 0, pages := [] }, dropped := a.dropped + 1 }

/-- A request is held: no ring space, bucket empty, variant not resident (R302, R304, R306). -/
def Chip.holds (c : Chip) (x : Ctx) (k : Cmd) (s : Serve) (heads : List (Nat × HostRead)) (slot : Nat) : Bool :=
  let q := s.req slot
  let cust := q.f 8 2 % 4096
  (match q.space slot heads with
    | some f => f ≤ 0
    | none => true) ||
    (!bitAt (ctxFld (weightEntry (c.weights k) cust) 7 1) 1 && tabGet 0 c.serve.buckets cust ≤ 0) ||
    (bitAt (q.f 12 2) 15 && c.rdNat x (s.f 64 8 + 8 * (q.f 12 2 % 1024)) 8 = 0)

/-- A plan entry of a slot. -/
def Chip.entryOf (c : Chip) (k : Cmd) (s : Serve) (slot : Nat) (prefill : Bool) (nDraft n : Nat) : PlanEntry :=
  let q := s.req slot
  let w := weightEntry (c.weights k) (q.f 8 2 % 4096)
  { slot := slot, prefill := prefill, nDraft := nDraft, pos := q.kvLen, count := n, kvLen := q.kvLen, tokenLen := q.tokenLen, dkvLen := q.dkvLen
    first := prefill && q.kvLen = 0, last := prefill && q.kvLen + n = q.target, recompute := q.recompute, wPrefill := ctxFld w 0 2, wDecode := ctxFld w 2 2 }

/-- What steps 4 and 5 have decided: entries with the pages each needs, free sets left, budget, requests held, QUEUED ones
started, whether prefill or the QUEUED ones are at an end, and whether one stayed uncovered. -/
structure Assign where
  plan : List (PlanEntry × List Nat) := []
  free : Nat
  budget : Nat
  held : Nat := 0
  ended : Bool := false
  uncovered : Bool := false
deriving DecidableEq, Repr

/-- Step 4 for a decode request. -/
def Chip.planDecode (c : Chip) (x : Ctx) (k : Cmd) (s : Serve) (heads : List (Nat × HostRead)) (planMax : Nat) (covered : List Nat) (a : Assign) (slot : Nat) : Assign :=
  let q := s.req slot
  let n := q.drafts slot heads
  let js := s.newPages q q.kvLen (n + 1)
  if !covered.contains slot || c.holds x k s heads slot || planMax ≤ a.plan.length then { a with held := a.held + 1 }
  else { a with plan := a.plan ++ [(c.entryOf k s slot false n (n + 1), js)], free := a.free - js.length }

/-- Step 5 for a request in prefill, RUNNING or QUEUED. -/
def Chip.planPrefill (c : Chip) (x : Ctx) (k : Cmd) (s : Serve) (heads : List (Nat × HostRead)) (planMax : Nat) (covered : List Nat) (queued : Bool) (a : Assign)
    (slot : Nat) : Assign :=
  let q := s.req slot
  let n := s.chunk q a.budget
  let js := s.newPages q q.kvLen n
  if a.ended then (if queued then a else { a with held := a.held + 1 })
  else if (!queued && !covered.contains slot) || c.holds x k s heads slot || planMax ≤ a.plan.length then (if queued then a else { a with held := a.held + 1 })
  else if n = 0 then { a with ended := true, held := if queued then a.held else a.held + 1 }
  else if a.free < js.length then
    (if queued then { a with ended := true, uncovered := true } else { a with held := a.held + 1 })
  else { a with plan := a.plan ++ [(c.entryOf k s slot true 0 n, js)], free := a.free - js.length, budget := a.budget - n }

/-- Requests covered by the free sets, in order (R294): all of them, unless SEQ_D > 1 left some uncovered. -/
def coverReqs : Nat → List (Nat × List Nat) → List Nat
  | _, [] => []
  | free, e :: es => if e.2.length ≤ free then e.1 :: coverReqs (free - e.2.length) es else coverReqs free es

/-- Decode entries inserted by variant, then slot (R296): those of no variant first. -/
def insertEntry (s : Serve) (e : PlanEntry × List Nat) : List (PlanEntry × List Nat) → List (PlanEntry × List Nat)
  | [] => [e]
  | d :: ds =>
    let key (u : PlanEntry × List Nat) : Nat :=
      let v := (s.req u.1.slot).f 12 2
      (if bitAt v 15 then 1 + v % 1024 else 0) * 16384 + u.1.slot
    if key e ≤ key d then e :: d :: ds else d :: insertEntry s e ds

/-- The bytes of a plan entry (R296). -/
def PlanEntry.bytes (e : PlanEntry) (q : Req) : List Byte :=
  leBytes 4 (e.slot + 2 ^ 16 * flagNat e.prefill + 2 ^ 24 * e.nDraft) ++ leBytes 4 e.pos ++ leBytes 4 e.count ++ leBytes 4 e.kvLen ++ leBytes 4 e.tokenLen ++
    leBytes 4 e.dkvLen ++
    leBytes 4 (q.f 12 2 + 2 ^ 16 * (q.f 10 1 % 16) + 2 ^ 20 * flagNat e.first + 2 ^ 21 * flagNat e.last + 2 ^ 22 * flagNat e.recompute) ++ leBytes 4 0

/-- A SPEC_ENABLE that waited takes effect (R298, R301). -/
def Req.specTakes (q : Req) : Req := match q.specNext with
  | some v => { q with spec := v, rejRun := 0, specNext := none }
  | none => q

/-- The consumer indices asked of the host (R306). -/
def Chip.askHeads (c : Chip) (fn : Nat) (s : Serve) : Chip :=
  s.reqs.foldl (fun c e => c.send (.hostRead fn (e.2.f 32 8) 4)) c

/-- A planned round: what its steps did, its entries with decode first and the pages each needs, the scheduler with the entries' requests
RUNNING, and what it held back. -/
structure RoundPlan where
  steps : Planning
  plan : List (PlanEntry × List Nat)
  decode : Nat
  s : Serve
  all : Assign
deriving DecidableEq, Repr

/-- The steps of ROUND_BEGIN (R294-R296) on a scheduler whose SPEC_ENABLEs have taken effect. -/
def Chip.planRound (c : Chip) (x : Ctx) (k : Cmd) (s : Serve) (heads : List (Nat × HostRead)) : RoundPlan :=
  let planMax := k.fld 16 2
  let a := restoreReqs heads s.hbmFree (s.order .parked) 0 { s := s }
  let a := if 1 < s.f 11 1 then a else takeVictims heads (s.reqs.length + 1) a
  let s1 := a.s
  let covered := coverReqs s1.hbmFree ((s1.runNeeds heads).filter (fun e => !a.noMem.contains e.1))
  let running := (s1.order .running).filter (fun t => !a.noMem.contains t)
  let start : Assign := { free := s1.hbmFree, budget := s1.f 16 4 }
  let dec := (running.filter (fun t => !(s1.req t).inPrefill)).foldl (c.planDecode x k s1 heads planMax covered) start
  let pre := (running.filter (fun t => (s1.req t).inPrefill)).foldl (c.planPrefill x k s1 heads planMax covered false) dec
  let all := (s1.order .queued).foldl (c.planPrefill x k s1 heads planMax covered true) pre
  let decode := (all.plan.filter (fun e => !e.1.prefill)).foldl (fun l e => insertEntry s1 e l) []
  let plan := decode ++ all.plan.filter (fun e => e.1.prefill)
  { steps := a, plan := plan, decode := decode.length, all := all
    s := plan.foldl (fun s e => (s.putReq e.1.slot { s.req e.1.slot with state := .running }).grow e.1.slot e.2) s1 }

/-- The bytes of the plan (R296). -/
def RoundPlan.bytes (r : RoundPlan) (s : Serve) : List Byte :=
  let waiting := (s.reqs.filter (fun e => e.2.state = .queued)).length
  let prefill := (r.plan.filter (fun e => e.1.prefill)).foldl (fun n e => n + e.1.count) 0
  leBytes 4 s.round ++ leBytes 4 (r.plan.length + 2 ^ 16 * r.decode) ++ leBytes 4 (flagNat (32 < r.decode)) ++ leBytes 4 prefill ++
    leBytes 4 (r.all.held % 2 ^ 16 + 2 ^ 16 * waiting) ++ leBytes 4 (r.steps.parked + 2 ^ 16 * r.steps.restored) ++ leBytes 4 r.steps.dropped ++
    List.replicate 36 0#8 ++ (r.plan.map (fun e => e.1.bytes (s.req e.1.slot))).flatten

/-- Requests that leave a scheduler. -/
def Serve.without (s : Serve) (slots : List Nat) : Serve := slots.foldl (fun s t => s.putReq t { state := .free }) s

/-- ROUND_BEGIN of a running command (R294-R296). `heads` answers the reads of consumer indices by slot; a port that is down answers
none (R356). A set that moves and a line that is read with an error end it with nothing changed (R153, R298). -/
def Chip.roundBegin (x : Ctx) (env : Env) (heads : List (Nat × HostRead)) (c : Chip) (k : Cmd) : Chip :=
  let p := (c.cmdPart k).getD 16
  match c.serveOf p, c.part? p with
  | some s0, some pt =>
    if s0.plan.isSome then c.endCmd k 5 16
    else
      let c := c.upset x env.upsets
      let x := x.upset env.upsets
      let heads := if (c.port (pt.fn / 32)).linkUp then heads else []
      let s := { s0 with reqs := s0.reqs.map (fun e => (e.1, e.2.specTakes)) }
      let dirs := ((s.reqs.filter (fun e => bitAt (e.2.f 12 2) 15)).map (fun e => (s.f 64 8 + 8 * (e.2.f 12 2 % 1024), 8))).eraseDups
      let r := c.planRound x k s heads
      let at_ := (k.fld 24 8, 64 + 32 * r.plan.length)
      Chip.roundIo x env k p s0 (r.s.without r.steps.noMem) dirs [at_] c (fun c =>
        let c := r.steps.noMem.foldl (fun (q : Chip × Serve) t => q.1.errorRecord p pt.fn q.2 t 3) (c.askHeads pt.fn s, r.s)
        let s3 := { c.2.without r.steps.noMem with plan := some (r.plan.map Prod.fst), held := r.all.held }
        let c := (c.1.wr x at_.1 (r.bytes s3)).tierWrites [at_]
        let f := serveFrame p
        let c := c.putServe p s3
        let c := if r.steps.parked = 0 then c else c.count f 5 r.steps.parked
        let c := if r.steps.dropped = 0 then c else (c.count f 6 r.steps.dropped).fire f 2
        let c := if r.all.uncovered then c.count f 7 1 else c
        c.endCmd k 0 0)
  | _, _ => c.endCmd k 5 16

/-! ### Committing a round (R297, R299-R301, R304) -/

/-- A word of a verify record. -/
def vrecWord (b : List Byte) (i : Nat) : Nat := ctxFld b (4 * i) 4

/-- A verify record breaks its layout (R299). -/
def vrecBad (e : PlanEntry) (b : List Byte) : Bool :=
  (List.range 9).any (fun i => 2 ^ 20 ≤ vrecWord b i) || (List.range 8).any (fun i => 2 ^ 20 ≤ vrecWord b (18 + i)) || ctxFld b 106 22 ≠ 0 ||
    e.nDraft < ctxFld b 104 1 || (e.prefill && ctxFld b 104 1 ≠ 0)

/-- The drafts accepted (R300): the longest prefix on which draft and teacher agree. -/
def accepted (b : List Byte) : Nat → Nat → Nat
  | 0, i => i
  | n + 1, i => if vrecWord b (18 + i) = vrecWord b i then accepted b n (i + 1) else i

/-- The tokens committed, cut after an end token (R300). -/
def cutAtEos (eos : Option Nat) : List Nat → List Nat × Bool
  | [] => ([], false)
  | t :: ts => if eos = some t then ([t], true) else let r := cutAtEos eos ts; (t :: r.1, r.2)

/-- A bucket charged (R304). -/
def Chip.chargeBucket (c : Chip) (cust n : Nat) : Chip :=
  { c with serve.buckets := tabSet c.serve.buckets cust (max (-(2 ^ 47 : Int)) (tabGet 0 c.serve.buckets cust - n)) }

/-- REJ_RUN and SPEC after a decode entry with drafts (R301): the request and whether drafting stopped. -/
def Serve.reject (s : Serve) (q : Req) (a : Nat) : Req × Bool :=
  if 0 < a then ({ q with rejRun := 0 }, false)
  else
    let r := q.rejRun + 1
    if r = 16 then ({ q with rejRun := r, spec := 0 }, true)
    else if r = 4 || r = 8 || r = 12 then ({ q with rejRun := r, spec := s.f 52 4 / 16 ^ (q.spec - 1) % 16 }, false)
    else ({ q with rejRun := r }, false)

/-- Tokens of an entry committed from a record: decode, or the one of a last prefill chunk (R300). `old` is KV_LEN at the
round's begin. -/
def Chip.commitTokens (c : Chip) (p fn : Nat) (s : Serve) (e : PlanEntry) (b : List Byte) : Chip × Serve :=
  let q := s.req e.slot
  let n := if e.prefill then 0 else ctxFld b 104 1
  let a := accepted b n 0
  let eosw := q.f 16 4
  let eos := if bitAt eosw 31 then some (eosw % 2 ^ 20) else none
  let r := cutAtEos eos (((List.range a).map (fun i => vrecWord b (18 + i))) ++ [vrecWord b a])
  let toks := r.1
  let cN := toks.length
  let t0 := q.tokenLen
  let full := t0 + cN = q.f 0 4 + q.f 4 4
  let code := if r.2 then 1 else if full then 2 else 0
  let (q', stopped) := if 1 ≤ n then s.reject q a else (q, false)
  let q' := { q' with tokenLen := t0 + cN, kvLen := if e.prefill then t0 + cN - 1 else q.kvLen + cN, dkvLen := if 1 ≤ n then e.kvLen + min (a + 1) n else q.dkvLen }
  let s := s.putReq e.slot q'
  let f := serveFrame p
  let (c, s) := (List.range cN).foldl (fun (r : Chip × Serve) i =>
    let last := i + 1 = cN
    r.1.putToken fn r.2 e.slot (toks.getD i 0) (t0 + i) (vrecWord b (9 + i))
      (flagNat (last && code ≠ 0) + 2 * flagNat (i < a) + 8 * flagNat (last && stopped) + 256 * (if last then code else 0) + s.round % 2 ^ 16 * 2 ^ 16)) (c, s)
  let c := (c.count f 1 cN).count f 2 a
  let c := if n - a = 0 then c else c.count f 3 (n - a)
  let c := if 1 ≤ n && a = 0 then c.count f 4 1 else c
  let c := if stopped then c.fire f 4 else c
  let c := c.chargeBucket (q.f 8 2 % 4096) (cN * e.wDecode + (if e.prefill then e.count * e.wPrefill else 0))
  (c, if code = 0 then s else s.putReq e.slot { s.req e.slot with state := .leaving })

/-- One plan entry committed with its verify record (R297). -/
def Chip.commitEntry (p fn : Nat) (c : Chip) (s : Serve) (e : PlanEntry) (b : List Byte) : Chip × Serve :=
  let q := s.req e.slot
  if vrecBad e b || ctxFld b 105 1 ≠ 0 then
    let r := c.errorRecord p fn s e.slot (if vrecBad e b then 4 else 5)
    (r.1, r.2.putReq e.slot { r.2.req e.slot with state := .leaving })
  else if !e.prefill then c.commitTokens p fn s e b
  else if !e.last then
    (c.chargeBucket (q.f 8 2 % 4096) (e.count * e.wPrefill), s.putReq e.slot { q with kvLen := q.kvLen + e.count })
  else if e.recompute then
    (c.chargeBucket (q.f 8 2 % 4096) (e.count * e.wPrefill), s.putReq e.slot { q with kvLen := q.tokenLen - 1, recompute := false })
  else c.commitTokens p fn s e b

/-- REQ_LEAVE commands whose slot has become FREE complete (R293). -/
def Chip.endLeaves (c : Chip) (p : Nat) (s : Serve) : Chip :=
  (c.cmds.filter (fun j => j.opcode = 0x6A && j.phase = .running && j.stage = 1 && c.cmdPart j = some p && (s.req (j.fld 16 2)).state = .free)).foldl
    (fun c j => c.endCmd j 0 0) c

/-- ROUND_COMMIT of a running command (R297). -/
def Chip.roundCommit (x : Ctx) (env : Env) (c : Chip) (k : Cmd) : Chip :=
  let p := (c.cmdPart k).getD 16
  match c.serveOf p, c.part? p with
  | some s0, some pt =>
    match s0.plan with
    | none => c.endCmd k 5 16
    | some plan =>
      let c := c.upset x env.upsets
      let x := x.upset env.upsets
      let va := k.fld 24 8
      let entries (c : Chip) : Chip × Serve := (List.range plan.length).foldl (fun (r : Chip × Serve) i => match plan[i]? with
        | some e => Chip.commitEntry p pt.fn r.1 r.2 e (c.rdBytes x (va + 128 * i) 128)
        | none => r) (c, s0)
      let after (s : Serve) : Serve :=
        { s with reqs := s.reqs.filter (fun e => e.2.state ≠ .leaving), plan := none, round := if s0.round = 0xFFFFFFFE then 1 else s0.round + 1 }
      Chip.roundIo x env k p s0 (after (entries c).2) (if plan.isEmpty then [] else [(va, 128 * plan.length)]) [] c (fun c =>
        let r := entries c
        let s := after r.2
        let v := (r.1.count (serveFrame p) 0 1).raiseVectors pt.fn s (fun e => s.f 56 2 ≤ e.2.1 || e.2.2.1 + 1000 * s.f 58 2 ≤ c.time || e.2.2.2)
        ((v.1.putServe p v.2).endLeaves p v.2).endCmd k 0 0)
  | _, _ => c.endCmd k 5 16

/-! ### Configuring, joining, leaving (R283, R292, R293, R301) -/

/-- SERVE_CFG of a running command (R283). -/
def Chip.serveCfg (c : Chip) (k : Cmd) : Chip := (c.putServe ((c.cmdPart k).getD 16) { ctx := k.ctx }).endCmd k 0 0

/-- REQ_JOIN of a running command (R292), with the descriptor it read before it started. -/
def Chip.reqJoin (c : Chip) (k : Cmd) : Chip :=
  let p := (c.cmdPart k).getD 16
  match c.serveOf p with
  | none => c.endCmd k 2 0
  | some s =>
    let q : Req := { desc := k.ctx, seq := s.joins, tokenLen := ctxFld k.ctx 0 4, spec := ctxFld k.ctx 11 1 }
    (c.putServe p { s.putReq (k.fld 16 2) q with joins := s.joins + 1 }).endCmd k 0 0

/-- REQ_LEAVE of a running command (R293): it waits for the commit of a round that plans its slot. -/
def Chip.reqLeave (x : Ctx) (c : Chip) (k : Cmd) : Chip :=
  let p := (c.cmdPart k).getD 16
  let slot := k.fld 16 2
  match c.serveOf p with
  | none => c.endCmd k 2 0
  | some s =>
    if k.stage = 1 then c
    else if (s.plan.getD []).any (fun e => e.slot = slot) && (s.req slot).state ≠ .free then
      (c.putServe p (s.putReq slot { s.req slot with state := .leaving })).putCmd { k with stage := 1 }
    else
      let s' := s.putReq slot { state := .free }
      Chip.roundIo x Env.quiet k p s s' [] [] c (fun c => (c.putServe p s').endCmd k 0 0)

/-- SPEC_ENABLE of a running command (R301): at the next ROUND_BEGIN where a round is open (R298). -/
def Chip.specEnable (c : Chip) (k : Cmd) : Chip :=
  let p := (c.cmdPart k).getD 16
  let slot := k.fld 16 2
  match c.serveOf p with
  | none => c.endCmd k 2 0
  | some s =>
    let q := s.req slot
    let q := { q with specNext := some (k.fld 18 1) }
    (c.putServe p (if (s.req slot).state = .free then s else s.putReq slot (if s.plan.isSome then q else q.specTakes))).endCmd k 0 0

/-! ### Buckets and the vector timer (R303, R304, R307) -/

/-- The depth of a customer's bucket. -/
def bucketDepth (e : List Byte) : Int := (2 ^ ctxFld e 6 1 : Nat)

/-- The weight table was activated (R304): the bucket of an entry starts full at its first activation, and is clamped to the new depth at
a later one. -/
def Chip.bucketsActivated (c : Chip) (im : Image) : Chip :=
  let bs := (List.range im.count).foldl (fun bs cust =>
    let e := im.entry 8 cust
    match tabFind bs cust with
    | some v => tabSet bs cust (min v (bucketDepth e))
    | none => if weightValid e then tabSet bs cust (bucketDepth e) else bs) c.serve.buckets
  { c with serve.buckets := bs }

/-- BUCKET_REFILL (R304): one interval of 16 µs of local time has passed. -/
def Chip.bucketRefill (c : Chip) : Chip :=
  if c.time < c.serve.refillAt + 16000 then c
  else
    { c with
      serve.refillAt := c.serve.refillAt + 16000
      serve.buckets := c.serve.buckets.map (fun (b : Nat × Int) =>
        let e := weightEntry (c.active (tableKey 8 16 0)) b.1
        (b.1, max b.2 (min (b.2 + (ctxFld e 4 2 : Nat)) (bucketDepth e)))) }

/-- TOKEN_VECTOR_TIMER (R307): a vector whose COAL_US has passed since its oldest pending record is raised. -/
def Chip.tokenTimer (c : Chip) (p v : Nat) : Chip :=
  match c.serveOf p, c.part? p with
  | some s, some pt =>
    let r := c.raiseVectors pt.fn s (fun e => e.1 = v && e.2.2.1 + 1000 * s.f 58 2 ≤ c.time)
    r.1.putServe p r.2
  | _, _ => c

/-- SERVE_CFG (R283). -/
def execServeCfg (cmd : Nat) : State → Host.Outcome State Fault Refusal := onOp cmd 0x68 (fun _ => Chip.serveCfg)

/-- REQ_JOIN (R292). -/
def execReqJoin (cmd : Nat) : State → Host.Outcome State Fault Refusal := onOp cmd 0x69 (fun _ => Chip.reqJoin)

/-- REQ_LEAVE (R293). -/
def execReqLeave (cmd : Nat) : State → Host.Outcome State Fault Refusal := onOp cmd 0x6A Chip.reqLeave

/-- ROUND_BEGIN (R294). -/
def execRoundBegin (cmd : Nat) (env : Env) (heads : List (Nat × HostRead)) : State → Host.Outcome State Fault Refusal :=
  onOp cmd 0x6B (fun x => Chip.roundBegin x env heads)

/-- ROUND_COMMIT (R297). -/
def execRoundCommit (cmd : Nat) (env : Env) : State → Host.Outcome State Fault Refusal := onOp cmd 0x6C (fun x => Chip.roundCommit x env)

/-- SPEC_ENABLE (R301). -/
def execSpecEnable (cmd : Nat) : State → Host.Outcome State Fault Refusal := onOp cmd 0x6D (fun _ => Chip.specEnable)

/-- TOKEN_VECTOR_TIMER (R307). -/
def execTokenVectorTimer (p v : Nat) : State → Host.Outcome State Fault Refusal := onChip (fun _ c => c.tokenTimer p v)

/-- BUCKET_REFILL (R304). -/
def execBucketRefill : State → Host.Outcome State Fault Refusal := onChip (fun _ c => c.bucketRefill)

end Sys2Proof.Machine
end

