-- ==== Sys2Proof/Machine/Parts.lean ====
section
/-! DEFINITION. Partitions (chapter 13): forming, setting, regions, teardown and reset, grants, stops with their spills and
restores, the command watchdog, and the bandwidth regulators. -/

namespace Sys2Proof.Machine

/-- Page of CDMA[n]. -/
def cdmaPage (n : Nat) : Page := { blk := .cdma, inst := n }

/-! ### The partition context (R312) -/

/-- The regulators of a context: (RATE, BURST). -/
def ctxRegs (b : List Byte) : List (Nat × Nat) := (List.range 5).map (fun i => (ctxFld b (56 + 4 * i) 2, ctxFld b (58 + 4 * i) 2))

/-- The cap of a regulator, in lines (R319). -/
def regCap (r : Nat × Nat) : Int := ((16 * r.2 : Nat) : Int)

/-- What PART_SET takes from a context: bytes 6, 10–15 and 48–75 (R313). -/
def Part.setFrom (pt : Part) (b : List Byte) : Part :=
  let f := ctxFld b
  let regs := ctxRegs b
  { pt with
    prio := f 6 1 % 16, preempt := bitAt (f 6 1) 4, stopOnFault := bitAt (f 6 1) 5, deadlineUs := f 10 2, watchdogUs := f 12 4
    shares := (List.range 6).map (fun i => f (48 + i) 1), regs := regs
    levels := List.zipWith (fun l r => min l (regCap r)) pt.levels regs }

/-- The partition a context forms; its regulators start at their caps. -/
def partOfCtx (b : List Byte) (now : Nat) : Part :=
  let f := ctxFld b
  Part.setFrom
    { pairs := f 0 6, prio := 0, preempt := false, stopOnFault := false, fn := f 7 1, domain := f 8 2, deadlineUs := 0, watchdogUs := 0
      seed := f 16 8, evtBase := f 24 2, evtCount := f 26 2, spillBase := f 32 8, spillBytes := f 40 8, shares := [], regs := []
      levels := (ctxRegs b).map regCap, formedAt := now } b

/-! ### Stops (R325, R326, R328) -/

/-- The queues of a partition: those of its function not DISABLED. -/
def Chip.partQueues (c : Chip) (pt : Part) : List Nat := (c.sqs.filter (fun e => e.1 / 256 = pt.fn && e.2.state ≠ 0)).map Prod.fst

/-- Every queue of a partition is at a cheap point. -/
def Chip.allCheap (c : Chip) (pt : Part) : Bool := (c.partQueues pt).all c.atCheapPoint

/-- A partition enters STOPPING (R322, R328): counted, source 3; the stop has the DEADLINE_US of now (R313). -/
def Chip.enterStop (c : Chip) (p : Nat) : Chip :=
  ((c.modPart p (fun q => { q with state := .stopping, stopAt := c.time, stopDeadline := q.deadlineUs })).count (partFrame p) 5 1).fire (partFrame p) 3

/-- An entry of a cell program is active at cheap point `n` (R324). -/
def entryActive (e : List Byte) (n : Nat) : Bool :=
  let a := ctxFld e 12 2
  let b := ctxFld e 14 2
  if a ≤ b then a ≤ n && n ≤ b else a ≤ n || n ≤ b

/-- The spill ranges of a program at cheap-point count `k` for cells of `cells` ranks (R323, R325). -/
def programRanges (im : Image) (k cells : Nat) : List SpillRange :=
  let es := entriesOf 16 im.count im.body
  let ncp := ctxFld (es.headD []) 2 2
  let n := if ncp = 0 then 0 else k % ncp
  (es.drop 1).flatMap (fun e =>
    if !entryActive e n then []
    else
      let ranks := if ctxFld e 1 1 = 0xFF then List.range cells else if ctxFld e 1 1 < cells then [ctxFld e 1 1] else []
      ranks.map (fun r => { rank := r, space := ctxFld e 2 1 % 2, off := 64 * ctxFld e 4 4, len := 64 * ctxFld e 8 4 }))

/-- What a stop at cheap points spills (R325). -/
def Chip.liveRanges (c : Chip) (p : Nat) (pt : Part) : List SpillRange :=
  ((c.partQueues pt).flatMap (fun q =>
    match (c.sq q).prog with
    | none => []
    | some s => (match c.active (tableKey 0 p s) with
      | none => []
      | some im => programRanges im (c.sq q).cheapCount pt.cells.length))).eraseDups.filter (fun r => r.len ≠ 0)

/-- What a deadline stop spills: everything (R326). -/
def Part.wholeRanges (pt : Part) : List SpillRange :=
  (List.range pt.cells.length).flatMap (fun r =>
    [{ rank := r, space := 0, off := 0, len := 0x1000000 }, { rank := r, space := 1, off := 0, len := 0x200000 }])

/-- Where a range lies in its cell's memory and in the cell's spill image (R325). -/
def Part.spillEnds (pt : Part) (r : SpillRange) : Nat × Nat :=
  let n := pt.cells.getD r.rank 0
  (if r.space = 0 then scratchAddr n r.off else wideAddr n r.off,
    pt.spillBase + r.rank * (18 * 2 ^ 20) + (if r.space = 0 then 0 else 16 * 2 ^ 20) + r.off)

/-- A range fits the spill area. -/
def Part.spillFits (pt : Part) (r : SpillRange) : Bool := (pt.spillEnds r).2 + r.len ≤ pt.spillBase + pt.spillBytes

/-- One range copied out (R325, R326, R329): wide buffers with ZERO_SRC; a bad line spills poisoned and sets FAULT. -/
def Chip.spillOne (x : Ctx) (p : Nat) (pt : Part) (c : Chip) (r : SpillRange) : Chip :=
  let e := pt.spillEnds r
  let v := Chip.copyRange x { page := some (cdmaPage (pt.cells.getD r.rank 0)), part := some p, opcode := 0, target := 0 } c e.1 e.2 r.len
  let c := if r.space = 1 then v.1.wrZero x e.1 r.len else v.1
  let c := c.count (partFrame p) 7 (r.len / 64)
  if v.2 && (match c.part? p with
      | some q => !q.fault
      | none => false) then (c.modPart p (fun q => { q with fault := true })).fire (partFrame p) 5 else c

/-- The partition's kept accumulators are lost with its cells: keep-lost marks (R93, R326). -/
def Chip.loseKeeps (c : Chip) (p : Nat) (pt : Part) : Chip :=
  let lost := pt.cells.filter (fun n => (tabFind c.keeps n).isSome)
  { c.modPart p (fun q => { q with keepLost := (q.keepLost ++ lost).eraseDups }) with
    keeps := c.keeps.filter (fun e => !(e.1 < 96 && pt.cells.contains e.1)) }

/-- Memory answers for the spill images of a partition (R159, R381). -/
def Chip.imagesUp (c : Chip) (pt : Part) (rs : List SpillRange) : Bool := c.trafficLets none (rs.map (fun r => ((pt.spillEnds r).2, r.len)))

/-- A stop moves to SPILLING with its ranges copied out, or, while memory does not answer, with the copy still to come; ranges beyond the
spill area are not spilled. -/
def Chip.spill (c : Chip) (x : Ctx) (p : Nat) (pt : Part) (rs : List SpillRange) : Chip :=
  let rs := rs.filter pt.spillFits
  let up := c.imagesUp pt rs
  let c := if up then rs.foldl (Chip.spillOne x p pt) c else c
  (c.modPart p (fun q => { q with state := .spilling, spilled := rs, spillHeld := !up })).loseKeeps p pt

/-- SPILL_BEGIN (R325). -/
def Chip.spillBegin (x : Ctx) (c : Chip) (p : Nat) : Chip :=
  match c.part? p with
  | none => c
  | some pt => if pt.state = .stopping && c.allCheap pt then c.spill x p pt (c.liveRanges p pt) else c

/-- A running cell or head command killed at the deadline (R326): no record; it waits again at its place, its take and its
accounting kept. One in its commit phase completes. -/
def Chip.deadlineKill (x : Ctx) (c : Chip) (id : Nat) : Chip :=
  match c.cmd? id with
  | none => c
  | some k =>
    match k.phase with
    | .waiting => c
    | .ended => c.finish x (c.accounted k) k.status k.detail true
    | .running =>
      let c := c.killUnit x k
      let j := c.stopped k
      ((c.draw 2).chargeRun j).putCmd { j with phase := .waiting, stage := 0, data := [], hold := false, binds := [], ctx := [], runPj := 0 }

/-- The deadline path of a stop (R326). -/
def Chip.deadlinePath (x : Ctx) (c : Chip) (p : Nat) : Chip :=
  match c.part? p with
  | none => c
  | some pt =>
    let ids := (c.cmds.filter (fun k => c.cmdPart k = some p && ((k.isCell && !k.isGate) || k.isHead))).map (fun k => k.id)
    let c := ids.foldl (Chip.deadlineKill x) c
    ((c.spill x p pt pt.wholeRanges).count (partFrame p) 6 1).fire (partFrame p) 4

/-- PREEMPT_DEADLINE_EXPIRE (R326, R329): a cheap point reached in the same instant wins. -/
def Chip.deadline (x : Ctx) (c : Chip) (p : Nat) : Chip :=
  match c.part? p with
  | none => c
  | some pt => if pt.state = .stopping && pt.stopAt + 1000 * pt.stopDeadline ≤ c.time && !c.allCheap pt then Chip.deadlinePath x c p else c

/-- A PART_YIELD that waits for its partition's stop. -/
def Chip.yielding (c : Chip) (p : Nat) : List Cmd := c.cmds.filter (fun k => k.opcode = 0x95 && k.tclass = 7 && k.phase = .running && k.stage = 1 && c.cmdPart k = some p)

/-- The pairs resident for a partition are given up (R325). -/
def Chip.releasePairs (c : Chip) (p : Nat) : Chip :=
  (c.pairs.filter (fun e => e.2.resident = some p)).foldl (fun (c : Chip) e =>
    (c.putPair e.1 { e.2 with resident := none, last := some p }).noteUse e.1) c

/-- SPILL_DONE (R325, R328): SUSPENDED, or IDLE after a yield that had nothing to spill; the pairs are released. A copy that memory held
back comes first, and is waited for (R381). -/
def Chip.spillDone (x : Ctx) (c : Chip) (p : Nat) : Chip :=
  match c.part? p with
  | none => c
  | some pt =>
    if pt.state ≠ .spilling || (pt.spillHeld && !c.imagesUp pt pt.spilled) then c
    else
      let c := if pt.spillHeld then pt.spilled.foldl (Chip.spillOne x p pt) c else c
      let ys := c.yielding p
      let st : PState := if !ys.isEmpty && pt.spilled.isEmpty then .idle else .suspended
      let c := c.modPart p (fun q => { q with state := st, spillHeld := false, lastStopUs := min 0xFFFF (ceilDiv (c.time - q.stopAt) 1000) })
      ys.foldl (fun (c : Chip) k => c.endCmd k 0 0) (c.releasePairs p)

/-! ### Grants and restores (R322, R327) -/

/-- A pair cannot be granted: its domain FAILED (R366), its self-test failed (R406) or is running (R405). -/
def Chip.pairLost (c : Chip) (fz : Fuses) (q : Nat) : Bool :=
  (c.domain q).failed || fz.repair.pairFail.contains q || (c.selftest.busy && !c.selftest.engine && c.selftest.index = q)

/-- One candidate's turn (R322): the pairs are reserved if each is available or contestable, their preemptible residents
stop, and with every pair available the candidate moves to RESTORING. -/
def Chip.grantOne (fz : Fuses) (c : Chip) (p : Nat) : Chip :=
  match c.part? p with
  | none => c
  | some pt =>
    let qs := bitsOf 48 pt.pairs
    let open_ (q : Nat) : Bool := (c.pairRes q).resident.isNone
    let contest (q : Nat) : Bool := match (c.pairRes q).resident.bind c.part? with
      | some r => r.prio < pt.prio && r.preempt
      | none => false
    if qs.any (c.pairLost fz) || !qs.all (fun q => (c.pairRes q).reserved.isNone && (open_ q || contest q)) then c
    else if qs.all open_ then
      qs.foldl (fun (c : Chip) q => c.putPair q { c.pairRes q with resident := some p, reserved := none }) (c.modPart p (fun e => { e with state := .restoring }))
    else
      let rs := ((qs.filterMap (fun q => (c.pairRes q).resident)).eraseDups).filter (fun r => match c.part? r with
        | some e => e.state = .resident
        | none => false)
      let c := qs.foldl (fun (c : Chip) q => c.putPair q { c.pairRes q with reserved := some p }) c
      rs.foldl Chip.enterStop c

/-- The candidates in the order of R322: priority, then the instant each became ready, then number. -/
def Chip.candidates (c : Chip) : List Nat :=
  ((c.parts.filter (fun e => (e.2.state = .idle || e.2.state = .suspended) && e.2.readySince.isSome)).mergeSort (fun a b =>
    b.2.prio < a.2.prio || (a.2.prio = b.2.prio && (a.2.readySince.getD 0 < b.2.readySince.getD 0 ||
      (a.2.readySince = b.2.readySince && a.1 ≤ b.1))))).map Prod.fst

/-- GRANT_EVALUATE (R322): reservations are made afresh. -/
def Chip.evaluate (x : Ctx) (c : Chip) : Chip :=
  if c.power.pstate ≠ 0 || c.fatal ≠ 0 then c
  else
    let c := c.noteParts x
    let c := { c with pairs := c.pairs.map (fun (e : Nat × PairRes) => (e.1, { e.2 with reserved := none })) }
    c.candidates.foldl (Chip.grantOne x.fuse) c

/-- One pair made ready for its new resident: zeroed unless the partition was its last (R327). -/
def Chip.restorePair (x : Ctx) (p : Nat) (c : Chip) (q : Nat) : Chip :=
  let r := c.pairRes q
  let c := if r.last = some p then c else c.clearDomain x q
  c.putPair q { c.pairRes q with last := some p }

/-- RESTORE_DONE (R327): pairs zeroed where another was last, tables replayed, spilled ranges copied back, RESIDENT. -/
def Chip.restoreDone (x : Ctx) (c : Chip) (p : Nat) : Chip :=
  match c.part? p with
  | none => c
  | some pt =>
    let qs := bitsOf 48 pt.pairs
    if pt.state ≠ .restoring || !qs.all (fun q => (c.domain q).on) || !c.imagesUp pt pt.spilled then c
    else
      let c := (qs.foldl (Chip.restorePair x p) c).count 0x005 3 1
      let c := pt.spilled.foldl (fun (c : Chip) r =>
        let e := pt.spillEnds r
        (Chip.copyRange x { page := some (cdmaPage (pt.cells.getD r.rank 0)), part := some p, opcode := 0, target := 0 } c e.2 e.1 r.len).1.count (partFrame p) 7 (r.len / 64)) c
      (c.modPart p (fun q => { q with state := .resident, spilled := [] })).fire (partFrame p) 2

/-! ### PART_FORM, PART_SET, PART_REGION (R313, R315) -/

/-- ARRAY_CTRL of a cell page returns to its reset value when the page's PART_TAG changes (R102). -/
def Chip.retag (old c : Chip) : Chip :=
  (List.range 96).foldl (fun (c : Chip) n =>
    if old.firstClaimant (n / 2) = c.firstClaimant (n / 2) then c else { c with regs := tabDel c.regs (regKey (0x100 + n) 0x12C) }) c

/-- PART_FORM of a running command. -/
def Chip.partForm (c : Chip) (k : Cmd) : Chip :=
  let p := k.fld 16 1
  let pt := partOfCtx k.ctx c.instant
  let c := (Chip.retag c { c with parts := tabSet c.parts p pt }).tick
  let c := (List.range pt.evtCount).foldl (fun (c : Chip) i => c.putEvent (pt.evtBase + i) { c.event (pt.evtBase + i) with owner := some p }) c
  (c.endCmd k 0 0).noteOvercommit

/-- PART_SET of a running command. -/
def Chip.partSet (c : Chip) (k : Cmd) : Chip :=
  let c := c.modPart (k.fld 16 1) (fun pt => pt.setFrom k.ctx)
  (c.endCmd k 0 0).noteOvercommit

/-- PART_REGION of a running command. -/
def Chip.partRegion (c : Chip) (k : Cmd) : Chip :=
  let i := k.fld 17 1
  let put (rs : Tab Region) : Tab Region :=
    if bitAt (k.fld 18 1) 0 then tabSet rs i { base := k.fld 24 8, bytes := k.fld 32 8, readOnly := bitAt (k.fld 18 1) 1 } else tabDel rs i
  let c := c.modPart (k.fld 16 1) (fun pt => { pt with regions := put pt.regions })
  c.endCmd k 0 0

/-! ### Teardown and reset (R317, R331) -/

/-- Perturbations on pages that serve a partition stop (R419). -/
def Chip.disarmFor (c : Chip) (p : Nat) : Chip :=
  let hits (f : Nat) (t : Pert) : Bool := match Page.ofFrame f with
    | some pg => c.pageTag pg = some p || ((c.pageTag pg).isNone && t.ctrl.getLsbD 29 && bitField t.ctrl.toNat 27 24 = p)
    | none => false
  { c with headers := c.headers.map (fun e =>
      if hits e.1 e.2.pert then (e.1, { e.2 with pert := { e.2.pert with ctrl := e.2.pert.ctrl &&& ~~~ (1#32 <<< 31) } }) else e) }

/-- A ring of a torn-down partition closes (R189): its head commands are killed first, and its slots are freed as RING_RESET
frees them (R170; DEDUCED, log 61). -/
def Chip.closeRing (x : Ctx) (c : Chip) (i : Nat) : Chip :=
  let c := c.killAll x (fun k => k.isHead && k.ring = i && k.phase ≠ .waiting) 0x0B true
  let c := match tabFind c.bridge.rings i with
    | some (r : Ring) => c.wrZero x (bridgeAddr r.base) r.regionBytes
    | none => c
  ({ c with bridge.rings := tabDel c.bridge.rings i } : Chip).noteUse 60

/-- The segments of a partition, by engine and number. -/
def Chip.segsOf (c : Chip) (p : Nat) : List (Nat × Nat) :=
  (List.range 12).flatMap (fun s => ((List.range 64).filter (fun j => c.segOwned p s j)).map (fun j => (s, j)))

/-- A segment zeroed and its owner cleared. -/
def Chip.freeSeg (x : Ctx) (c : Chip) (e : Nat × Nat) : Chip :=
  let f := 0x080 + e.1
  let o := 0x130 + 4 * (e.2 / 8)
  let v := if e.2 < 32 then 0x150 else 0x154
  let c := c.wrZero x (engAddr e.1 (131072 * e.2)) 131072
  let c := c.setReg f o (c.reg f o 0 &&& (2 ^ 32 - 1 - 15 * 16 ^ (e.2 % 8)))
  (c.setReg f v (c.reg f v 0 &&& (2 ^ 32 - 1 - 2 ^ (e.2 % 32)))).noteUse (48 + e.1)

/-- The state that outlives a partition's commands goes with it (R317, step 2): loads and tables, kept accumulators (R93), residency, windows, rings,
gate, groups, rounds. -/
def Chip.dropState (x : Ctx) (c : Chip) (p : Nat) : Chip :=
  let c := ((c.bridge.rings.filter (fun e => e.2.tPart = p || e.2.sPart = p)).map Prod.fst).foldl (Chip.closeRing x) c
  let c := ((c.coll.groups.filter (fun e => e.2.part = p)).map Prod.fst).foldl Chip.unbind c
  { c with
    tables := c.tables.filter (fun e => e.1 / 256 % 256 ≠ p)
    keeps := c.keeps.filter (fun e => e.2.owner ≠ some p)
    tiers.resid := c.tiers.resid.map (fun e => (e.1, e.2.filter (fun r => r.part ≠ p)))
    tiers.windows := c.tiers.windows.map (fun e => if e.1 / 4 = p then (e.1, { e.2 with enable := false }) else e)
    gates := tabDel c.gates p
    serve.parts := tabDel c.serve.parts p }

/-- Zeroing at teardown (R317, steps 3 and 4). -/
def Chip.zeroPart (x : Ctx) (zeroMem : Bool) (c : Chip) (p : Nat) (pt : Part) : Chip :=
  let c := ((c.pairs.filter (fun e => e.2.resident = some p)).map Prod.fst).foldl (fun (c : Chip) q => c.clearDomain x q) c
  let runs := (pt.spillBase, pt.spillBytes) :: (if zeroMem then (pt.regions.filter (fun r => !r.2.readOnly)).map (fun r => (r.2.base, r.2.bytes)) else [])
  ((c.segsOf p).foldl (Chip.freeSeg x) (runs.foldl (fun c r => c.wrZero x r.1 r.2) c)).tierWrites runs

/-- The release of a partition's resources (R317, step 5), and the end of a debug session bound to it (R398). -/
def Chip.releasePart (c : Chip) (p : Nat) (pt : Part) : Chip :=
  let c := (c.disarmFor p).releasePairs p
  let c := if c.sec.dbgPart = some p && c.sec.dbgLevel = 2 then c.endSession 5
    else if c.sec.dbgPart = some p then { c with sec.partValid := false } else c
  ({ c with
    parts := tabDel c.parts p
    events := tabDelRange c.events pt.evtBase (pt.evtBase + pt.evtCount)
    vtime := c.vtime.filter (fun e => e.1 % 16 ≠ p)
    pairs := c.pairs.map (fun e => (e.1, { e.2 with last := if e.2.last = some p then none else e.2.last, reserved := if e.2.reserved = some p then none else e.2.reserved }))
    sqs := c.sqs.map (fun e => if e.1 / 256 = pt.fn then (e.1, { e.2 with prog := none, cheapCount := 0, lastCheap := true }) else e)
    power.partPj := tabDel c.power.partPj p } : Chip) |> (fun (d : Chip) => (Chip.retag c d).noteOvercommit)

/-- An OPT_UPDATE that only its gate keeps from its start (R210, R217). -/
def Chip.gateHolds (c : Chip) (x : Ctx) (p : Nat) (k : Cmd) : Bool :=
  k.tclass = 0 && k.opcode = 0x1E && c.opHeld x k && ((c.gate p).state = .collecting || (c.gate p).state = .reducing) && c.orderOk k && c.takeOk k

/-- The teardown of a partition (R317). The commands that wait at its gate end with KILLED_RESET (R210). -/
def Chip.teardown (x : Ctx) (zeroMem : Bool) (c : Chip) (p : Nat) : Chip :=
  match c.part? p with
  | none => c
  | some pt =>
    let c := c.killAll x (fun k => c.cmdPart k = some p) 0x0B true (fun k => if c.gateHolds x p k then 0x0B else 0x13)
    let c := Chip.dropState x c p
    (Chip.zeroPart x zeroMem c p pt).releasePart p pt

/-- PART_TEARDOWN of a running command. -/
def Chip.partTeardown (x : Ctx) (c : Chip) (k : Cmd) : Chip :=
  (Chip.teardown x (bitAt (k.fld 17 1) 0) c (k.fld 16 1)).endCmd k 0 0

/-- The reset of a partition (R331), its own command left aside; while STOPPING the deadline path runs at once (R329). -/
def Chip.partResetOf (x : Ctx) (record : Bool) (self : Option Nat) (c : Chip) (p : Nat) : Chip :=
  match c.part? p with
  | none => c
  | some pt =>
    let c := if pt.state = .stopping then Chip.deadlinePath x c p else c
    let c := c.killAll x (fun k => c.cmdPart k = some p && some k.id ≠ self) 0x0B record
    let c := c.modPart p (fun q => { q with fault := false, keepLost := [] })
    { c with
      keeps := c.keeps.filter (fun e => !(e.2.owner = some p && e.1 < 96))
      sqs := c.sqs.map (fun e => if e.1 / 256 = pt.fn then (e.1, { e.2 with cheapCount := 0 }) else e) }

/-- PART_RESET of a running command. -/
def Chip.partReset (x : Ctx) (c : Chip) (k : Cmd) : Chip := (Chip.partResetOf x true (some k.id) c (k.fld 16 1)).endCmd k 0 0

/-- PART_YIELD of a running command (R328): at once unless RESIDENT; else the stop begins and the command waits for it. -/
def Chip.partYield (c : Chip) (k : Cmd) : Chip :=
  match (c.cmdPart k).bind (fun p => (c.part? p).map (fun pt => (p, pt))) with
  | none => c.endCmd k 0 0
  | some (p, pt) =>
    if k.stage = 1 then c
    else if pt.state ≠ .resident then c.endCmd k 0 0
    else (c.putCmd { k with stage := 1 }).enterStop p

/-- PROG_BIND of a running command (R324). -/
def Chip.progBind (c : Chip) (k : Cmd) : Chip :=
  let s := k.fld 16 1
  let q := c.sq k.queue
  let c := c.putSq k.queue (if bitAt s 7 then { q with prog := none } else { q with prog := some (s % 64), cheapCount := 0, lastCheap := true })
  c.endCmd k 0 0

/-! ### The watchdog (R330) and the regulators (R319) -/

/-- COMMAND_WATCHDOG_EXPIRE: a running command past its WATCHDOG_US, the waits of R260 not counted, completes with TIMEOUT. The tiles of a
COLL_LAUNCH that ends so fail with it (R267). -/
def Chip.watchdog (x : Ctx) (c : Chip) (id : Nat) : Chip :=
  match c.cmd? id with
  | none => c
  | some k =>
    match (c.cmdPart k).bind c.part? with
    | none => c
    | some _ =>
      if k.phase ≠ .running || c.time ≤ k.startNs + k.untimed + 1000 * k.watchdogUs then c
      else
        let c := match (c.pagesOf k).head? with
          | some pg => c.log pg.frame { cls := 4, sev := 1, status := 0x0C, part := c.cmdPart k, opcode := k.opcode, target := k.target }
          | none => c
        if k.tclass = 6 && k.opcode = 0x71 then
          let q := (c.cmdPart k).getD 16
          (((c.gateAbandon q).fire collFrame 2).kill x id 0x0C true).trySendUp q
        else c.kill x id 0x0C true

/-- REGULATOR_REFILL (R319): RATE lines for each 64 ns since the last refill, up to the cap. -/
def Chip.refill (c : Chip) : Chip :=
  let n := (c.time - c.regAt) / 64
  { c with
    regAt := c.regAt + 64 * n
    parts := c.parts.map (fun e => (e.1, { e.2 with
      levels := List.zipWith (fun (l : Int) (r : Nat × Nat) => if r.1 = 0 then l else min (regCap r) (l + (r.1 * n : Nat))) e.2.levels e.2.regs })) }

/-! ### The rows of this chapter -/

/-- PART_FORM (R313). -/
def execPartForm (cmd : Nat) : State → Host.Outcome State Fault Refusal := onOp cmd 0x90 (fun _ => Chip.partForm)

/-- PART_SET (R313). -/
def execPartSet (cmd : Nat) : State → Host.Outcome State Fault Refusal := onOp cmd 0x92 (fun _ => Chip.partSet)

/-- PART_REGION (R315). -/
def execPartRegion (cmd : Nat) : State → Host.Outcome State Fault Refusal := onOp cmd 0x93 (fun _ => Chip.partRegion)

/-- PART_TEARDOWN (R317). -/
def execPartTeardown (cmd : Nat) : State → Host.Outcome State Fault Refusal := onOp cmd 0x91 Chip.partTeardown

/-- PART_RESET (R331). -/
def execPartReset (cmd : Nat) : State → Host.Outcome State Fault Refusal := onOp cmd 0x94 Chip.partReset

/-- PART_YIELD (R328). -/
def execPartYield (cmd : Nat) : State → Host.Outcome State Fault Refusal := onOp cmd 0x95 (fun _ => Chip.partYield)

/-- PROG_BIND (R324). -/
def execProgBind (cmd : Nat) : State → Host.Outcome State Fault Refusal := onOp cmd 0x96 (fun _ => Chip.progBind)

/-- GRANT_EVALUATE (R322). -/
def execGrantEvaluate : State → Host.Outcome State Fault Refusal := onChip (fun x c => Chip.evaluate x c)

/-- SPILL_BEGIN (R325). -/
def execSpillBegin (p : Nat) : State → Host.Outcome State Fault Refusal := onChip (fun x c => Chip.spillBegin x c p)

/-- SPILL_DONE (R325). -/
def execSpillDone (p : Nat) : State → Host.Outcome State Fault Refusal := onChip (fun x c => Chip.spillDone x c p)

/-- PREEMPT_DEADLINE_EXPIRE (R326). -/
def execPreemptDeadlineExpire (p : Nat) : State → Host.Outcome State Fault Refusal := onChip (fun x c => Chip.deadline x c p)

/-- RESTORE_DONE (R327). -/
def execRestoreDone (p : Nat) : State → Host.Outcome State Fault Refusal := onChip (fun x c => Chip.restoreDone x c p)

/-- COMMAND_WATCHDOG_EXPIRE (R330). -/
def execCommandWatchdogExpire (cmd : Nat) : State → Host.Outcome State Fault Refusal := onChip (fun x c => Chip.watchdog x c cmd)

/-- REGULATOR_REFILL (R319). -/
def execRegulatorRefill : State → Host.Outcome State Fault Refusal := onChip (fun _ c => c.refill)

end Sys2Proof.Machine
end

