-- ==== Sys2Proof/Machine/SelfTest.lean ====
section
/-! DEFINITION. Self-test and repair (R404-R407): the spare map's field entries, what a finding does to it, and the test that
SPARE.SELFTEST_CMD runs. -/

namespace Sys2Proof.Machine

/-- The SPARE page. -/
def spareFrame : Nat := 0x004

/-- The die of a physical unit: a cell's own, a stack engine's the die its stack is joined to (R13). -/
def physDie (ph : Nat) : Nat := if ph < 104 then ph / 52 else (ph - 104) / 3 % 2

/-- The field entries of a die. -/
def Repair.field (r : Repair) (die : Nat) : List FieldEntry := if die = 0 then r.west else r.east

/-- A field entry written, if the die has one left (16 each). -/
def Repair.addField (r : Repair) (die : Nat) (e : FieldEntry) : Repair :=
  if die = 0 then { r with west := r.west ++ [e] } else { r with east := r.east ++ [e] }

/-- Physical cells of a die that were ever assigned a logical number. -/
def Repair.assigned (r : Repair) (die : Nat) : List Nat :=
  (List.range 48).map (fun n => tabGet n r.factory (48 * die + n)) ++ (r.field die).filterMap (fun e => match e with
    | .retire _ ph => some ph
    | .bypass _ _ _ => none)

/-- The usable free spares of a die, ascending (R404, R406). -/
def Repair.freeSpares (r : Repair) (die : Nat) : List Nat :=
  (List.range 52).filter (fun i => !(r.assigned die).contains i && !r.unusable.contains (52 * die + i))

/-- The logical cell that a physical cell carries. -/
def Fuses.logicalOf (fz : Fuses) (ph : Nat) : Option Nat := (List.range 96).find? (fun n => fz.phys n = ph)

/-- Columns of an array bypassed already. -/
def Repair.bypassed (r : Repair) (ph : Nat) (b : Bool) : List Nat :=
  ((r.factoryBypass ++ r.west ++ r.east).filterMap (fun e => match e with
    | .bypass x arr col => if x = ph && arr = b then some col else none
    | .retire _ _ => none)).eraseDups

/-- A fault beyond bypass (R406): a retire entry, a spare marked unusable, or PAIR_FAIL or ENG_FAIL. Answers RESULT. -/
def Fuses.brokenUnit (fz : Fuses) (ph : Nat) : Fuses × Nat :=
  let r := fz.repair
  let die := physDie ph
  if 104 ≤ ph then ({ fz with repair := { r with engFail := (r.engFail ++ [ph - 104]).eraseDups } }, 3)
  else match fz.logicalOf ph with
    | none => ({ fz with repair := { r with unusable := (r.unusable ++ [ph]).eraseDups } }, 0)
    | some n =>
      match r.freeSpares die with
      | i :: _ =>
        if (r.field die).length < 16 then ({ fz with repair := r.addField die (.retire n i) }, 2)
        else ({ fz with repair := { r with pairFail := (r.pairFail ++ [n / 2]).eraseDups } }, 3)
      | [] => ({ fz with repair := { r with pairFail := (r.pairFail ++ [n / 2]).eraseDups } }, 3)

/-- One finding applied to the spare map, with its RESULT (R406). -/
def Fuses.applyFinding (fz : Fuses) (f : Finding) : Fuses × Nat :=
  match f with
  | .broken ph => if ph < 116 then fz.brokenUnit ph else (fz, 0)
  | .columns ph b cols =>
    let die := physDie ph
    let old := fz.repair.bypassed ph b
    let new := (cols.filter (fun k => k < 128 && !old.contains k)).eraseDups
    if 116 ≤ ph || new.isEmpty then (fz, 0)
    else if ph < 104 && (fz.logicalOf ph).isNone then fz.brokenUnit ph
    else if 4 < old.length + new.length || 16 < (fz.repair.field die).length + new.length then fz.brokenUnit ph
    else ({ fz with repair := new.foldl (fun r k => r.addField die (.bypass ph b k)) fz.repair }, 1)

/-- Findings applied in order; each with RESULT 1 to 3 is logged as class 7 in SPARE, a retired cell's residency
entries go (R141); answers the highest RESULT. -/
def Chip.findings (c : Chip) (fz : Fuses) (fs : List Finding) : Chip × Fuses × Nat :=
  fs.foldl (fun (a : Chip × Fuses × Nat) f =>
    let r := a.2.1.applyFinding f
    let c : Chip := match a.2.1.logicalOf f.phys with
      | some n => if 2 ≤ r.2 then { a.1 with tiers.resid := tabDel a.1.tiers.resid n } else a.1
      | none => a.1
    (if r.2 = 0 then c else c.log spareFrame { cls := 7, sev := 2 }, r.1, max a.2.2 r.2)) (c, fz, 0)

/-- The physical units of the pair or engine under test. -/
def SelfTest.units (t : SelfTest) (fz : Fuses) : List Nat :=
  if t.engine then [104 + t.index] else [fz.phys (2 * t.index), fz.phys (2 * t.index + 1)]

/-- A pair claimed by a partition, or by the context of a PART_FORM that runs. -/
def Chip.pairClaimed (c : Chip) (q : Nat) : Bool :=
  c.parts.any (fun e => bitAt e.2.pairs q) || c.cmds.any (fun k => k.opcode = 0x90 && k.phase ≠ .waiting && bitAt (leNat (k.ctx.take 6)) q)

/-- A write of SELFTEST_CMD that reaches the page with permission (R405): refused with RESULT 4 where a partition claims the
pair or the engine has a segment owner; a test under way goes on. -/
def Chip.selftestStart (c : Chip) (v : Nat) : Chip :=
  let engine := bitAt v 8
  let i := v % 64
  if c.selftest.busy then c
  else
    let t : SelfTest := { c.selftest with engine := engine, index := i }
    let claimed := if engine then 12 ≤ i || c.reg (0x080 + i) 0x150 0 ≠ 0 || c.reg (0x080 + i) 0x154 0 ≠ 0
      else 48 ≤ i || c.pairClaimed i
    if !bitAt v 31 then { c with selftest := t }
    else if claimed then { c with selftest := { t with result := 4 } }
    else { c with selftest := { t with busy := true, result := 0 } }

/-- SELFTEST_START: a write of SELFTEST_CMD (R33, R405). -/
def Chip.selftestWrite (x : Ctx) (c : Chip) (r : Requester) (v : Nat) : Chip :=
  let pg : Page := { blk := .spare, inst := 0 }
  if !c.writeReaches x.fuse r pg then c
  else if !c.mayWrite r pg 0x118 then c.deny pg
  else (c.rsvd pg v 0x7FFFFEC0).selftestStart v

/-- The pair or engine is switched off after its test, where nothing else wants it on (R364, R405). -/
def Chip.testOff (c : Chip) (x : Ctx) : Chip :=
  let d := c.selftest.domain
  let v := c.domain d
  if (v.on || v.switching) && !c.domainWanted d then c.domainOff x d else c

/-- SELFTEST_DONE (R406): findings of the units under test change the map, source 2 fires, and the domain goes off. The test runs once
the domain is on; of one that failed to switch on (R366) it finds nothing. -/
def Chip.selftestDone (x : Ctx) (c : Chip) (fs : List Finding) : Chip × Fuses :=
  let v := c.domain c.selftest.domain
  if !c.selftest.busy || !(v.on || v.failed) then (c, x.fuse)
  else
    let us := if v.on then c.selftest.units x.fuse else []
    let r := c.findings x.fuse (fs.filter (fun f => us.contains f.phys))
    ((({ r.1 with selftest := { r.1.selftest with busy := false, result := r.2.2 } } : Chip).fire spareFrame 2).testOff x, r.2.1)

/-- SELFTEST_START (R405). -/
def execSelftestStart (r : Requester) (v : Nat) : State → Host.Outcome State Fault Refusal := onChip (fun x c => Chip.selftestWrite x c r v)

/-- SELFTEST_DONE (R406). -/
def execSelftestDone (fs : List Finding) : State → Host.Outcome State Fault Refusal := onFuse (fun x c => Chip.selftestDone x c fs)

end Sys2Proof.Machine
end

