-- ==== Sys2Proof/Machine/Resets.lean ====
section
/-! DEFINITION. Resets, boot and power sequencing (R354-R358, R387, R388, R436-R439, R381, R382, R159, R160): what a device
reset, a port reset and a function-level reset do, the boot ROM's checks, power-up and power-down, the PLLs, PCIe links, the
fatal state, and the bring-up of the memory tiers. -/

namespace Sys2Proof.Machine

/-! ### The firmware image (R386, R387) -/

/-- The owner slot in use: the last one fused (R391). -/
def Fuses.ownerSlot (fz : Fuses) : Nat := (fz.ownerSlots.filter Option.isSome).length - 1

/-- The fused hash a KEY value names, if its slot is fused and not revoked (R387, R397): 0 vendor root, n owner slot
n − 1. -/
def Fuses.keyHash (fz : Fuses) (key : Nat) : Option Nat :=
  if key = 0 then some fz.vendorRoot
  else if fz.ownerRevoked.getD (key - 1) true then none else (fz.ownerSlots.getD (key - 1) none)

/-- KEY is accepted for an image in the lifecycle state (R387, check 2). -/
def Fuses.imageKeyOk (fz : Fuses) (key : Nat) : Bool :=
  if fz.lifecycle = 2 then key = fz.ownerSlot + 1 || (key = 0 && fz.vendorAccept) else key = 0

/-- BODY_BYTES of a header. -/
def imageBody (h : List Byte) : Nat := ctxFld h 8 4

/-- Check 1 of R387: MAGIC, HDR_VERSION, reserved bytes, BODY_BYTES; an image handed over with a length must hold its
body. -/
def imageFormOk (h : List Byte) (length : Option Nat) : Bool :=
  ctxFld h 0 4 = 0x57464850 && ctxFld h 4 2 = 1 && ctxFld h 12 4 = 0 && ((h.drop 48).take 80).all (fun b => b = 0) &&
    (h.drop 896).all (fun b => b = 0) && imageBody h % 4096 = 0 && 4096 ≤ imageBody h && imageBody h ≤ 67039232 &&
    (match length with
      | some n => 4096 + imageBody h ≤ n
      | none => true)

/-- The first check of R387 that an image fails, 0 if none; `rd` reads it. -/
def imageCheck (fz : Fuses) (rd : Nat → Nat → List Byte) (length : Option Nat) : Nat :=
  let h := rd 0 4096
  let key := ctxFld h 7 1
  if !imageFormOk h length then 1
  else if !fz.imageKeyOk key then 2
  else if fz.keyHash key ≠ some (hashNat ((h.drop 128).take 384)) then 3
  else if ctxFld h 6 1 < fz.svnMin then 4
  else if !rsaVerify ((h.drop 128).take 384) (h.take 128) ((h.drop 512).take 384) then 5
  else if hashNat (rd 4096 (imageBody h)) ≠ beNat ((h.drop 16).take 32) then 6 else 0

/-! ### Device reset (R357, R424) -/

/-- What a device reset makes of the chip: the reset values, but for time, the model's own fields, the pins and the readings
of the always-on part, the counters of FOXGLOVE (R403), the D3 entries since power-on (R394), a recovery request (R402) and
the end of a session (R398). -/
def Chip.fresh (c : Chip) : Chip :=
  let fox : Header := { Header.reset foxFrame with ctr := (c.hdr foxFrame).ctr, satMap := (c.hdr foxFrame).satMap }
  let ended := if c.sec.dbgLevel = 0 then 0 else 3
  Chip.newNonce
    { time := c.time, free := c.free, nextCmd := c.nextCmd, instant := c.instant, outbox := c.outbox, primary := c.primary, pins := c.pins
      headers := [(foxFrame, fox)]
      power := { inputFault := c.power.inputFault, coolant := c.power.coolant, inputV := c.power.inputV, inputI := c.power.inputI
                 inputP := c.power.inputP, p1s := c.power.p1s, p1ms := c.power.p1ms, overSince := c.power.overSince, samples := c.power.samples, sensors := c.power.sensors
                 memSsc := bitAt (c.reg clkgenFrame 0x104 1) 0
                 governorAt := c.power.governorAt, sensorAt := c.power.sensorAt, monitorAt := c.power.monitorAt, energyAt := c.power.energyAt
                 measureAt := c.power.measureAt, latched := c.power.latched, pllFed := c.power.pllFed }
      sec := { d3Entries := c.sec.d3Entries, force := c.sec.force, endCause := ended, jtagIr := c.sec.jtagIr, jtagRefused := c.sec.jtagRefused, boundary := c.sec.boundary }
      regAt := c.time, serve := { refillAt := c.time }
      staged := c.staged ++ [.zero 0 (6 * 2 ^ 48)] }

/-- THERMTRIP_N keeps the device in P4 while a sensor reads at or above its trip point minus 10 °C (R369). -/
def Chip.tripHolds (c : Chip) : Bool :=
  c.power.thermtrip && c.power.sensors.any (fun e => (e.1 < 52 && 1680 ≤ e.2) || (52 ≤ e.1 && e.1 < 64 && 1520 ≤ e.2))

/-- The erasures of a lifecycle transition whose intent is fused, then what it fuses (R390): RMA is 3, SCRAPPED 4; from VENDOR
to OWNED the first owner slot and VENDOR_ACCEPT, within OWNED the next slot, the current one revoked. -/
def Fuses.complete (fz : Fuses) (i : Intent) : Fuses :=
  let cur := fz.ownerSlot
  let fz := if (i.dest = 3 || i.dest = 2) && fz.lifecycle = 2 then { fz with ownerRevoked := listSet fz.ownerRevoked cur true } else fz
  let fz := if i.dest = 3 || i.dest = 4 then { fz with ident := {} } else fz
  let fz :=
    if i.dest ≠ 2 then fz
    else if fz.lifecycle = 2 then { fz with ownerSlots := listSet fz.ownerSlots (cur + 1) (some i.key) }
    else { fz with ownerSlots := listSet fz.ownerSlots 0 (some i.key), vendorAccept := i.accept }
  { fz with lifecycle := i.dest, intent := none, secret := if i.dest = 4 then 2 ^ 256 - 1 else fz.secret }

/-- The image in the flash is erased (R390, LC_SCRAP). -/
def Chip.eraseImage (c : Chip) : Chip := c.stage (.zero (6 * 2 ^ 48) 0x3FF0000)

/-- An interrupted lifecycle transition is completed, erasures included, before any check of R387 (R390). -/
def Chip.completeIntent (c : Chip) (fz : Fuses) : Chip × Fuses :=
  match fz.intent with
  | none => (c, fz)
  | some i => (if i.dest = 4 then c.eraseImage else c, fz.complete i)

/-- A device reset with the findings of its self-tests (R357, R405), a pending intent completed (R390); a tripped module stays
in P4. -/
def Chip.deviceReset (c : Chip) (fz : Fuses) (fs : List Finding) : Chip × Fuses :=
  if c.power.off || (c.power.pstate = 4 && c.tripHolds) then (c, fz)
  else
    let d := c.completeIntent fz
    let r := d.1.fresh.findings d.2 fs
    (r.1, r.2.1)

/-- DEVICE_RESET (R357, R436): RESET_N asserted, which holds the device in reset until it rises, or a reset request. -/
def Chip.resetRow (x : Ctx) (c : Chip) (pin : Bool) (fs : List Finding) : Chip × Fuses :=
  (if pin then { c with pins.resetN := false } else c).deviceReset x.fuse fs

/-- DEV_RESET written (R357): anything but the key from the primary physical function is ignored. -/
def Chip.devReset (x : Ctx) (c : Chip) (r : Requester) (v : Nat) (fs : List Finding) : Chip × Fuses :=
  if r = .pf c.primary && v = 0xDE7E0001 && c.reaches x.fuse r { blk := .pcie, inst := c.primary } then c.deviceReset x.fuse fs else (c, x.fuse)

/-- STATE_REQ written 0 (R367, R369): out of P3, or out of P4 through the device reset sequence. -/
def Chip.runReq (x : Ctx) (c : Chip) (r : Requester) (fs : List Finding) : Chip × Fuses :=
  let pg : Page := { blk := .campion, inst := 0 }
  if !c.campWrites x.fuse r then (c, x.fuse)
  else if !c.mayWrite r pg 0x10C then (c.deny pg, x.fuse)
  else if c.power.trans.isSome then ({ c with power.err := 5 }, x.fuse)
  else if c.power.pstate = 4 then c.deviceReset x.fuse fs
  else (({ c with power.err := 0 } : Chip).beginExit, x.fuse)

/-! ### Boot (R387, R388, R392) -/

/-- The pages whose block leaves reset at boot: all but those of domains 0 to 60, which come up under R365. -/
def bootPages : List Nat :=
  Block.all.flatMap (fun b => if b = .meadow || b = .cdma || b = .cowslip || b = .teasel then [] else (List.range b.instances).map (b.base + ·))

/-- A population of DIMMs: the DIMM_STATE of each installed channel, and whether it is used (R155, R156). -/
def dimmStates (ds : List Dimm) : List (Nat × Nat) × Bool :=
  let kind (d : Dimm) : Bool := d.kindOk && (((d.gb = 32 || d.gb = 64) && (d.ranks = 1 || d.ranks = 2)) || (d.gb = 128 && d.ranks = 2 && !d.x8))
  let chans := ds.map (fun d => d.channel)
  let populated := (List.range 12).all (fun i => chans.contains i) || ([0, 2, 4, 6, 8, 10].all (fun i => chans.contains i) && chans.all (fun i => i % 2 = 0))
  let same := match ds with
    | [] => true
    | d :: l => l.all (fun e => e.gb = d.gb && e.ranks = d.ranks && e.x8 == d.x8)
  if ds.isEmpty then ([], false)
  else if ds.any (fun d => !kind d) then (ds.map (fun d => (d.channel, if kind d then 6 else 2)), false)
  else if !populated || !same then (ds.map (fun d => (d.channel, 3)), false)
  else if ds.any (fun d => d.mts < 4800) then (ds.map (fun d => (d.channel, if d.mts < 4800 then 4 else 6)), false)
  else (ds.map (fun d => (d.channel, 1)), true)

/-- The transfer rate of a population (R156). -/
def dimmSpeed (ds : List Dimm) : Nat :=
  let m := ds.foldl (fun v d => min v (if d.gb = 128 then min d.mts 5600 else d.mts)) 6400
  if 6400 ≤ m then 6400 else if 5600 ≤ m then 5600 else 4800

/-- The DDR5 population as the SPD hubs describe it (R160): pages, capacity, used channels. -/
def Chip.populate (c : Chip) (ds : List Dimm) : Chip :=
  let ds := ds.filter (fun d => d.channel < 12)
  let st := dimmStates ds
  let c := ds.foldl (fun (c : Chip) d =>
    c.putTier (16 + d.channel) { c.tier (16 + d.channel) with
      dimmState := tabGet 0 st.1 d.channel, speed := if st.2 then dimmSpeed ds else 0
      cap := if d.gb = 32 then 1 else if d.gb = 64 then 2 else if d.gb = 128 then 3 else 0, ranks := d.ranks % 4, x8 := d.x8 }) c
  if st.2 then
    { c with
      tiers.ddrChannels := (List.range 12).filter (fun i => ds.any (fun d => d.channel = i))
      tiers.ddrBytes := (ds.map (fun d => d.gb)).foldl (· + ·) 0 * 2 ^ 30 }
  else c

/-- The management controller runs from the verified image (R387, R415). -/
def Chip.releaseController (c : Chip) : Chip := { c with sorrel := { running := true, lastKick := c.time } }

/-- Recovery mode entered (R388): only FOXGLOVE is shown. -/
def Chip.enterRecovery (c : Chip) (cause : Nat) : Chip :=
  let c := ({ c with sec.recovery := true, sec.verified := false, sec.cause := cause, sec.force := false } : Chip).setReady [foxFrame] true
  if cause = 0 then c else c.count foxFrame 1 1

/-- An image has passed (R387): it runs, and the identity key is unwrapped outside RMA (R392) unless wrap-key derivation is
blocked (R399) or the unwrap fails. -/
def Chip.bootImage (c : Chip) (fz : Fuses) (h : List Byte) (ds : List Dimm) (unwraps : Bool) : Chip :=
  let c := (((c.setReady bootPages true).count foxFrame 0 1).releaseController).populate ds
  { c with
    sec.recovery := false, sec.verified := true, sec.cause := 0, sec.svn := ctxFld h 6 1, sec.key := ctxFld h 7 1
    sec.bodyDigest := beNat ((h.drop 16).take 32), sec.unwrapped := if fz.lifecycle = 3 || c.sec.blocked || !unwraps then none else fz.ident.key }

/-- A reset is under way and its boot has not ended. -/
def Chip.booting (c : Chip) : Bool :=
  !c.power.off && c.pins.resetN && c.power.pstate = 0 && !c.sec.verified && !c.sec.recovery

/-- BOOT_VERIFY (R387): the flash image is checked; SCRAPPED goes to P4 without reading it. -/
def Chip.bootVerify (x : Ctx) (c : Chip) (ds : List Dimm) (unwraps : Bool) : Chip :=
  if !c.booting then c
  else if x.fuse.lifecycle = 4 then c.enterOff.setReady [foxFrame] true
  else if c.sec.force then c.enterRecovery 0
  else
    let rd (o n : Nat) : List Byte := c.rdBytes x (flashAddr o) n
    let n := imageCheck x.fuse rd none
    if n ≠ 0 then c.enterRecovery n else c.bootImage x.fuse (rd 0 4096) ds unwraps

/-! ### Function-level and port resets (R354-R356) -/

/-- A function's queues, records, messages and registers return to reset values (R355); bindings of programs stay with the
partition's queues. -/
def Chip.clearFn (c : Chip) (fn : Nat) : Chip :=
  { c with
    sqs := (c.sqs.filter (fun e => e.1 / 256 ≠ fn || e.2.prog.isSome)).map (fun e => if e.1 / 256 = fn then (e.1, { ({} : SQ) with prog := e.2.prog }) else e)
    cqs := tabDelRange c.cqs (256 * fn) (256 * fn + 256)
    fns := tabDel c.fns fn }

/-- The token-ring messages still due for a partition's function are discarded (R355). -/
def Chip.dropVectors (c : Chip) (p : Nat) : Chip :=
  match c.serveOf p with
  | none => c
  | some s => c.putServe p { s with vecs := [] }

/-- A function-level reset of one function (R355): no record of what it kills or discards. -/
def Chip.flrOne (x : Ctx) (c : Chip) (fn : Nat) : Chip :=
  let c := match c.partOfFn fn with
    | some p => (Chip.partResetOf x false none c p).dropVectors p
    | none => c
  (c.killAll x (fun k => k.fn = fn) 0x0B false).clearFn fn

/-- The functions of a port that exist. -/
def Chip.portFns (c : Chip) (port : Nat) : List Nat := (List.range 32).map (fun i => 32 * port + i) |>.filter c.fnExists

/-- FUNCTION_LEVEL_RESET (R355): of a physical function, every virtual function goes with it and VF Enable clears. -/
def Chip.flr (x : Ctx) (c : Chip) (fn : Nat) : Chip :=
  if 64 ≤ fn || !c.fnExists fn then c
  else if fn % 32 ≠ 0 then (Chip.flrOne x c fn).noteParts x
  else
    let c := (c.portFns (fn / 32)).reverse.foldl (Chip.flrOne x) c
    (c.putPort (fn / 32) { c.port (fn / 32) with vfEnable := false, numVfs := 0 }).noteParts x

/-- A port reset (R354, R395): every function reset, the link down and its SPDM state gone; bindings and a debug session
stay. PLL_STAT forgets the port's clock mode (R382), and while PERST_N stays high the port keeps its clock. -/
def Chip.portReset (x : Ctx) (c : Chip) (port : Nat) : Chip :=
  if 2 ≤ port then c
  else
    let was := (c.port port).linkUp
    let c := (Chip.flr x c (32 * port)).putPort port {}
    let c := { c with
      power.refclk := listSet c.power.refclk port false
      power.sris := listSet c.power.sris port false
      power.pllFed := listSet c.power.pllFed port (c.power.pllFed.getD port false && c.pins.perstN.getD port false)
      sec.spdm := tabDel c.sec.spdm port }
    (if was then c.fire (portFrame port) 2 else c).noteOvercommit

/-- PERST_N of a port at a level, and the clock mode that goes with it (R382, R436): none while it is low, REFCLK or SRIS from the
PCIe PLL from its release on. -/
def Chip.perst (c : Chip) (port : Nat) (high refclk : Bool) : Chip :=
  { c with
    pins.perstN := listSet c.pins.perstN port high
    power.refclk := listSet c.power.refclk port (high && refclk), power.sris := listSet c.power.sris port (high && !refclk)
    power.pllFed := listSet c.power.pllFed port (high && !refclk) }

/-- PCIE_PORT_RESET (R354): by PERST_N, which then holds the port down, or otherwise. -/
def Chip.portResetRow (x : Ctx) (c : Chip) (port : Nat) (perst : Bool) : Chip :=
  let c := if perst then c.perst port false false else c
  if c.power.off || c.power.pstate = 4 then c else Chip.portReset x c port

/-- PERST_N_RELEASE (R382, R436): REFCLK picks the clock mode. -/
def Chip.perstRelease (c : Chip) (port : Nat) (refclk : Bool) : Chip := if 2 ≤ port then c else c.perst port true refclk

/-- FLIT mode by rate (R336): on at 64 GT/s, as the partner supports it at 32 and 16 GT/s, off below. -/
def flitOk (rate : Nat) (flit : Bool) : Bool := if rate = 6 then flit else if rate < 4 then !flit else true

/-- PCIE_LINK_TRAINED (R337): rate 1 to 6, a width of lanes, FLIT mode; below 16 GT/s or ×4 the port is DEGRADED. `replays` is what
the link has replayed since it last trained (R359). -/
def Chip.linkTrained (c : Chip) (port rate width : Nat) (flit : Bool) (replays : Nat) : Chip :=
  let ready := c.sec.verified || (c.sec.recovery && port = c.primary)
  if 2 ≤ port || !(c.pins.perstN.getD port false) || c.power.off || c.power.pstate = 4 || !ready || rate = 0 || 6 < rate ||
      !([1, 2, 4, 8, 16].contains width) || !flitOk rate flit then c
  else
    let c := c.count (portFrame port) 5 replays
    let bad := rate < 4 || width < 4
    let c := c.putPort port { c.port port with rate := rate, width := width, flit := flit, degraded := bad, linkUp := true }
    (if bad then c.fire (portFrame port) 3 else c).noteOvercommit

/-- VF_ENABLE (R338, R355): virtual functions appear, or are reset and vanish; bindings are kept. -/
def Chip.vfEnable (x : Ctx) (c : Chip) (port : Nat) (on : Bool) (n : Nat) : Chip :=
  if 2 ≤ port || !c.fnWrites (32 * port) then c
  else if on then c.putPort port { c.port port with vfEnable := true, numVfs := min n 31 }
  else
    let c := ((c.portFns port).filter (fun f => f % 32 ≠ 0)).foldl (Chip.flrOne x) c
    (c.putPort port { c.port port with vfEnable := false, numVfs := 0 }).noteParts x

/-! ### The management watchdog (R415) -/

/-- WDT_CTRL (R415). -/
def Chip.wdtCtrl (c : Chip) : Nat := c.reg 0x001 0x100 0x800003E8

/-- The watchdog's period in ns. -/
def Chip.wdtPeriod (c : Chip) : Nat := 1000000 * max 10 (c.wdtCtrl % 65536)

/-- MGMT_WDT_EXPIRE (R415): logged and counted; the controller restarts, or halts on a second expiry within 60 s. -/
def Chip.wdtExpire (c : Chip) : Chip :=
  if !c.sorrel.running || c.sorrel.halted || !bitAt c.wdtCtrl 31 || c.power.off || c.time < c.sorrel.lastKick + c.wdtPeriod then c
  else
    let again := match c.sorrel.expiredAt with
      | some t => c.time ≤ t + 60000000000
      | none => false
    let c := ((c.count 0x001 0 1).log 0x001 { cls := 0x0D, sev := 2 }).fire 0x001 2
    { c with sorrel := { c.sorrel with expiredAt := some c.time, lastKick := c.time, halted := again, running := !again } }

/-- WDT_KICK (R415): any requester but the controller itself changes nothing and sets ACCESS_DENIED. -/
def Chip.wdtKick (x : Ctx) (c : Chip) (r : Requester) (v : Nat) : Chip :=
  let pg : Page := { blk := .sorrel, inst := 0 }
  if !c.writeReaches x.fuse r pg then c
  else if r ≠ .mgmt then c.deny pg
  else if v = 0x0000C1C1 then { c with sorrel.lastKick := c.time } else c

/-! ### Power sequencing (R360, R430, R437-R439) -/

/-- Everything loses power at once (R363, R430): what stands is in fuses and flash, and the levels of the pins with the clock modes that
go with them. An event of R430 latches the switch until PWR_EN has been low. -/
def Chip.powerLoss (c : Chip) (latched : Bool) : Chip :=
  if c.power.off then { c with power.latched := c.power.latched || (latched && c.pins.pwrEn) }
  else
    { time := c.time, free := c.free, nextCmd := c.nextCmd, instant := c.instant, outbox := c.outbox, pins := c.pins
      power := { off := true, latched := latched, refclk := c.power.refclk, sris := c.power.sris, pllFed := c.power.pllFed }
      staged := c.staged ++ [.zero 0 (6 * 2 ^ 48)] }

/-- Power comes up (R437): local time starts at 0, SMB_ADDR is sampled, a pending intent completes, and the device reset
starts. Without an input of 46 to 60 V, or with the switch latched or the last mate open, nothing happens (R430). -/
def Chip.powerOn (c : Chip) (fz : Fuses) (mv : Nat) (smb : Bool) (fs : List Finding) : Chip × Fuses :=
  if !c.power.off || !c.pins.pwrEn || !c.pins.lastMate || c.power.latched || mv < 46000 || 60000 < mv then (c, fz)
  else
    let d : Chip :=
      { free := c.free, nextCmd := c.nextCmd, instant := c.instant, outbox := c.outbox, pins := { c.pins with smbAddr := smb }
        primary := flagNat c.pins.priSel, power := { inputV := mv, pllFed := c.power.pllFed }, staged := c.staged }
    let d := d.completeIntent fz
    let d := d.1.deviceReset d.2 fs
    ({ d.1 with power.refclk := c.power.refclk, power.sris := c.power.sris }, d.2)

/-- POWER_UP (R437): PWR_EN rises; what latched the switch open is over once it has been low (R430). -/
def Chip.powerUp (x : Ctx) (c : Chip) (mv : Nat) (smb : Bool) (fs : List Finding) : Chip × Fuses :=
  ({ c with pins.pwrEn := true, power.latched := c.power.latched && c.pins.pwrEn } : Chip).powerOn x.fuse mv smb fs

/-- POWER_DOWN (R438): PWR_EN falls; the sequence runs through P4, and the latch of R430 clears. -/
def Chip.powerDown (c : Chip) : Chip :=
  let c := c.enterOff.powerLoss false
  { c with pins.pwrEn := false, power.latched := false }

/-- LAST_MATE_BREAK (R430). -/
def Chip.lastMateBreak (c : Chip) : Chip := ({ c with pins.lastMate := false } : Chip).powerLoss true

/-- LAST_MATE_CONTACT (R430): made for 100 ms; the switch closes if PWR_EN is high and the input is in range. -/
def Chip.lastMateContact (x : Ctx) (c : Chip) (mv : Nat) (smb : Bool) (fs : List Finding) : Chip × Fuses :=
  ({ c with pins.lastMate := true } : Chip).powerOn x.fuse mv smb fs

/-- RESET_N_RELEASE (R436, R340): PRI_SEL is sampled and names the primary port. -/
def Chip.resetRelease (c : Chip) (priSel : Bool) : Chip :=
  if c.pins.resetN then c else { c with pins.resetN := true, pins.priSel := priSel, primary := flagNat priSel }

/-! ### PLLs (R381) -/

/-- PLL_LOCK_LOSS (R381): 0 link, 1 memory, 2 PCIe. Counted, logged, source 2; ports that run from the PCIe PLL reset. -/
def Chip.pllLoss (x : Ctx) (c : Chip) (pll : Nat) : Chip :=
  if 3 ≤ pll || c.power.off || c.power.pstate = 4 then c
  else
    let c := ((c.count clkgenFrame pll 1).log clkgenFrame { cls := 0x0A, sev := 0, unit := pll }).fire clkgenFrame 2
    if pll = 0 then { c with power.linkLock := false, power.linkLost := true }
    else if pll = 1 then { c with power.memLock := false, power.memLost := true }
    else ([0, 1].filter (fun p => c.power.pllFed.getD p false)).foldl (Chip.portReset x) { c with power.pcieLock := false }

/-- PLL_RELOCK (R381). -/
def Chip.pllRelock (c : Chip) (pll : Nat) : Chip :=
  if c.power.off || c.power.pstate = 4 then c
  else if pll = 0 then { c with power.linkLock := true, power.linkLost := false }
  else if pll = 1 then { c with power.memLock := true, power.memLost := false }
  else if pll = 2 then { c with power.pcieLock := true } else c

/-! ### Bring-up of the tiers (R159, R160) -/

/-- HBM_INIT_DONE (R159): every stack trained and zeroed, or a failure of some that disables HBM until the next device
reset. -/
def Chip.hbmInit (c : Chip) (failed : List Nat) : Chip :=
  if !c.sec.verified || (c.tier 0).zeroDone || c.tiers.hbmFailed then c
  else
    let bad := failed.any (fun s => s < 12)
    let c := (List.range 12).foldl (fun (c : Chip) s =>
      c.putTier s { c.tier s with trained := !failed.contains s, zeroDone := !bad }) c
    { c with tiers.hbmFailed := bad }

/-- DDR_INIT_DONE (R160): every used channel trained and zeroed, or a failed training that leaves DDR5 unused (R156). -/
def Chip.ddrInit (c : Chip) (failed : List Nat) : Chip :=
  let chs := c.tiers.ddrChannels
  if !c.sec.verified || chs.isEmpty || chs.any (fun ch => (c.tier (16 + ch)).zeroDone) then c
  else if chs.any failed.contains then
    let c := chs.foldl (fun (c : Chip) ch =>
      c.putTier (16 + ch) { c.tier (16 + ch) with dimmState := if failed.contains ch then 5 else 6, speed := 0 }) c
    ({ c with tiers.ddrChannels := [], tiers.ddrBytes := 0 } : Chip).noteOvercommit
  else (chs.foldl (fun (c : Chip) ch => c.putTier (16 + ch) { c.tier (16 + ch) with trained := true, zeroDone := true }) c).noteOvercommit

/-! ### The rows of these chapters -/

/-- DEVICE_RESET (R357). -/
def execDeviceReset (pin : Bool) (fs : List Finding) : State → Host.Outcome State Fault Refusal := onFuse (fun x c => Chip.resetRow x c pin fs)

/-- DEV_RESET_WRITE (R357). -/
def execDevResetWrite (r : Requester) (v : Nat) (fs : List Finding) : State → Host.Outcome State Fault Refusal :=
  onFuse (fun x c => Chip.devReset x c r v fs)

/-- RUN_REQUEST (R367, R369). -/
def execRunRequest (r : Requester) (fs : List Finding) : State → Host.Outcome State Fault Refusal := onFuse (fun x c => Chip.runReq x c r fs)

/-- BOOT_VERIFY (R387). -/
def execBootVerify (ds : List Dimm) (unwraps : Bool) : State → Host.Outcome State Fault Refusal :=
  onChip (fun x c => Chip.bootVerify x c ds unwraps)

/-- FUNCTION_LEVEL_RESET (R355). -/
def execFunctionLevelReset (fn : Nat) : State → Host.Outcome State Fault Refusal := onChip (fun x c => Chip.flr x c fn)

/-- PCIE_PORT_RESET (R354). -/
def execPciePortReset (port : Nat) (perst : Bool) : State → Host.Outcome State Fault Refusal := onChip (fun x c => Chip.portResetRow x c port perst)

/-- PERST_N_RELEASE (R382). -/
def execPerstNRelease (port : Nat) (refclk : Bool) : State → Host.Outcome State Fault Refusal := onChip (fun _ c => c.perstRelease port refclk)

/-- PCIE_LINK_TRAINED (R337). -/
def execPcieLinkTrained (port rate width : Nat) (flit : Bool) (replays : Nat) : State → Host.Outcome State Fault Refusal :=
  onChip (fun _ c => c.linkTrained port rate width flit replays)

/-- VF_ENABLE (R338). -/
def execVfEnable (port : Nat) (on : Bool) (n : Nat) : State → Host.Outcome State Fault Refusal := onChip (fun x c => Chip.vfEnable x c port on n)

/-- HUB_FATAL (R358). -/
def execHubFatal (cause : Nat) : State → Host.Outcome State Fault Refusal := onChip (fun _ c => c.hubFatal cause)

/-- MGMT_WDT_EXPIRE (R415). -/
def execMgmtWdtExpire : State → Host.Outcome State Fault Refusal := onChip (fun _ c => c.wdtExpire)

/-- WDT_KICK (R415). -/
def execWdtKick (r : Requester) (v : Nat) : State → Host.Outcome State Fault Refusal := onChip (fun x c => Chip.wdtKick x c r v)

/-- POWER_UP (R437). -/
def execPowerUp (mv : Nat) (smb : Bool) (fs : List Finding) : State → Host.Outcome State Fault Refusal := onFuse (fun x c => Chip.powerUp x c mv smb fs)

/-- POWER_DOWN (R438). -/
def execPowerDown : State → Host.Outcome State Fault Refusal := onChip (fun _ c => c.powerDown)

/-- LAST_MATE_BREAK (R430). -/
def execLastMateBreak : State → Host.Outcome State Fault Refusal := onChip (fun _ c => c.lastMateBreak)

/-- LAST_MATE_CONTACT (R430). -/
def execLastMateContact (mv : Nat) (smb : Bool) (fs : List Finding) : State → Host.Outcome State Fault Refusal :=
  onFuse (fun x c => Chip.lastMateContact x c mv smb fs)

/-- OVERCURRENT_TRIP (R430). -/
def execOvercurrentTrip : State → Host.Outcome State Fault Refusal := onChip (fun _ c => c.powerLoss true)

/-- BULK_UNDERVOLTAGE (R430). -/
def execBulkUndervoltage : State → Host.Outcome State Fault Refusal := onChip (fun _ c => c.powerLoss true)

/-- INPUT_BELOW_40V (R360, R430). -/
def execInputBelow40v : State → Host.Outcome State Fault Refusal := onChip (fun _ c => c.powerLoss true)

/-- INPUT_ABOVE_62V (R360, R430). -/
def execInputAbove62v : State → Host.Outcome State Fault Refusal := onChip (fun _ c => c.powerLoss true)

/-- RESET_N_RELEASE (R436). -/
def execResetNRelease (priSel : Bool) : State → Host.Outcome State Fault Refusal := onChip (fun _ c => c.resetRelease priSel)

/-- PLL_LOCK_LOSS (R381). -/
def execPllLockLoss (pll : Nat) : State → Host.Outcome State Fault Refusal := onChip (fun x c => Chip.pllLoss x c pll)

/-- PLL_RELOCK (R381). -/
def execPllRelock (pll : Nat) : State → Host.Outcome State Fault Refusal := onChip (fun _ c => c.pllRelock pll)

/-- HBM_INIT_DONE (R159). -/
def execHbmInitDone (failed : List Nat) : State → Host.Outcome State Fault Refusal := onChip (fun _ c => c.hbmInit failed)

/-- DDR_INIT_DONE (R160). -/
def execDdrInitDone (failed : List Nat) : State → Host.Outcome State Fault Refusal := onChip (fun _ c => c.ddrInit failed)

end Sys2Proof.Machine
end

