-- ==== Sys2Proof/Machine/Security.lean ====
section
/-! DEFINITION. The operations of Foxglove's mailbox (R389-R402): identity, lifecycle, owner keys, debug sessions, firmware
images and recovery. Each row is a write of its OP to MBOX_OP by a requester, the operands standing in the mailbox. -/

namespace Sys2Proof.Machine

/-- The FOXGLOVE page. -/
def foxPage : Page := { blk := .foxglove, inst := 0 }

/-! ### The mailbox (R402, R403) -/

/-- A requester's access reaches the mailbox: it reaches the page, or is JTAG with the MBOX instruction loaded (R420, R426),
which P4 shuts out (R427). -/
def Chip.mboxReach (c : Chip) (fz : Fuses) (r : Requester) : Bool :=
  c.writeReaches fz r foxPage ||
    (r = .jtag && c.sec.jtagIr = 0x10 && !c.power.off && c.power.pstate ≠ 4 && fz.lifecycle ≠ 4 && c.fatal = 0)

/-- The requesters of R402. -/
def Chip.mboxMay (c : Chip) (r : Requester) : Bool := r = .mgmt || r = .pf c.primary || r = .jtag

/-- Byte `i` of MBOX_DATA. -/
def Chip.mboxByte (c : Chip) (i : Nat) : Byte := BitVec.ofNat 8 (c.reg foxFrame (0x400 + i / 4 * 4) 0 / 256 ^ (i % 4))

/-- Bytes of MBOX_DATA. -/
def Chip.mboxBytes (c : Chip) (off n : Nat) : List Byte := (List.range n).map (fun i => c.mboxByte (off + i))

/-- MBOX_DATA written by Foxglove, in whole words. -/
def Chip.putMbox (c : Chip) (bs : List Byte) : Chip :=
  (List.range (bs.length / 4)).foldl (fun (c : Chip) i => c.setReg foxFrame (0x400 + 4 * i) (leNat ((bs.drop (4 * i)).take 4))) c

/-- MBOX_LEN. -/
def Chip.mboxLen (c : Chip) : Nat := c.reg foxFrame 0x128 0

/-- MBOX_ADDR. -/
def Chip.mboxAddr (c : Chip) : Nat := c.reg foxFrame 0x12C 0 + c.reg foxFrame 0x130 0 * 2 ^ 32

/-- RECOV_LEN. -/
def Chip.recovLen (c : Chip) : Nat := c.reg foxFrame 0x134 0

/-- MBOX_LEN covers what the operation reads (R402); more than 2,048 bytes do not exist. -/
def Chip.mboxHolds (c : Chip) (n : Nat) : Bool := n ≤ c.mboxLen && c.mboxLen ≤ 2048

/-- An operation submitted (R402): refused with ACCESS_DENIED while BUSY or to other requesters; JTAG runs two operations
only, and an operation it may not submit ends with RESULT 2. -/
def Chip.submit (x : Ctx) (c : Chip) (r : Requester) (jtagToo : Bool) (f : Chip → Chip × Fuses) : Chip × Fuses :=
  if !c.mboxReach x.fuse r then (c, x.fuse)
  else if !c.mboxMay r || c.sec.op ≠ 0 then (c.deny foxPage, x.fuse)
  else if r = .jtag && !jtagToo then (c.mboxEnd 2, x.fuse)
  else f c

/-- The 128-bit nonce shown in DBG_NONCE0 to 3 (R397). -/
def Chip.nonce (c : Chip) : Nat := Config.freeNat c.sec.nonce % 2 ^ 128

/-! ### What lifecycle, level and power refuse (R400) -/

/-- An operation that the combination of lifecycle and level refuses (the third column of R400's table). -/
def refusedIn (lifecycle level op : Nat) : Bool :=
  let ids := op = 0x01 || op = 0x02
  let lc := op = 0x03 || (0x10 ≤ op && op ≤ 0x13)
  let d0 :=
    if lifecycle = 0 then op = 0x10 || op = 0x12 || op = 0x13
    else if lifecycle = 1 then ids || op = 0x11
    else if lifecycle = 2 then ids || op = 0x10
    else ids || op = 0x10 || op = 0x11
  d0 || (2 ≤ level && (lc || ids || op = 0x30 || op = 0x31)) || (level = 3 && op = 0x21)

/-- Power or input forbids a lifecycle transition (R390). -/
def Chip.lcPower (c : Chip) : Bool := c.power.pstate ≠ 0 || c.power.inputFault

/-- The checks every lifecycle operation begins with (R390, R400); `from_` are the states it starts in. Answers a RESULT,
0 for none. -/
def Chip.lcCheck (c : Chip) (fz : Fuses) (op : Nat) (from_ : List Nat) : Nat :=
  if refusedIn fz.lifecycle c.sec.dbgLevel op then 11
  else if !from_.contains fz.lifecycle then 1
  else if c.lcPower then 8 else 0

/-- A lifecycle operation that has passed its checks fuses its intent (R390); the mailbox is BUSY until the transition commits. -/
def Chip.lcBegin (c : Chip) (fz : Fuses) (op : Nat) (i : Intent) : Chip × Fuses :=
  ({ c with sec.op := op }, { fz with intent := some i })

/-- A lifecycle operation runs: its intent is fused, its new state not yet. -/
def Chip.lcRuns (c : Chip) (fz : Fuses) : Bool := fz.intent.isSome && (c.sec.op = 0x03 || (0x10 ≤ c.sec.op && c.sec.op ≤ 0x13))

/-- A lifecycle transition commits (R390, R398): erasures, then the new state; a D1 session ends, source 5 fires, the operation
succeeds. SCRAPPED is not reached outside P4 (R400), so P4 follows at once. -/
def Chip.lcCommit (c : Chip) (fz : Fuses) : Chip × Fuses :=
  if !c.lcRuns fz then (c, fz)
  else
    let dest := (fz.intent.map (fun i => i.dest)).getD 0
    let d := c.completeIntent fz
    let c := if dest = 3 || dest = 4 then { d.1 with sec.unwrapped := none } else d.1
    let c := ((c.endSession 6).fire foxFrame 5).mboxEnd 0
    (if dest = 4 then c.enterOff else c, d.2)

/-! ### Tokens (R397) -/

/-- The HOLDER code of a requester. -/
def holderCode : Requester → Nat
  | .mgmt => 2
  | .jtag => 3
  | _ => 1

/-- A token's fields are valid and its reserved bytes 0, for the type asked for. -/
def tokenFormOk (t : List Byte) (type : Nat) : Bool :=
  let f := ctxFld t
  let level := f 5 1
  let part := f 6 1
  f 0 4 = 0x4E4B5444 && f 4 1 = type && ((t.drop 9).take 7).all (fun b => b = 0) && ((t.drop 40).take 88).all (fun b => b = 0) &&
    1 ≤ f 8 1 && f 8 1 ≤ 3 && (f 7 1 ≤ 4 || f 7 1 = 0xFF) &&
    (type ≠ 1 || (1 ≤ level && level ≤ 3 && (part < 16 || (part = 0xFF && level = 1))))

/-- The first test of R397 that a token fails, as a RESULT, 0 if none; `keys` are the values of KEY that the state
requires, of which 0xFF needs no signature. -/
def Chip.tokenCheck (c : Chip) (fz : Fuses) (r : Requester) (t : List Byte) (type : Nat) (keys : List Nat) : Nat :=
  let f := ctxFld t
  let modulus := (t.drop 128).take 384
  if !tokenFormOk t type then 6
  else if f 8 1 ≠ holderCode r then 2
  else if f 16 8 ≠ fz.serial || f 24 16 ≠ c.nonce then 5
  else if !keys.contains (f 7 1) then 4
  else if f 7 1 = 0xFF then 0
  else if fz.keyHash (f 7 1) ≠ some (hashNat modulus) then 4
  else if !rsaVerify modulus (t.take 128) ((t.drop 512).take 384) then 3 else 0

/-! ### Identity (R392) -/

/-- ID_GENERATE: a key pair from the generator; its modulus is returned in MBOX_DATA. The identity area is never written in
recovery mode (R388), nor a key wrapped while wrap-key derivation is blocked (R399). -/
def Chip.idGenerate (x : Ctx) (c : Chip) (r : Requester) (ok : Bool) : Chip × Fuses :=
  Chip.submit x c r false (fun c =>
    if refusedIn x.fuse.lifecycle c.sec.dbgLevel 0x01 then (c.mboxEnd 11, x.fuse)
    else if c.sec.recovery || c.sec.blocked then (c.mboxEnd 1, x.fuse)
    else if !ok then (c.mboxEnd 9, x.fuse)
    else
      let k := c.free
      let c := (({ c with free := c.free + 1, sec.unwrapped := some k } : Chip).putMbox ((List.range 384).map (fun i => (Config.publicKey k).getD i 0))).mboxEnd 0
      (c, { x.fuse with ident := { x.fuse.ident with key := some k } }))

/-- The bytes of one DER SEQUENCE at the head of some bytes: its tag, its length field and its contents. -/
def derLen (b : List Byte) : Option Nat :=
  if ctxFld b 0 1 ≠ 0x30 then none
  else
    let l := ctxFld b 1 1
    if l < 128 then some (2 + l)
    else if l = 0x81 then some (3 + ctxFld b 2 1)
    else if l = 0x82 then some (4 + ctxFld b 2 1 * 256 + ctxFld b 3 1)
    else none

/-- The length of a chain: X.509 certificates, each a DER SEQUENCE, one after another. -/
def chainLen (rd : Nat → Nat → List Byte) : Nat → Nat → Nat
  | 0, off => off
  | fuel + 1, off => match derLen (rd off 4) with
    | none => off
    | some n => chainLen rd fuel (off + n)

/-- The consumer of what Foxglove reads in memory. -/
def foxConsumer : Consumer := { page := none, part := none, opcode := 0, target := 0 }

/-- ID_CHAIN: the chain at MBOX_ADDR, at most 48 KiB, goes to the identity area, but never in recovery mode (R388). It waits for its
tier (R159, R160, R381), and a bad line makes it malformed (R153). -/
def Chip.idChain (x : Ctx) (c : Chip) (r : Requester) (ok : Bool) : Chip × Fuses :=
  Chip.submit x c r false (fun c =>
    let rd (o n : Nat) : List Byte := c.rdBytes x (c.mboxAddr + o) n
    let n := chainLen rd 4096 0
    if refusedIn x.fuse.lifecycle c.sec.dbgLevel 0x02 then (c.mboxEnd 11, x.fuse)
    else if c.sec.recovery then (c.mboxEnd 1, x.fuse)
    else if c.power.pstate ≠ 0 then (c.mboxEnd 8, x.fuse)
    else if n = 0 || 49152 < n || (c.region c.mboxAddr n).isNone then (c.mboxEnd 6, x.fuse)
    else if !c.trafficLets none [(c.mboxAddr, n)] then (c, x.fuse)
    else
      let v := Chip.readRuns x foxConsumer [(c.mboxAddr, n)] c
      if v.2.isSome then (v.1.mboxEnd 6, x.fuse)
      else if !ok then (v.1.mboxEnd 9, x.fuse)
      else (v.1.mboxEnd 0, { x.fuse with ident := { x.fuse.ident with chain0 := rd 0 n } }))

/-! ### Lifecycle (R390, R391) -/

/-- LC_TO_VENDOR: ID_GENERATE and ID_CHAIN must be done. -/
def Chip.lcToVendor (x : Ctx) (c : Chip) (r : Requester) (ok : Bool) : Chip × Fuses :=
  Chip.submit x c r false (fun c =>
    let n := c.lcCheck x.fuse 0x03 [0]
    if n ≠ 0 then (c.mboxEnd n, x.fuse)
    else if x.fuse.ident.key.isNone || x.fuse.ident.chain0.isEmpty then (c.mboxEnd 1, x.fuse)
    else if !ok then (c.mboxEnd 9, x.fuse)
    else c.lcBegin x.fuse 0x03 { dest := 1 })

/-- The message an enrolment signs (R391): nonce, serial number and bytes 0 to 384 of MBOX_DATA. -/
def Chip.enrolMessage (c : Chip) (fz : Fuses) : List Byte := leBytes 16 c.nonce ++ leBytes 8 fz.serial ++ c.mboxBytes 0 385

/-- The operand checks of an enrolment (R391): length, reserved flags, free slots, the new key's signature. -/
def Chip.enrolCheck (c : Chip) (fz : Fuses) (need : Nat) : Nat :=
  if !c.mboxHolds need || 1 < (c.mboxByte 384).toNat then 6
  else if fz.ownerSlots.all Option.isSome then 10
  else if !rsaVerify (c.mboxBytes 0 384) (c.enrolMessage fz) (c.mboxBytes 512 384) then 3 else 0

/-- OWNER_ENROL: slot 0 and VENDOR_ACCEPT fused; OWNED. -/
def Chip.ownerEnrol (x : Ctx) (c : Chip) (r : Requester) (ok : Bool) : Chip × Fuses :=
  Chip.submit x c r false (fun c =>
    let n := c.lcCheck x.fuse 0x10 [1]
    let n := if n = 0 then c.enrolCheck x.fuse 896 else n
    if n ≠ 0 then (c.mboxEnd n, x.fuse)
    else if !ok then (c.mboxEnd 9, x.fuse)
    else c.lcBegin x.fuse 0x10 { dest := 2, key := hashNat (c.mboxBytes 0 384), accept := bitAt (c.mboxByte 384).toNat 0 })

/-- OWNER_ROTATE: the next slot fused, the current one revoked; VENDOR_ACCEPT stays as it is. -/
def Chip.ownerRotate (x : Ctx) (c : Chip) (r : Requester) (ok : Bool) : Chip × Fuses :=
  Chip.submit x c r false (fun c =>
    let n := c.lcCheck x.fuse 0x11 [2]
    let n := if n = 0 then c.enrolCheck x.fuse 1664 else n
    let cur := x.fuse.ownerSlot
    if n ≠ 0 then (c.mboxEnd n, x.fuse)
    else if x.fuse.keyHash (cur + 1) ≠ some (hashNat (c.mboxBytes 1280 384)) then (c.mboxEnd 4, x.fuse)
    else if !rsaVerify (c.mboxBytes 1280 384) (c.enrolMessage x.fuse) (c.mboxBytes 896 384) then (c.mboxEnd 3, x.fuse)
    else if !ok then (c.mboxEnd 9, x.fuse)
    else c.lcBegin x.fuse 0x11 { dest := 2, key := hashNat (c.mboxBytes 0 384) })

/-- The tokens of LC_TO_RMA (R390, R402): the vendor's, and in OWNED the owner's before it. -/
def Chip.rmaCheck (c : Chip) (fz : Fuses) (r : Requester) : Nat :=
  if fz.lifecycle = 2 then
    (if !c.mboxHolds 1792 then 6
      else
        let n := c.tokenCheck fz r (c.mboxBytes 0 896) 2 [fz.ownerSlot + 1]
        if n ≠ 0 then n else c.tokenCheck fz r (c.mboxBytes 896 896) 2 [0])
  else if !c.mboxHolds 896 then 6 else c.tokenCheck fz r (c.mboxBytes 0 896) 2 [0]

/-- LC_TO_RMA: the identity area erased, the owner slot revoked; a new nonce in every case (R397), also where JTAG may not
submit it. -/
def Chip.lcToRma (x : Ctx) (c : Chip) (r : Requester) (ok : Bool) : Chip × Fuses :=
  Chip.submit x c r true (fun c =>
    let n := c.lcCheck x.fuse 0x12 [1, 2]
    let n := if n = 0 then c.rmaCheck x.fuse r else n
    let c := c.newNonce
    if r = .jtag then (c.mboxEnd 2, x.fuse)
    else if n ≠ 0 then (c.mboxEnd n, x.fuse)
    else if !ok then (c.mboxEnd 9, x.fuse)
    else c.lcBegin x.fuse 0x12 { dest := 3 })

/-- LC_SCRAP: identity, image and device secret erased; a new nonce in every case (R397). -/
def Chip.lcScrap (x : Ctx) (c : Chip) (r : Requester) (ok : Bool) : Chip × Fuses :=
  Chip.submit x c r true (fun c =>
    let n := c.lcCheck x.fuse 0x13 [1, 2, 3]
    let keys := if x.fuse.lifecycle = 2 then [0, x.fuse.ownerSlot + 1] else [0]
    let n := if n ≠ 0 then n else if !c.mboxHolds 896 then 6 else c.tokenCheck x.fuse r (c.mboxBytes 0 896) 3 keys
    let c := c.newNonce
    if r = .jtag then (c.mboxEnd 2, x.fuse)
    else if n ≠ 0 then (c.mboxEnd n, x.fuse)
    else if !ok then (c.mboxEnd 9, x.fuse)
    else c.lcBegin x.fuse 0x13 { dest := 4 })

/-! ### Debug sessions (R396-R399) -/

/-- The values of KEY a debug token may have in a lifecycle state (R397, R400). -/
def Fuses.debugKeys (fz : Fuses) : List Nat := if fz.lifecycle = 0 then [0xFF] else if fz.lifecycle = 2 then [fz.ownerSlot + 1] else [0]

/-- What forbids a session of a level once its token is good, as a RESULT: P4 entered meanwhile (R401), then R398 and R400. -/
def Chip.unlockCheck (c : Chip) (r : Requester) (level : Nat) (part : Option Nat) : Nat :=
  if c.power.trans.any (fun t => t.target = 4) then 8
  else if c.sec.dbgLevel ≠ 0 && (c.sec.dbgHolder ≠ r.code || level ≤ c.sec.dbgLevel) then 1
  else if 2 ≤ level && c.power.pstate ≠ 0 then 11
  else if level = 3 && c.power.inputFault then 8
  else if level = 2 && (match part with
      | some p => (c.part? p).isNone
      | none => true) then 1
  else 0

/-- A session begins, replacing a lower one of its holder (R398): counted, source 2. -/
def Chip.beginSession (c : Chip) (r : Requester) (level : Nat) (part : Option Nat) : Chip :=
  let c := c.endSession 7
  let valid := match part with
    | some p => (c.part? p).isSome
    | none => false
  (({ c with sec.dbgLevel := level, sec.dbgHolder := r.code, sec.dbgPart := part, sec.partValid := valid, sec.ever := true } : Chip).count foxFrame 2 1).fire foxFrame 2

/-- What is zeroed before a D3 session (R399): every partition torn down with ZERO_MEM, HBM, DDR5, bridge SRAM, link
buffers, engine buffers, the event table and the Tansy store. -/
def Chip.zeroise (x : Ctx) (c : Chip) : Chip :=
  let c := (c.parts.map Prod.fst).foldl (Chip.teardown x true) c
  { c with
    events := [], tables := []
    links := { c.links with
      out := [], inbox := []
      ports := c.links.ports.map (fun (e : Nat × LinkPort) => (e.1, { e.2 with cut := [], rxQueue := [], txQueue := [], replay := [] })) }
    staged := c.staged ++ [.zero 0 (2 ^ 48), .zero (3 * 2 ^ 48) (3 * 2 ^ 48)] }

/-- DBG_UNLOCK (R397-R399): a D1 or D2 session begins at once; for D3 the identity leaves the RAM, the zeroisation runs and
the mailbox stays BUSY. -/
def Chip.dbgUnlock (x : Ctx) (c : Chip) (r : Requester) : Chip :=
  let t := c.mboxBytes 0 896
  let level := ctxFld t 5 1
  let part := if ctxFld t 6 1 < 16 then some (ctxFld t 6 1) else none
  let keys := x.fuse.debugKeys
  let vendor := x.fuse.lifecycle = 2 && ctxFld t 7 1 = 0
  let n := if !c.mboxHolds 896 then 6 else c.tokenCheck x.fuse r t 1 (if vendor then [0] else keys)
  let n := if n ≠ 0 then n else if vendor then 11 else c.unlockCheck r level part
  if n ≠ 0 then c.unlockRefused n
  else if level = 3 then
    Chip.zeroise x { c.endSession 7 with sec.op := 0x20, sec.unwrapped := none, sec.blocked := true, sec.zeroising := some r.code, sec.zeroAt := c.time }
  else ((c.beginSession r level part).newNonce).mboxEnd 0

/-- The requester with a code. -/
def requesterOf (n : Nat) : Requester :=
  if n = 64 then .mgmt else if n = 65 then .jtag else if n % 32 = 0 then .pf (n / 32) else .vf (n / 32) (n % 32)

/-- D3_ZEROISE_DONE (R399): the D3 session begins, and the zeroisation is counted. -/
def Chip.zeroiseDone (c : Chip) : Chip :=
  match c.sec.zeroising with
  | none => c
  | some n =>
    let p := (c.mboxByte 6).toNat
    let c := ({ c with sec.zeroising := none, sec.d3Entries := c.sec.d3Entries + 1 } : Chip).count foxFrame 6 1
    ((c.beginSession (requesterOf n) 3 (if p < 16 then some p else none)).newNonce).mboxEnd 0

/-- DBG_END (R398): by the holder, or by the primary physical function or the management controller; refused at D3. -/
def Chip.dbgEnd (c : Chip) (r : Requester) : Chip :=
  if c.sec.dbgLevel = 0 then c.mboxEnd 1
  else if c.sec.dbgLevel = 3 then c.mboxEnd 11
  else if c.sec.dbgHolder = r.code then (c.endSession 1).mboxEnd 0
  else if r = .jtag then c.mboxEnd 2
  else (c.endSession 2).mboxEnd 0

/-! ### Firmware (R388, R389) -/

/-- The RESULT of an update image that fails a check of R387. -/
def updateResult (check : Nat) : Nat :=
  if check = 2 || check = 3 then 4 else if check = 4 then 7 else if check = 5 then 3 else 6

/-- The writing of a checked image to the flash starts (R388, R389); until it ends the flash holds no valid image. -/
def Chip.flashBegin (c : Chip) (op : Nat) (image : List Byte) : Chip :=
  ({ c with sec.op := op, sec.percent := 0, sec.image := some image } : Chip).stage (.zero (6 * 2 ^ 48) 4096)

/-- FW_UPDATE (R389): the image is checked and its writing starts. -/
def Chip.fwUpdate (x : Ctx) (c : Chip) (r : Requester) : Chip × Fuses :=
  Chip.submit x c r false (fun c =>
    let a := c.mboxAddr
    let n := c.recovLen
    let rd (o k : Nat) : List Byte := c.rdBytes x (a + o) k
    if refusedIn x.fuse.lifecycle c.sec.dbgLevel 0x30 then (c.mboxEnd 11, x.fuse)
    else if !c.sec.verified then (c.mboxEnd 1, x.fuse)
    else if c.power.pstate ≠ 0 then (c.mboxEnd 8, x.fuse)
    else if n = 0 || c.region a n ≠ some .hbm || !c.unowned a n then (c.mboxEnd 6, x.fuse)
    else if !c.trafficLets none [(a, n)] then (c, x.fuse)
    else
      let v := Chip.readRuns x foxConsumer [(a, n)] c
      if v.2.isSome then (v.1.mboxEnd 6, x.fuse)
      else
        let e := imageCheck x.fuse rd (some n)
        if e ≠ 0 then (v.1.mboxEnd (updateResult e), x.fuse)
        else (v.1.flashBegin 0x30 (rd 0 (4096 + imageBody (rd 0 4096))), x.fuse))

/-- FW_FLASH_WRITE_DONE (R388, R389): the image stands in the flash, or its programming failed; after RECOVER it is booted. -/
def Chip.fwDone (x : Ctx) (c : Chip) (ok : Bool) (ds : List Dimm) (unwraps : Bool) : Chip :=
  match c.sec.image with
  | none => c
  | some im =>
    if c.sec.op ≠ 0x30 && c.sec.op ≠ 0x32 then c
    else if !ok then c.mboxEnd 9
    else
      let d : Chip := { (c.wr x (flashAddr 0) im).count foxFrame 7 1 with sec.percent := 100 }
      (if c.sec.op = 0x32 then d.bootImage x.fuse (im.take 4096) ds unwraps else d).mboxEnd 0

/-- SVN_COMMIT (R389): SVN_MIN rises to the SVN of the running image. -/
def Chip.svnCommit (x : Ctx) (c : Chip) (r : Requester) (ok : Bool) : Chip × Fuses :=
  Chip.submit x c r false (fun c =>
    if refusedIn x.fuse.lifecycle c.sec.dbgLevel 0x31 then (c.mboxEnd 11, x.fuse)
    else if !c.sec.verified then (c.mboxEnd 1, x.fuse)
    else if !ok then (c.mboxEnd 9, x.fuse)
    else (c.mboxEnd 0, { x.fuse with svnMin := max x.fuse.svnMin c.sec.svn }))

/-- RECOVER (R388): the image in bridge SRAM is checked and its writing starts; a failed check leaves recovery mode. -/
def Chip.recover (x : Ctx) (c : Chip) (r : Requester) : Chip × Fuses :=
  Chip.submit x c r false (fun c =>
    let rd (o n : Nat) : List Byte := c.rdBytes x (bridgeAddr o) n
    if !c.sec.recovery then (c.mboxEnd 1, x.fuse)
    else
      let e := imageCheck x.fuse rd (some c.recovLen)
      if e ≠ 0 then ((c.count foxFrame 1 1).mboxEnd (16 + e), x.fuse) else (c.flashBegin 0x32 (rd 0 (4096 + imageBody (rd 0 4096))), x.fuse))

/-- FORCE_RECOVERY (R402): recovery mode at the next device reset. -/
def Chip.forceRecovery (x : Ctx) (c : Chip) (r : Requester) : Chip × Fuses :=
  Chip.submit x c r false (fun c => (({ c with sec.force := true } : Chip).mboxEnd 0, x.fuse))

/-! ### The rows of this chapter -/

/-- ID_GENERATE (R392). -/
def execIdGenerate (r : Requester) (ok : Bool) : State → Host.Outcome State Fault Refusal := onFuse (fun x c => Chip.idGenerate x c r ok)

/-- ID_CHAIN (R392). -/
def execIdChain (r : Requester) (ok : Bool) : State → Host.Outcome State Fault Refusal := onFuse (fun x c => Chip.idChain x c r ok)

/-- LC_TO_VENDOR (R390). -/
def execLcToVendor (r : Requester) (ok : Bool) : State → Host.Outcome State Fault Refusal := onFuse (fun x c => Chip.lcToVendor x c r ok)

/-- OWNER_ENROL (R391). -/
def execOwnerEnrol (r : Requester) (ok : Bool) : State → Host.Outcome State Fault Refusal := onFuse (fun x c => Chip.ownerEnrol x c r ok)

/-- OWNER_ROTATE (R391). -/
def execOwnerRotate (r : Requester) (ok : Bool) : State → Host.Outcome State Fault Refusal := onFuse (fun x c => Chip.ownerRotate x c r ok)

/-- LC_TO_RMA (R390). -/
def execLcToRma (r : Requester) (ok : Bool) : State → Host.Outcome State Fault Refusal := onFuse (fun x c => Chip.lcToRma x c r ok)

/-- LC_SCRAP (R390). -/
def execLcScrap (r : Requester) (ok : Bool) : State → Host.Outcome State Fault Refusal := onFuse (fun x c => Chip.lcScrap x c r ok)

/-- DBG_UNLOCK (R398). -/
def execDbgUnlock (r : Requester) : State → Host.Outcome State Fault Refusal :=
  onChip (fun x c => (Chip.submit x c r true (fun c => (Chip.dbgUnlock x c r, x.fuse))).1)

/-- DBG_END (R398). -/
def execDbgEnd (r : Requester) : State → Host.Outcome State Fault Refusal :=
  onChip (fun x c => (Chip.submit x c r true (fun c => (c.dbgEnd r, x.fuse))).1)

/-- D3_ZEROISE_DONE (R399). -/
def execD3ZeroiseDone : State → Host.Outcome State Fault Refusal := onChip (fun _ c => c.zeroiseDone)

/-- FW_UPDATE (R389). -/
def execFwUpdate (r : Requester) : State → Host.Outcome State Fault Refusal := onFuse (fun x c => Chip.fwUpdate x c r)

/-- FW_FLASH_WRITE_DONE (R388, R389); `dimms` and `unwraps` are what the boot after a recovery finds. -/
def execFwFlashWriteDone (ok : Bool) (ds : List Dimm) (unwraps : Bool) : State → Host.Outcome State Fault Refusal :=
  onChip (fun x c => Chip.fwDone x c ok ds unwraps)

/-- SVN_COMMIT (R389). -/
def execSvnCommit (r : Requester) (ok : Bool) : State → Host.Outcome State Fault Refusal := onFuse (fun x c => Chip.svnCommit x c r ok)

/-- RECOVER (R388). -/
def execRecover (r : Requester) : State → Host.Outcome State Fault Refusal := onFuse (fun x c => Chip.recover x c r)

/-- FORCE_RECOVERY (R402). -/
def execForceRecovery (r : Requester) : State → Host.Outcome State Fault Refusal := onFuse (fun x c => Chip.forceRecovery x c r)

end Sys2Proof.Machine
end

