-- ==== Sys2Proof/Machine/Attest.lean ====
section
/-! DEFINITION. Attestation and the management transports (R353, R393-R395, R420, R434): the SPDM responder, DOE Discovery,
MCTP control, JTAG instructions and the SMBus alert response. Message layouts are those of the standards the spec names
(DSP0274 1.2, DSP0236, PCIe DOE); PRESUMED, notes/assumptions. -/

namespace Sys2Proof.Machine

/-! ### The responder (R393, R395) -/

/-- SPDM error codes of DSP0274. -/
def spdmInvalid : Nat := 0x01

/-- UnexpectedRequest. -/
def spdmUnexpected : Nat := 0x04

/-- Unspecified. -/
def spdmUnspecified : Nat := 0x05

/-- UnsupportedRequest. -/
def spdmUnsupported : Nat := 0x07

/-- VersionMismatch. -/
def spdmMismatch : Nat := 0x41

/-- A transport's SPDM state. -/
def Chip.spdmOf (c : Chip) (t : Nat) : Spdm := tabGet {} c.sec.spdm t

/-- A transport's SPDM state replaced. -/
def Chip.putSpdm (c : Chip) (t : Nat) (s : Spdm) : Chip := { c with sec.spdm := tabSet c.sec.spdm t s }

/-- A request reaches the responder (R353, R388, R415, R427): over DOE where the port's physical function can be reached, over
MCTP while the controller answers or in recovery mode; never in SCRAPPED (R400). -/
def Chip.spdmReach (c : Chip) (fz : Fuses) (t : Nat) : Bool :=
  !c.power.off && fz.lifecycle ≠ 4 && (if t < 2 then c.fnReach (32 * t) else t = 2 && (c.mgmtUp || c.sec.recovery))

/-- A DOE data object of more than 65,536 bytes, its 8-byte header among them, is discarded and sets the mailbox's error bit
(R353). -/
def Chip.doeTooLong (c : Chip) (port : Nat) : Chip := c.putPort port { c.port port with doeError := true }

/-- An SPDM request of a given code; a message of another code is another row's. Counted in CTR4; recovery mode answers
GET_VERSION alone (R388). -/
def Chip.spdmRow (x : Ctx) (c : Chip) (t code : Nat) (msg : List Byte) (f : Chip → Chip × Fuses) : Chip × Fuses :=
  if ctxFld msg 1 1 ≠ code || !c.spdmReach x.fuse t then (c, x.fuse)
  else if t < 2 && 65528 < msg.length then (c.doeTooLong t, x.fuse)
  else
    let c := c.count foxFrame 4 1
    if c.sec.recovery && code ≠ 0x84 then (c, x.fuse) else f c

/-- An error response. -/
def Chip.spdmFail (c : Chip) (t code data : Nat) : Chip := c.send (.spdmError t code data)

/-- A response sent. -/
def Chip.spdmSend (c : Chip) (t : Nat) (m : List Byte) : Chip := c.send (.spdm t m)

/-- A request that needs version 1.2 and completed negotiation (R393): an error otherwise. -/
def Chip.spdmReady (c : Chip) (t : Nat) (msg : List Byte) (f : Chip → Chip × Fuses) (fz : Fuses) : Chip × Fuses :=
  if ctxFld msg 0 1 ≠ 0x12 then (c.spdmFail t spdmMismatch 0, fz)
  else if !(c.spdmOf t).algos then (c.spdmFail t spdmUnexpected 0, fz) else f c

/-- GET_VERSION (R393): lists 1.2 only, and begins the transport's negotiation and transcript afresh (R395). -/
def Chip.getVersion (c : Chip) (t : Nat) (msg : List Byte) : Chip :=
  let rsp := [0x10#8, 0x04#8, 0#8, 0#8, 0#8, 1#8, 0x00#8, 0x12#8]
  if ctxFld msg 0 1 ≠ 0x10 then c.spdmFail t spdmMismatch 0
  else (c.putSpdm t { version := true, a := msg ++ rsp }).spdmSend t rsp

/-- GET_CAPABILITIES (R393): CERT_CAP, CHAL_CAP, MEAS_CAP with signatures, SET_CERT_CAP; CTExponent 18. -/
def Chip.getCapabilities (c : Chip) (t : Nat) (msg : List Byte) : Chip :=
  let s := c.spdmOf t
  let n := leBytes 4 (Config.spdmSize t)
  let rsp := [0x12#8, 0x61#8, 0#8, 0#8, 0#8, 18#8, 0#8, 0#8] ++ leBytes 4 0x80016 ++ n ++ n
  if ctxFld msg 0 1 ≠ 0x12 then c.spdmFail t spdmMismatch 0
  else if !s.version then c.spdmFail t spdmUnexpected 0
  else if msg.length < 20 then c.spdmFail t spdmInvalid 0
  else (c.putSpdm t { s with caps := true, a := s.a ++ msg ++ rsp }).spdmSend t rsp

/-- NEGOTIATE_ALGORITHMS (R393): RSAPSS_3072 and SHA-256, DMTF measurements. -/
def Chip.negotiate (c : Chip) (t : Nat) (msg : List Byte) : Chip :=
  let s := c.spdmOf t
  let spec := ctxFld msg 6 1 % 2
  let rsp := [0x12#8, 0x63#8, 0#8, 0#8] ++ leBytes 2 36 ++ [BitVec.ofNat 8 spec, 0#8] ++ leBytes 4 2 ++ leBytes 4 8 ++ leBytes 4 1 ++ List.replicate 16 0#8
  if ctxFld msg 0 1 ≠ 0x12 then c.spdmFail t spdmMismatch 0
  else if !s.caps then c.spdmFail t spdmUnexpected 0
  else if msg.length < 32 || !bitAt (ctxFld msg 8 4) 3 || !bitAt (ctxFld msg 12 4) 0 then c.spdmFail t spdmInvalid 0
  else (c.putSpdm t { s with algos := true, a := s.a ++ msg ++ rsp }).spdmSend t rsp

/-! ### Certificates (R392, R393) -/

/-- A slot's chain: the vendor's in slot 0, the owner's in slot 1. -/
def Identity.chain (i : Identity) (slot : Nat) : List Byte := if slot = 0 then i.chain0 else if slot = 1 then i.chain1 else []

/-- A chain in the SPDM form: length, the digest of its root certificate, the certificates. -/
def chainForm (ch : List Byte) : List Byte :=
  if ch.isEmpty then []
  else leBytes 2 (36 + ch.length) ++ [0#8, 0#8] ++ sha256 (ch.take ((derLen ch).getD 0)) ++ ch

/-- The mask of slots that hold a chain. -/
def Identity.mask (i : Identity) : Nat := flagNat (!i.chain0.isEmpty) + 2 * flagNat (!i.chain1.isEmpty)

/-- GET_DIGESTS (R393). -/
def Chip.getDigests (x : Ctx) (c : Chip) (t : Nat) (msg : List Byte) : Chip :=
  let s := c.spdmOf t
  let i := x.fuse.ident
  let ds := ([0, 1].filter (fun k => !(i.chain k).isEmpty)).flatMap (fun k => sha256 (chainForm (i.chain k)))
  let rsp := [0x12#8, 0x01#8, 0#8, BitVec.ofNat 8 i.mask] ++ ds
  (c.putSpdm t { s with b := s.b ++ msg ++ rsp }).spdmSend t rsp

/-- GET_CERTIFICATE (R393): a portion of a slot's chain. -/
def Chip.getCertificate (x : Ctx) (c : Chip) (t : Nat) (msg : List Byte) : Chip :=
  let s := c.spdmOf t
  let slot := ctxFld msg 2 1 % 16
  let off := ctxFld msg 4 2
  let ch := chainForm (x.fuse.ident.chain slot)
  let n := min (ctxFld msg 6 2) (ch.length - off)
  let rsp := [0x12#8, 0x02#8, BitVec.ofNat 8 slot, 0#8] ++ leBytes 2 n ++ leBytes 2 (ch.length - off - n) ++ (ch.drop off).take n
  if msg.length < 8 || ch.length ≤ off then c.spdmFail t spdmInvalid 0
  else (c.putSpdm t { s with b := s.b ++ msg ++ rsp }).spdmSend t rsp

/-- The certificates of a chain, from its first. -/
def lastCert : Nat → List Byte → List Byte
  | 0, b => b
  | fuel + 1, b => match derLen b with
    | none => b
    | some n => if (b.drop n).isEmpty then b else lastCert fuel (b.drop n)

/-- A run of bytes stands somewhere in another. -/
def holdsBytes (b k : List Byte) : Bool := (List.range (b.length + 1)).any (fun i => (b.drop i).take k.length == k)

/-- SET_CERTIFICATE (R393): slot 1, in OWNED, over the primary port's DOE mailbox or MCTP; the chain ends in a certificate for
the device key. -/
def Chip.setCertificate (x : Ctx) (c : Chip) (t : Nat) (msg : List Byte) : Chip × Fuses :=
  let ch := msg.drop 40
  let key := (x.fuse.ident.key.map Config.publicKey).getD []
  if x.fuse.lifecycle ≠ 2 || !(t = c.primary || t = 2) then (c.spdmFail t spdmUnexpected 0, x.fuse)
  else if ctxFld msg 2 1 % 16 ≠ 1 || ch.isEmpty || ctxFld msg 4 2 ≠ 36 + ch.length || key.isEmpty || !holdsBytes (lastCert 64 ch) key then
    (c.spdmFail t spdmInvalid 0, x.fuse)
  else (c.spdmSend t [0x12#8, 0x6E#8, 1#8, 0#8], { x.fuse with ident := { x.fuse.ident with chain1 := ch } })

/-! ### Signed responses (R395) -/

/-- A signature of 384 bytes by the identity key. -/
def signWith (k : Nat) (m : List Byte) : List Byte := (List.range 384).map (fun i => (Config.signature k m).getD i 0)

/-- A 32-byte random number. -/
def Chip.random32 (c : Chip) : List Byte := leBytes 32 (Config.freeNat c.free)

/-! ### Measurements (R394) -/

/-- The active image of an instance of a table, header and entries (R50). -/
def imageBytes (id inst : Nat) (im : Image) : List Byte :=
  let n := match objInfo id with
    | some o => o.bytes
    | none => 0
  [BitVec.ofNat 8 id, 1#8, BitVec.ofNat 8 inst, 0#8] ++ leBytes 4 im.gen ++ leBytes 4 im.count ++ leBytes 2 n ++ [0#8, 0#8] ++
    leBytes 4 (crc32c im.body) ++ im.req.flatMap (leBytes 4) ++ im.body

/-- What block 6 hashes: the active images of tables 5 to 8, in ID and instance order. -/
def Chip.tableBytes (c : Chip) : List Byte :=
  [5, 6, 7, 8].flatMap (fun id => (List.range (if id = 5 then 61 else 1)).flatMap (fun i =>
    match c.active (tableKey id 16 i) with
    | some im => imageBytes id i im
    | none => []))

/-- The HOLDER code shown (R397, R403): 0 without a session. -/
def Chip.holderShown (c : Chip) : Nat := if c.sec.dbgLevel = 0 then 0 else holderCode (requesterOf c.sec.dbgHolder)

/-- DMTF value type and value of a measurement block. -/
def Chip.measurement (c : Chip) (fz : Fuses) (i : Nat) : Nat × List Byte :=
  if i = 1 then (0x00, Config.romDigest)
  else if i = 2 then (0x81, beBytes 32 c.sec.bodyDigest)
  else if i = 3 then (0x83, [c.sec.svn, c.sec.key, fz.svnMin, 0].map (BitVec.ofNat 8))
  else if i = 4 then
    (0x82, [fz.lifecycle, fz.ownerSlot, flagNat fz.vendorAccept, (List.range 4).foldl (fun v k => v + 2 ^ k * flagNat (fz.ownerRevoked.getD k false)) 0, 0, 0, 0, 0].map (BitVec.ofNat 8) ++
      leBytes 8 fz.serial)
  else if i = 5 then (0x85, [c.sec.dbgLevel, c.holderShown, flagNat c.sec.ever, min 255 c.sec.d3Entries].map (BitVec.ofNat 8))
  else (0x83, sha256 c.tableBytes)

/-- A measurement block in the DMTF format. -/
def Chip.measureBlock (c : Chip) (fz : Fuses) (i : Nat) : List Byte :=
  let m := c.measurement fz i
  [BitVec.ofNat 8 i, 1#8] ++ leBytes 2 (3 + m.2.length) ++ [BitVec.ofNat 8 m.1] ++ leBytes 2 m.2.length ++ m.2

/-- CHALLENGE (R395): CHALLENGE_AUTH, signed, or an error without the identity key. -/
def Chip.challenge (x : Ctx) (c : Chip) (t : Nat) (msg : List Byte) : Chip :=
  let s := c.spdmOf t
  let slot := ctxFld msg 2 1 % 16
  let kind := ctxFld msg 3 1
  let ch := chainForm (x.fuse.ident.chain slot)
  let summary := if kind = 0 then [] else if kind = 0xFF then sha256 ([1, 2, 3, 4, 5, 6].flatMap (c.measureBlock x.fuse)) else leBytes 32 (Config.freeNat (c.free + 1))
  match c.sec.unwrapped with
  | none => c.spdmFail t spdmUnspecified 0
  | some k =>
    if msg.length < 36 || ch.isEmpty || !(kind = 0 || kind = 1 || kind = 0xFF) then c.spdmFail t spdmInvalid 0
    else
      let rsp := [0x12#8, 0x03#8, BitVec.ofNat 8 slot, BitVec.ofNat 8 x.fuse.ident.mask] ++ sha256 ch ++ c.random32 ++ summary ++ [0#8, 0#8]
      let rsp := rsp ++ signWith k (s.a ++ s.b ++ msg ++ rsp)
      (((c.draw 2).putSpdm t { s with b := [] }).count foxFrame 5 1).spdmSend t rsp

/-- GET_MEASUREMENTS (R394, R395): the number of blocks, one block or all, signed if asked. -/
def Chip.getMeasurements (x : Ctx) (c : Chip) (t : Nat) (msg : List Byte) : Chip :=
  let s := c.spdmOf t
  let signed := bitAt (ctxFld msg 2 1) 0
  let op := ctxFld msg 3 1
  let slot := ctxFld msg 36 1 % 16
  let blocks := if op = 0 then [] else if op = 0xFF then [1, 2, 3, 4, 5, 6] else [op]
  let record := blocks.flatMap (c.measureBlock x.fuse)
  let rsp := [0x12#8, 0x60#8, if op = 0 then 6#8 else 0#8, if signed then BitVec.ofNat 8 slot else 0#8, BitVec.ofNat 8 blocks.length] ++
    leBytes 3 record.length ++ record ++ c.random32 ++ [0#8, 0#8]
  if !signed then
    (if !(op ≤ 6 || op = 0xFF) then c.spdmFail t spdmInvalid 0
      else ((c.draw 1).putSpdm t { s with l := s.l ++ msg ++ rsp }).spdmSend t rsp)
  else match c.sec.unwrapped with
    | none => c.spdmFail t spdmUnspecified 0
    | some k =>
      if !(op ≤ 6 || op = 0xFF) || msg.length < 37 || (chainForm (x.fuse.ident.chain slot)).isEmpty then c.spdmFail t spdmInvalid 0
      else (((c.draw 1).putSpdm t { s with l := [] }).count foxFrame 5 1).spdmSend t (rsp ++ signWith k (s.a ++ s.l ++ msg ++ rsp))

/-- The request codes the responder answers (R393). -/
def spdmCodes : List Nat := [0x84, 0xE1, 0xE3, 0x81, 0x82, 0x83, 0xE0, 0xEE]

/-- SPDM_UNSUPPORTED_REQUEST (R393): any other code receives ERROR UnsupportedRequest. -/
def Chip.spdmOther (x : Ctx) (c : Chip) (t : Nat) (msg : List Byte) : Chip :=
  let code := ctxFld msg 1 1
  if spdmCodes.contains code then c
  else (Chip.spdmRow x c t code msg (fun c => (c.spdmFail t spdmUnsupported code, x.fuse))).1

/-! ### DOE, MCTP, JTAG, SMBus (R353, R420, R434) -/

/-- DOE_DISCOVERY (R353): objects 0, discovery, and 1, CMA/SPDM; an object above 65,536 bytes is discarded. -/
def Chip.doeDiscovery (c : Chip) (port index len : Nat) : Chip :=
  if 2 ≤ port || !c.fnReach (32 * port) then c
  else if 65536 < len then c.doeTooLong port
  else if c.sec.recovery then c
  else if index < 2 then c.send (.doe port [1#8, 0#8, BitVec.ofNat 8 index, BitVec.ofNat 8 (1 - index)])
  else c.send (.doe port [0xFF#8, 0xFF#8, 0#8, 0#8])

/-- MCTP_CONTROL (R353), not in SCRAPPED (R400): the bus owner sets and reads the EID, and asks for versions and message types. -/
def Chip.mctpControl (c : Chip) (fz : Fuses) (msg : List Byte) : Chip :=
  let cmd := ctxFld msg 2 1
  let rsp (cc : Nat) (d : List Byte) : Out := .mctp ([0#8, BitVec.ofNat 8 (ctxFld msg 1 1 % 32), BitVec.ofNat 8 cmd, BitVec.ofNat 8 cc] ++ d)
  if c.power.off || !c.mgmtUp || fz.lifecycle = 4 || ctxFld msg 0 1 % 128 ≠ 0 || !bitAt (ctxFld msg 1 1) 7 then c
  else if cmd = 0x01 then
    let op := ctxFld msg 3 1 % 4
    let e := ctxFld msg 4 1
    if 2 ≤ op || e = 0 || e = 0xFF then c.send (rsp 2 [])
    else ({ c with sec.eid := e } : Chip).send (rsp 0 [0#8, BitVec.ofNat 8 e, 0#8])
  else if cmd = 0x02 then c.send (rsp 0 [BitVec.ofNat 8 c.sec.eid, 0#8, 0#8])
  else if cmd = 0x04 then (c.draw 1).send (rsp 0 (1#8 :: leBytes 4 (Config.freeNat c.free)))
  else if cmd = 0x05 then c.send (rsp 0 [1#8, 5#8])
  else c.send (rsp 5 [])

/-- The level a JTAG instruction needs (R420); none for a code not listed. -/
def jtagLevel (code : Nat) : Option Nat :=
  if code = 0x01 || code = 0x02 || code = 0x10 || code = 0xFF then some 0
  else if (3 ≤ code && code ≤ 7) || (0x20 ≤ code && code ≤ 0x2F) then some 3 else none

/-- The capture value of the instruction register (R420). -/
def Chip.jtagCapture (c : Chip) : Nat := 1 + 4 * flagNat c.sec.jtagRefused + 8 * flagNat (c.sec.dbgLevel = 3)

/-- IDCODE (R420): version 1, part 0x9216, manufacturer 0x25A, and bit 0 always 1. -/
def idCode : Nat := 2 ^ 28 + 0x9216 * 2 ^ 12 + 0x25A * 2 + 1

/-- JTAG_INSTRUCTION (R420): the capture value is shifted out, and the instruction, or BYPASS, is loaded; after IDCODE the device's
code is shifted out, after SAMPLE/PRELOAD and the EXTEST instructions the levels of the pins, while `cells` come into the boundary register. -/
def Chip.jtagLoad (c : Chip) (code : Nat) (cells : List Bool) : Chip :=
  let ok := match jtagLevel code with
    | some l => l ≤ c.sec.dbgLevel
    | none => false
  if c.power.off then c
  else
    let d := ({ c with sec.jtagIr := if ok then code else 0xFF, sec.jtagRefused := !ok } : Chip).send (.jtag c.jtagCapture)
    if !ok then d
    else if code = 0x01 then d.send (.jtagId idCode)
    else if code = 2 || code = 3 || code = 6 || code = 7 then { d.send (.jtagBoundary d.pinLevels) with sec.boundary := cells }
    else d

/-- SMBUS_ALERT_RESPONSE (R434): the module's SMBus address while ALERT_N is asserted; not during a controller's restart
(R415), nor in SCRAPPED (R400). -/
def Chip.alertResponse (c : Chip) (fz : Fuses) : Chip :=
  let restarting := !c.sorrel.halted && (match c.sorrel.expiredAt with
    | some t => c.time < t + 200000000
    | none => false)
  if c.alert && !restarting && fz.lifecycle ≠ 4 then c.send (.araAnswer (if c.pins.smbAddr then 0x62 else 0x60)) else c

/-! ### The rows -/

/-- GET_VERSION (R393). -/
def execGetVersion (t : Nat) (msg : List Byte) : State → Host.Outcome State Fault Refusal :=
  onChip (fun x c => (Chip.spdmRow x c t 0x84 msg (fun c => (c.getVersion t msg, x.fuse))).1)

/-- GET_CAPABILITIES (R393). -/
def execGetCapabilities (t : Nat) (msg : List Byte) : State → Host.Outcome State Fault Refusal :=
  onChip (fun x c => (Chip.spdmRow x c t 0xE1 msg (fun c => (c.getCapabilities t msg, x.fuse))).1)

/-- NEGOTIATE_ALGORITHMS (R393). -/
def execNegotiateAlgorithms (t : Nat) (msg : List Byte) : State → Host.Outcome State Fault Refusal :=
  onChip (fun x c => (Chip.spdmRow x c t 0xE3 msg (fun c => (c.negotiate t msg, x.fuse))).1)

/-- GET_DIGESTS (R393). -/
def execGetDigests (t : Nat) (msg : List Byte) : State → Host.Outcome State Fault Refusal :=
  onChip (fun x c => (Chip.spdmRow x c t 0x81 msg (fun c => c.spdmReady t msg (fun c => (Chip.getDigests x c t msg, x.fuse)) x.fuse)).1)

/-- GET_CERTIFICATE (R393). -/
def execGetCertificate (t : Nat) (msg : List Byte) : State → Host.Outcome State Fault Refusal :=
  onChip (fun x c => (Chip.spdmRow x c t 0x82 msg (fun c => c.spdmReady t msg (fun c => (Chip.getCertificate x c t msg, x.fuse)) x.fuse)).1)

/-- CHALLENGE (R395). -/
def execChallenge (t : Nat) (msg : List Byte) : State → Host.Outcome State Fault Refusal :=
  onChip (fun x c => (Chip.spdmRow x c t 0x83 msg (fun c => c.spdmReady t msg (fun c => (Chip.challenge x c t msg, x.fuse)) x.fuse)).1)

/-- GET_MEASUREMENTS (R394). -/
def execGetMeasurements (t : Nat) (msg : List Byte) : State → Host.Outcome State Fault Refusal :=
  onChip (fun x c => (Chip.spdmRow x c t 0xE0 msg (fun c => c.spdmReady t msg (fun c => (Chip.getMeasurements x c t msg, x.fuse)) x.fuse)).1)

/-- SET_CERTIFICATE (R393). -/
def execSetCertificate (t : Nat) (msg : List Byte) : State → Host.Outcome State Fault Refusal :=
  onFuse (fun x c => Chip.spdmRow x c t 0xEE msg (fun c => c.spdmReady t msg (fun c => Chip.setCertificate x c t msg) x.fuse))

/-- SPDM_UNSUPPORTED_REQUEST (R393). -/
def execSpdmUnsupportedRequest (t : Nat) (msg : List Byte) : State → Host.Outcome State Fault Refusal := onChip (fun x c => Chip.spdmOther x c t msg)

/-- JTAG_INSTRUCTION (R420). -/
def execJtagInstruction (code : Nat) (cells : List Bool) : State → Host.Outcome State Fault Refusal := onChip (fun _ c => c.jtagLoad code cells)

/-- DOE_DISCOVERY (R353). -/
def execDoeDiscovery (port index len : Nat) : State → Host.Outcome State Fault Refusal := onChip (fun _ c => c.doeDiscovery port index len)

/-- MCTP_CONTROL (R353). -/
def execMctpControl (msg : List Byte) : State → Host.Outcome State Fault Refusal := onChip (fun x c => c.mctpControl x.fuse msg)

/-- SMBUS_ALERT_RESPONSE (R434). -/
def execSmbusAlertResponse : State → Host.Outcome State Fault Refusal := onChip (fun x c => c.alertResponse x.fuse)

end Sys2Proof.Machine
end

