-- ==== Sys2Proof/Machine/Backward.lean ====
section
/-! DEFINITION. The backward products on the twin arrays (R193-R197): BWD_FUSED and MM_GRAD, whose weight gradients are
added into the wide buffer (R128-R130). -/

namespace Sys2Proof.Machine

/-- A result scaled and rounded once to binary32, as a commit into the wide buffer takes it (R129). -/
def MmOut.bufferWord (q : MmOut) : Nat := toF32 q.val

/-- The outputs of dX, row n by row n: a twin WS product of W transposed and G (R194). -/
def Chip.bwdDx (c : Chip) (x : Ctx) (p : Nat) (k : Cmd) : List (List MmOut) :=
  let (w, g, _, _) := c.bwdOperands p k (scratchAddr k.inst 0)
  let kt := k.fld 28 2
  let spec : MmSpec := { k := k.fld 27 1, accScale := k.sfld 20, p := 2 ^ (k.fld 19 1 % 4), tOut := k.sfld 25, int32 := false }
  let kept := if bitAt (k.fld 16 1) 2 then (match tabFind c.keeps k.inst with
    | some kp => kp.outs
    | none => []) else []
  let rd := c.rd x
  (List.range (k.fld 30 2)).map (fun n => (List.range kt).map (fun j =>
    mmOutput spec (kept.getD (n * kt + j) AccState.start)
      (fun m => (w.val rd m j).scale (-(k.sfld 22))) (fun m => (g.val rd n m).scale (-(k.sfld 23)))))

/-- The outputs of dW, row m by row m, over the tokens in order (R194). -/
def Chip.bwdDw (c : Chip) (x : Ctx) (p : Nat) (k : Cmd) : List (List MmOut) :=
  let (_, g, xo, _) := c.bwdOperands p k (scratchAddr k.inst 0)
  let spec : MmSpec := { k := k.fld 30 2, accScale := k.sfld 21, p := 2 ^ (bitField (k.fld 19 1) 3 2), tOut := k.sfld 26, int32 := false }
  let rd := c.rd x
  (List.range (k.fld 27 1)).map (fun m => (List.range (k.fld 28 2)).map (fun j =>
    mmOutput spec AccState.start
      (fun n => (g.val rd n m).scale (-(k.sfld 23))) (fun n => (xo.val rd n j).scale (-(k.sfld 24)))))

/-- The keep buffer of a cell after a whole-cell command of a partition commits (R92). -/
def Chip.keepAfter (c : Chip) (x : Ctx) (p cell : Nat) (keep : Bool) (shape : List Nat) (outs : List MmOut) : Chip :=
  if keep then c.keepNew x cell { owner := some p, shape := shape, outs := outs.map (fun q => q.run.st) }
  else { c with keeps := tabDel c.keeps cell }

/-- The flags and replays of a set of outputs, with beats and bytes (R41, R109, R118). -/
def outsAcct (outs : List MmOut) (beats bytes : Nat) (nf : Bool) : Acct :=
  { beats := beats, bytes64 := ceilDiv bytes 64, replays := outs.foldl (fun s q => s + q.run.log.length) 0
    nf := nf || outs.any (fun q => q.run.nfSeen), bound := outs.any (fun q => q.bound), pall := outs.any (fun q => q.run.st.pall) }

/-- BWD_FUSED of a running command (R193-R195). It holds while an earlier accumulation into its buffer runs (R130). -/
def Chip.bwdFused (x : Ctx) (env : Env) (c : Chip) (k : Cmd) : Chip :=
  let p := (c.cmdPart k).getD 16
  let cell := k.inst
  let c := c.meets x env k
  let x := x.upset env.upsets
  let mode := k.fld 16 1
  let dw := bitAt mode 0
  let m := k.fld 27 1
  let kt := k.fld 28 2
  let n := k.fld 30 2
  let off := k.fld 48 4
  let (w, g, xo, d) := c.bwdOperands p k (scratchAddr cell 0)
  let words := (List.range m).map (fun i => (wideAddr cell (off + 512 * i), 4 * kt))
  if dw && c.accumHeld k cell then c
  else c.afterIo x env k (w.runs ++ g.runs ++ (if dw then xo.runs ++ words else []) ++ c.keepBad x (bitAt mode 2) cell) d.runs (fun c =>
    let dxs := c.bwdDx x p k
    let dws := if dw then c.bwdDw x p k else []
    let inj := c.nfInject { blk := .meadow, inst := cell } k (n * kt)
    let enc := (List.range n).map (fun i => encodeRow d.fmt (injectAt inj kt i ((dxs.getD i []).map (fun q => q.val))))
    let c := (List.range n).foldl (fun c i =>
      let e := enc.getD i ([], [], false)
      (c.wr x (d.base + i * d.pitch) e.1).wr x (d.scales + i * (kt / 32)) e.2.1) c
    let (c, nfw) := (List.range dws.length).foldl (fun (acc : Chip × Bool) i =>
      let r := acc.1.wideAdd x cell ((off + 512 * i) / 4) ((dws.getD i []).map MmOut.bufferWord)
      (r.1, acc.2 || r.2)) (c, false)
    let bytes := enc.foldl (fun s e => s + e.1.length + e.2.1.length) 0
    let vh := min (vHalves w.fmt g.fmt) (vHalves g.fmt xo.fmt)
    let base := 128 + divV (128 * ceilDiv n 128) vh + 255 + ceilDiv bytes 4096 + (if dw then ceilDiv (4 * m * kt) 1024 else 0)
    let beats := base + tilesBeats 0 (max (divV n vh) 128) vh 256 [(n, dxs.flatten)] + tilesBeats 1 128 vh 256 [(m, dws.flatten)]
    let outs := dxs.flatten ++ dws.flatten
    let wa := x.fuse.width cell false 0
    let wb := x.fuse.width cell true 0
    let wx := if dw then wa else wa + wb
    let formed := formedProducts 0 1 wx kt n + (if dw then formedProducts 0 (ceilDiv n 128) wb kt m else 0)
    let ax := replayed 0 m wx kt [(n, dxs.flatten)]
    let aw := replayed 0 n wb kt [(m, dws.flatten)]
    let c := c.arrayCounts (0x100 + cell) 2 beats env (k.gateOn.contains cell) formed (m * kt * n * (if dw then 2 else 1)) (ax.1 + aw.1, ax.2 + aw.2) outs
    let c := c.nfDone { blk := .meadow, inst := cell } inj
    let c := (c.keepAfter x p cell (bitAt mode 1) k.bwdShape dxs.flatten).clearKeepLost p k
    let acct := outsAcct outs (beats + env.feed + env.drain) (bytes + (if dw then 4 * m * kt else 0)) (nfw || enc.any (fun e => e.2.2))
    c.endCmd { k with acct := k.acct.plus acct } 0 0)

/-- MM_GRAD of a running command (R197): ARRAY_MM with its outputs added into the wide buffer. -/
def Chip.mmGrad (x : Ctx) (env : Env) (c : Chip) (k : Cmd) : Chip :=
  let p := (c.cmdPart k).getD 16
  let cell := k.inst
  let c := c.meets x env k
  let x := x.upset env.upsets
  let m := k.fld 22 2
  let n := k.fld 24 2
  let kk := k.fld 28 4
  let sh : MmShare := { unit := cell, mc := m, nc := n }
  let off := k.fld 40 4
  let pitch := 64 * k.fld 60 2
  let words := (List.range n).map (fun i => (wideAddr cell (off + pitch * i), 4 * m))
  if c.accumHeld k cell then c
  else c.afterReads x env k (c.mmReads p k sh ++ words ++ c.keepBad x (bitAt (k.fld 19 1) 3) cell) (fun c =>
    let outs := c.mmOuts x p k sh
    let inj := c.nfInject { blk := .meadow, inst := cell } k (m * n)
    let (c, nfw) := (List.range n).foldl (fun (acc : Chip × Bool) i =>
      let r := acc.1.wideAdd x cell ((off + pitch * i) / 4) ((injectAt inj m i ((outs.getD i []).map (fun q => q.val))).map toF32)
      (r.1, acc.2 || r.2)) (c, false)
    let flow := bitField (k.fld 16 1) 1 0
    let vh := vHalves (c.fmt k p (k.fld 17 1 % 16)) (c.fmt k p (k.fld 17 1 / 16))
    let base := mmBeats flow m n (ceilDiv kk 128) vh 256 (ceilDiv (4 * m * n) 1024)
    let tiles := mmTiles flow n outs
    let beats := base.1 + tilesBeats flow base.2 vh 256 tiles
    let cols := x.fuse.wsel cell (bitField (k.fld 16 1) 3 2) 0
    let c := c.arrayCounts (0x100 + cell) 2 beats env (k.gateOn.contains cell) (formedProducts flow (ceilDiv kk 128) cols m n) (m * n * kk)
      (replayed flow kk cols m tiles) outs.flatten
    let c := c.nfDone { blk := .meadow, inst := cell } inj
    let c := (c.keepAfter x p cell (bitAt (k.fld 19 1) 2) k.mmShape outs.flatten).clearKeepLost p k
    c.endCmd { k with acct := k.acct.plus (outsAcct outs.flatten (beats + env.feed + env.drain) (4 * m * n) nfw) } 0 0)

/-- BWD_FUSED (R193). -/
def execBwdFused (cmd : Nat) (env : Env) : State → Host.Outcome State Fault Refusal :=
  onOp cmd 0x18 (fun x => Chip.bwdFused x env)

/-- MM_GRAD (R197). -/
def execMmGrad (cmd : Nat) (env : Env) : State → Host.Outcome State Fault Refusal :=
  onOp cmd 0x19 (fun x => Chip.mmGrad x env)

end Sys2Proof.Machine
end

