-- ==== Sys2Proof/Machine/Bridge.lean ====
section
/-! DEFINITION. The soft-target bridge (chapter 08): rings, head commands with their windows, and the hold of a teacher
command. The row store is the `sets` of the rings; slots and records are bytes of bridge SRAM. -/

namespace Sys2Proof.Machine

/-- The frame of the TEASEL page. -/
def teaselFrame : Nat := 0x008

/-- A ring replaced. -/
def Chip.putRing (c : Chip) (i : Nat) (r : Ring) : Chip := { c with bridge.rings := tabSet c.bridge.rings i r }

/-- The region of a ring zeroed by whole-line writes (R170). -/
def Chip.zeroRing (x : Ctx) (c : Chip) (r : Ring) : Chip := c.wrZero x (bridgeAddr r.base) r.regionBytes

/-- RING_OPEN of a running command (R173): the temperature entry bound at its start is copied in. -/
def Chip.ringOpen (x : Ctx) (c : Chip) (k : Cmd) : Chip :=
  let p := (c.cmdPart k).getD 16
  let i := k.ring
  let temp := (c.imageFor k (tableKey 3 p 0)).elim [] (fun im => im.entry 8 (ctxFld k.ctx 10 1))
  let r := { ringFrom k.ctx temp with openedAt := c.instant }
  let c := (Chip.zeroRing x c r).tick
  (c.putRing i r).endCmd { k with acct := { k.acct with beats := k.acct.beats + ceilDiv r.regionBytes 4096, bytes64 := k.acct.bytes64 + 2 } } 0 0

/-- RING_RESET of a running command (R170, R173). -/
def Chip.ringReset (x : Ctx) (c : Chip) (k : Cmd) : Chip :=
  match c.ringOf k with
  | none => c.endCmd k 5 16
  | some r =>
    let c := Chip.zeroRing x c r
    let c := if bitAt (k.fld 16 1) 7 then (({ c with bridge.rings := tabDel c.bridge.rings k.ring } : Chip).noteUse 60) else c.putRing k.ring { r with sets := [], live := 0, held := none }
    c.endCmd { k with acct := { k.acct with beats := k.acct.beats + ceilDiv r.regionBytes 4096 } } 0 0

/-! ### Logits (R177, R181) -/

/-- The logits of a source cell for a window: N rows of 128 · WT outputs (R177). -/
def Chip.headOuts (c : Chip) (x : Ctx) (p : Nat) (k : Cmd) (cell : Nat) : List (List MmOut) :=
  let w := c.fmt k p (k.fld 17 1 % 16)
  let xf := c.fmt k p (k.fld 17 1 / 16)
  let kk := k.fld 28 4
  let b := scratchAddr cell 0
  let rd := c.rd x
  let spec : MmSpec := { k := kk, accScale := k.sfld 19, p := 2 ^ (k.fld 18 1 % 4), tOut := 0, int32 := false }
  (List.range (k.fld 22 2)).map (fun n => (List.range (128 * k.fld 55 1)).map (fun m =>
    mmOutput spec AccState.start
      (fun i => (rowElem w rd (b + k.fld 32 4 + 64 * k.fld 48 2 * m) (b + k.fld 40 4 + m * (kk / 32)) i).scale (-(k.sfld 20)))
      (fun i => (rowElem xf rd (b + k.fld 36 4 + 64 * k.fld 50 2 * n) (b + k.fld 44 4 + n * (kk / 32)) i).scale (-(k.sfld 21)))))

/-- The runs a head command reads in each source cell. -/
def Chip.headReads (c : Chip) (p : Nat) (k : Cmd) (cell : Nat) : List (Nat × Nat) :=
  let w := c.fmt k p (k.fld 17 1 % 16)
  let xf := c.fmt k p (k.fld 17 1 / 16)
  let kk := k.fld 28 4
  let b := scratchAddr cell 0
  let m := 128 * k.fld 55 1
  let n := k.fld 22 2
  (List.range m).map (fun i => (b + k.fld 32 4 + 64 * k.fld 48 2 * i, w.rowBytes kk)) ++
    (List.range n).map (fun i => (b + k.fld 36 4 + 64 * k.fld 50 2 * i, xf.rowBytes kk)) ++
    (if w.isMx then [(b + k.fld 40 4, m * (kk / 32))] else []) ++ (if xf.isMx then [(b + k.fld 44 4, n * (kk / 32))] else [])

/-- The tiles of a window in the order they fold (R181): the source, and its unmasked columns with their vocabulary
indices; a tile whose entries are all masked is left out. -/
def headOrder (r : Ring) (st : Nat) (k : Cmd) : List (Nat × List (Nat × Nat)) :=
  ((List.range (k.fld 55 1)).flatMap (fun t => (List.range (r.cells st).length).map (fun s =>
    (s, ((List.range 128).map (fun i => (128 * t + i, s * r.vslice st + k.fld 52 3 + 128 * t + i))).filter (fun e => e.2 < r.v))))).filter (fun e => !e.2.isEmpty)

/-! ### Rows -/

/-- A flag of a record's SEQ_FLAGS word. -/
def recFlag (b : List Byte) (i : Nat) : Bool := bitAt (recWord b 0) i

/-- A teacher row takes a window's logits (R181-R183): `z s m` is the FP32 logit of column `m` of source `s`. -/
def rowTeacher (r : Ring) (order : List (Nat × List (Nat × Nat))) (z : Nat → Nat → Nat) (row : HeadRow) : HeadRow :=
  order.foldl (fun (row : HeadRow) tile =>
    let fin := tile.2.filter (fun e => !f32.nonFinite (z tile.1 e.1))
    let ys := fin.map (fun e => (logitFix (z tile.1 e.1) r.scale, e.2))
    { row with
      accT := row.accT.fold (ys.map Prod.fst), sel := selAll r.k row.sel ys, nf := row.nf || fin.length < tile.2.length }) row

/-- A pass-one row takes a window's logits (R184). A row whose record has NF_T is not computed. -/
def rowPass1 (r : Ring) (order : List (Nat × List (Nat × Nat))) (z : Nat → Nat → Nat) (row : HeadRow) : HeadRow :=
  let es := recEntries row.record r.k
  let skip := recFlag row.record 26
  order.foldl (fun (row : HeadRow) tile =>
    let fin := tile.2.filter (fun e => !f32.nonFinite (z tile.1 e.1))
    let best := tile.2.foldl (fun (b : Option ArgBest) e =>
      let a := argOne (z tile.1 e.1) e.2
      match b with
      | none => some a
      | some q => some (argCombine true q a)) row.best
    let row := { row with best := best, nf := row.nf || fin.length < tile.2.length }
    if skip then row
    else
      let y1 := fin.map (fun e => logitFix (z tile.1 e.1) log2e)
      let yt := fin.map (fun e => (e.2, logitFix (z tile.1 e.1) r.scale))
      { row with
        acc1 := row.acc1.fold y1, accT := row.accT.fold (yt.map Prod.snd)
        caps := row.caps ++ yt.filter (fun e => es.any (fun q => q.1 = e.1)) }) row

/-- The label excludes the token (R185). -/
def labelExcl (r : Ring) (row : HeadRow) : Bool := 2 ^ 20 ≤ row.label || r.v ≤ row.label

/-- The record excludes the token, or the row met a non-finite logit (R185). -/
def rowNf (row : HeadRow) : Bool := recFlag row.record 26 || recFlag row.record 27 || row.nf

/-- A pass-two row takes a window's logits (R185, R186): the row, and its gradients by source and column. -/
def rowPass2 (r : Ring) (k : Cmd) (order : List (Nat × List (Nat × Nat))) (z : Nat → Nat → Nat) (first : Bool) (row : HeadRow) :
    HeadRow × List (List Val) :=
  let met := order.any (fun tile => tile.2.any (fun e => f32.nonFinite (z tile.1 e.1)))
  let row := { row with nf := row.nf || met, late := row.late || (met && !first) }
  let zeros : List (List Val) := (List.range r.sCells.length).map (fun _ => List.replicate (128 * k.fld 55 1) Val.zero)
  if rowNf row || labelExcl r row then (row, zeros)
  else
    let es := recEntries row.record r.k
    let c12 := gradCoeffs r.alpha r.tau (k.fld 56 4)
    let lz1 := signedOf 32 (recWord row.record 12)
    let lzt := signedOf 32 (recWord row.record 16)
    let ratio := fdiv (recWord row.record 8) (recWord row.record 20)
    order.foldl (fun (acc : HeadRow × List (List Val)) tile =>
      tile.2.foldl (fun (acc : HeadRow × List (List Val)) e =>
        let b := z tile.1 e.1
        let y1 := logitFix b log2e
        let yt := logitFix b r.scale
        let code : Option Nat := (es.find? (fun q => q.1 = e.2)).map Prod.snd
        let g := gradOf c12 ratio lz1 lzt y1 yt code (e.2 = row.label)
        let row : HeadRow := acc.1
        let row := { row with
          y1 := if e.2 = row.label then y1 else row.y1
          caps := if code.isSome then row.caps ++ [(e.2, yt)] else row.caps }
        (row, listSet acc.2 tile.1 (listSet (acc.2.getD tile.1 []) e.1 g))) acc) (row, zeros)

/-! ### Commits of LAST -/

/-- A teacher's record (R182, R183). -/
def teacherRecord (r : Ring) (s : Nat) (row : HeadRow) : List Byte :=
  let one := r.tau = 0
  let head := s % 2 ^ 24 + 2 ^ 24 + 2 ^ 29 * flagNat one
  let body := if row.nf then leBytes 4 (head + 2 ^ 26) ++ leBytes 4 0 ++ leBytes 4 f32.canonNan
    else
      let l := row.accT.lz
      let sk := row.sel.foldl (fun t e => t + termOf e.1 (row.accT.a.getD 0)) 0
      let tail := if one || r.k = r.v then 0 else tailF32 row.accT.s sk
      let code (i : Nat) (y : Int) : Nat := if one then (if i = 0 then 4095 else 0) else pcode l y
      leBytes 4 head ++ leBytes 4 (unsignedOf 32 l) ++ leBytes 4 tail ++ leBytes 12 0 ++
        (List.range row.sel.length).flatMap (fun i => let e := row.sel.getD i (0, 0); leBytes 4 (e.2 + 2 ^ 20 * code i e.1))
  body ++ List.replicate (r.slotBytes - body.length) 0

/-- A record as pass one leaves its first 24 bytes (R184). -/
def pass1Record (r : Ring) (row : HeadRow) : List Byte :=
  let w := recWord row.record 0
  let zero := recFlag row.record 26 || row.nf
  let sk := row.caps.foldl (fun t e => t + termOf e.2 (row.accT.a.getD 0)) 0
  let t := tailF32 row.accT.s sk
  let floor := toF32 (.num false 1 (-40))
  let tail := if (ofF32 t).lt (ofF32 floor) then floor else t
  let agree := !zero && row.best.any (fun (b : ArgBest) => b.index = ((recEntries row.record r.k).getD 0 (0, 0)).1)
  let flags := w % 2 ^ 24 + 2 * 2 ^ 24 + 2 ^ 26 * flagNat (bitAt w 26) + 2 ^ 27 * flagNat row.nf + 2 ^ 28 * flagNat agree + 2 ^ 29 * flagNat (bitAt w 29)
  leBytes 4 flags ++ (row.record.drop 4).take 8 ++
    (if zero then leBytes 12 0 else leBytes 4 (unsignedOf 32 row.acc1.lz) ++ leBytes 4 (unsignedOf 32 row.accT.lz) ++ leBytes 4 tail)

/-- A loss record (R187). -/
def lossRecord (r : Ring) (row : HeadRow) : List Byte :=
  let w := recWord row.record 0
  let nf := rowNf row
  let lab := labelExcl r row
  let es := (recEntries row.record r.k).map (fun e => (e.2, ((row.caps.find? (fun q => q.1 = e.1)).map Prod.snd).getD 0))
  let v := if nf || lab then (0, 0, 0)
    else lossOf r.alpha r.tau (recWord row.record 8) (recWord row.record 20) (signedOf 32 (recWord row.record 12)) (signedOf 32 (recWord row.record 16)) row.y1 es
  leBytes 4 (w % 2 ^ 24 + 2 ^ 24 * flagNat (bitAt w 28) + 2 ^ 25 * flagNat nf + 2 ^ 26 * flagNat lab + 2 ^ 27 * flagNat (r.tau = 0) + 2 ^ 28 * flagNat row.late) ++
    leBytes 4 v.1 ++ leBytes 4 v.2.1 ++ leBytes 4 v.2.2

/-- What the LAST commit of a stream writes: addresses and bytes (R182, R184, R187). Pass two clears STATE alone in the
slot (R169). -/
def headWrites (r : Ring) (st : Nat) (seqs : List Nat) (rows : List HeadRow) : List (Nat × List Byte) :=
  (List.zip seqs rows).flatMap (fun e =>
    if st = 0 then [(r.slotAddr e.1, teacherRecord r e.1 e.2)]
    else if st = 1 then [(r.slotAddr e.1, pass1Record r e.2)]
    else [(r.lossAddr + 16 * r.slot e.1, lossRecord r e.2),
          (r.slotAddr e.1 + 3, [BitVec.ofNat 8 (recWord e.2.record 0 / 2 ^ 24 - recWord e.2.record 0 / 2 ^ 24 % 4)])])

/-! ### Pairing (R171) -/

/-- A token's record sought: the record, or the status and DETAIL of the end (R171, R189). A poisoned slot ends the command with POISON
where its token does not pair for any reason. -/
def Chip.pairRow (x : Ctx) (k : Cmd) (r : Ring) (want s : Nat) (c : Chip) : Chip × (List Byte ⊕ (Nat × Nat)) :=
  let d := (r.nextSeq + 2 ^ 32 - s) % 2 ^ 32
  let far := d = 0 || r.depth < d
  let run := [(r.slotAddr s, r.slotBytes)]
  let seen := (c.onRead x (c.cmdPart k) (linesOf (r.slotAddr s) r.slotBytes)).2
  if far && !(linesOf (r.slotAddr s) r.slotBytes).any (fun l => c.lineHealth seen l = .poison) then (c, .inr (14, 1))
  else
    let q := Chip.readRuns x (c.consumer k) run c
    match q.2 with
    | some f => (q.1, .inr f.code)
    | none =>
      let b := q.1.rdBytes x (r.slotAddr s) r.slotBytes
      let w := recWord b 0
      if bitField w 25 24 ≠ want then (q.1, .inr (14, 2))
      else if w % 2 ^ 24 ≠ s % 2 ^ 24 then (q.1, .inr (14, 3))
      else (q.1, .inl b)

/-- The rows of a FIRST command: empty ones for a teacher, paired ones for a student, with the label words of pass two;
the first row that fails is reported (log 106). -/
def Chip.firstRows (x : Ctx) (k : Cmd) (r : Ring) (st : Nat) (c : Chip) : Chip × (List HeadRow ⊕ (Nat × Nat)) :=
  if st = 0 then (c, .inl (k.seqs.map (fun _ => {})))
  else
    k.seqs.foldl (fun (acc : Chip × (List HeadRow ⊕ (Nat × Nat))) s =>
      match acc.2 with
      | .inr _ => acc
      | .inl rows =>
        let q := Chip.pairRow x k r st s acc.1
        match q.2 with
        | .inr e => (q.1, .inr e)
        | .inl b =>
          if st = 1 then (q.1, .inl (rows ++ [{ record := b }]))
          else
            let a := r.labelAddr + 4 * r.slot s
            let l := Chip.readRuns x (q.1.consumer k) [(a, 4)] (q.1.dramCharge ((c.cmdPart k).getD 16) [(a, 4)])
            match l.2 with
            | some f => (l.1, .inr f.code)
            | none => (l.1, .inl (rows ++ [{ record := b, label := l.1.rdNat x a 4 }]))) (c, .inl [])

/-! ### The window -/

/-- The tiles of a source cell's window (R190), of W_sel outputs one after another: their outputs, and rows with outputs. -/
def headTiles (m n ws : Nat) (outs : List (List MmOut)) : List (Nat × Nat × List MmOut) :=
  (List.range (ceilDiv m ws)).map (fun i => (min ws (m - i * ws), n, outs.flatMap (fun row => (row.drop (i * ws)).take ws)))

/-- Beats of a source cell's window (R190). -/
def Chip.headBeats (c : Chip) (x : Ctx) (p : Nat) (k : Cmd) (cell : Nat) (outs : List (List MmOut)) : Nat :=
  let vh := vHalves (c.fmt k p (k.fld 17 1 % 16)) (c.fmt k p (k.fld 17 1 / 16))
  let n := k.fld 22 2
  (headTiles (128 * k.fld 55 1) n (max 1 (x.fuse.wsel cell 2 0)) outs).foldl (fun t e =>
    let base := mmBeats 0 e.1 n (ceilDiv (k.fld 28 4) 128) vh 256 (ceilDiv (2 * e.1 * n) (256 * vh))
    t + base.1 + tilesBeats 0 base.2 vh 256 [e.2]) 0

/-- A token's slot is not FREE. -/
def Chip.slotTaken (c : Chip) (x : Ctx) (r : Ring) (s : Nat) : Bool := bitField (c.rdNat x (r.slotAddr s) 4) 25 24 ≠ 0

/-- The bridge's virtual time of a partition rises by ⌊256 / SHARE⌋ for each tile the lanes take (R318). -/
def Chip.headTurns (c : Chip) (p : Nat) (k : Cmd) (tiles : Nat) : Chip :=
  match k.engine, c.part? p with
  | some e, some pt => { c with vtime := tabSet c.vtime (16 * e + p) (c.vt e p + tiles * (256 / pt.share e)) }
  | _, _ => c

/-- A window taken (R178-R190): rows read or begun, logits folded, the row set opened, kept or closed, gradients, records
and loss records written, all in one commit. `hold` is the beats the drains were held (R188). -/
def Chip.headWindow (x : Ctx) (env : Env) (c : Chip) (k : Cmd) (r : Ring) (rows : List HeadRow) (first : Bool) (hold : Nat) : Chip :=
  let p := (c.cmdPart k).getD 16
  let st := k.stream
  let n := k.fld 22 2
  let m := 128 * k.fld 55 1
  let last := bitAt (k.fld 16 1) 7
  let cells := r.cells st
  let order := headOrder r st k
  let env := env.held hold
  c.afterReads x env k (cells.flatMap (c.headReads p k) ++ (if first then [] else c.badIn x (rowAddr k.ring st) (2 ^ 20))) (fun c =>
    let outs := cells.map (c.headOuts x p k)
    let z (i s col : Nat) : Nat := toF32 (((outs.getD s []).getD i []).map (fun q => q.val) |>.getD col Val.zero)
    let idx := List.range n
    let empty : HeadRow := {}
    let step (i : Nat) : HeadRow × List (List Val) :=
      let row := rows.getD i empty
      if st = 0 then (rowTeacher r order (z i) row, [])
      else if st = 1 then (rowPass1 r order (z i) row, [])
      else rowPass2 r k order (z i) first row
    let res := idx.map step
    let rows' := res.map Prod.fst
    let nf := order.any (fun tile => tile.2.any (fun e => idx.any (fun i => f32.nonFinite (z i tile.1 e.1))))
    let xf := c.fmt k p (k.fld 17 1 / 16)
    let gp := k.gradPitch xf
    let inj := if st = 2 then c.nfInject { blk := .teasel, inst := 0 } k (cells.length * n * m) else none
    let grads := if st ≠ 2 then [] else (List.range cells.length).flatMap (fun s => idx.map (fun i =>
      (s, i, encodeRow xf (injectAt inj m (s * n + i) ((((res.getD i (empty, [])).2).getD s []).map (Val.scale (k.sfld 60)))))))
    let recs := if last then headWrites r st k.seqs rows' else []
    let runs := recs.map (fun w => (w.1, w.2.length))
    let gruns := if st ≠ 2 then [] else cells.flatMap (fun cell =>
      (List.range n).map (fun i => (scratchAddr cell (k.fld 61 3) + i * gp, xf.rowBytes m)) ++
        (if xf.isMx then [(scratchAddr cell (k.fld 61 3) + n * gp, n * (m / 32))] else []))
    let q := Chip.readRuns x (c.consumer k) (partRuns (runs ++ gruns)) c
    match q.2 with
    | some f => (q.1.broken k env).endCmd { k with acct := k.acct.plus { beats := envBeats env } } f.code.1 f.code.2
    | none =>
      let c := Chip.coverRuns x (runs ++ gruns) q.1
      let c := grads.foldl (fun c g =>
        let a := scratchAddr (cells.getD g.1 0) (k.fld 61 3)
        let c := c.wr x (a + g.2.1 * gp) g.2.2.1
        if xf.isMx then c.wr x (a + n * gp + g.2.1 * (m / 32)) g.2.2.2.1 else c) c
      let c := recs.foldl (fun c w => c.wr x w.1 w.2) c
      let c := (c.tierWrites runs).dramCharge p runs
      let c := c.nfDone { blk := .teasel, inst := 0 } inj
      let taken := n * order.foldl (fun s e => s + e.2.length) 0
      let c := c.count teaselFrame (if st = 0 then 0 else 1) taken
      let beats := (List.range cells.length).map (fun s => c.headBeats x p k (cells.getD s 0) (outs.getD s []))
      let c := (List.range cells.length).foldl (fun c s =>
        let cell := cells.getD s 0
        let ws := max 1 (x.fuse.wsel cell 2 0)
        let tiles := headTiles m n ws (outs.getD s [])
        let again := (tiles.map (fun e => replayed 0 (k.fld 28 4) ws e.1 [e.2])).foldl (fun a r => (a.1 + r.1, a.2 + r.2)) (0, 0)
        c.arrayCounts (0x100 + cell) 2 (beats.getD s 0) (env.unit s) (k.gateOn.contains cell)
          (formedProducts 0 (ceilDiv (k.fld 28 4) 128) (ws * tiles.length) m n) (m * n * k.fld 28 4) again (outs.getD s []).flatten) c
      let array := ((List.range cells.length).map (fun s => beats.getD s 0 + envBeats (env.unit s))).sum
      let c := (c.count (0x020 + p) 0 array).headTurns p k order.length
      let c := c.coverIn x (rowAddr k.ring st) (2 ^ 20)
      let sets := if last then tabDel r.sets st else tabSet r.sets st { base := k.fld 24 4, last := k.fld 52 3 + m, rows := rows' }
      let r' := { r with sets := sets, held := none }
      let r' := if !last then r'
        else if st = 0 then { r' with nextSeq := (k.fld 24 4 + n) % 2 ^ 32, live := r.live + n }
        else if st = 2 then { r' with live := r.live - n } else r'
      let c := c.putRing k.ring r'
      let c := if last && st = 0 then c.count teaselFrame 2 n
        else if last && st = 2 then
          let out := (rows'.filter rowNf).length
          let agree := (rows'.filter (fun w => !rowNf w && !labelExcl r w && recFlag w.record 28)).length
          let c := ((c.count teaselFrame 3 n).count teaselFrame 4 out).count teaselFrame 5 agree
          if out ≠ 0 then c.fire teaselFrame 3 else c
        else c
      let bytes := grads.foldl (fun t g => t + g.2.2.1.length + g.2.2.2.1.length) 0 + recs.foldl (fun t w => t + w.2.length) 0
      let all := outs.flatten.flatten
      let acct := { outsAcct all (max (beats.foldl max 0) (ceilDiv taken 32768) + ceilDiv bytes 4096 + envBeats env) bytes false with
        nf := nf || grads.any (fun g => g.2.2.2.2) }
      c.endCmd { k with acct := k.acct.plus acct } 0 0)

/-- A head command of a running command (R178, R188): rows are paired at FIRST; a teacher LAST command whose slots are not
all FREE is held. A command whose ring was closed or opened anew since it started changes nothing. -/
def Chip.head (x : Ctx) (env : Env) (c : Chip) (k : Cmd) : Chip :=
  let p := (c.cmdPart k).getD 16
  match c.ringOf k with
  | none => c.endCmd k 0 0
  | some r =>
    if k.startAt < r.openedAt then c.endCmd k 0 0
    else if k.stage = 1 then c
    else
      let st := k.stream
      let loss := k.seqs.map (fun s => (r.lossAddr + 16 * r.slot s, 16))
      let labels := if (tabFind r.sets st).isSome then [] else k.seqs.map (fun s => (r.labelAddr + 4 * r.slot s, 4))
      if st = 2 && !c.dramLets p (loss ++ labels) then c
      else
        let c := c.meets x env k
        let x := x.upset env.upsets
        let cur : Option RowSet := tabFind r.sets st
        match cur with
        | some s =>
          if st = 0 && bitAt (k.fld 16 1) 7 && k.seqs.any (c.slotTaken x r) then
            ((c.putRing k.ring { r with held := some k.id }).putCmd { k with stage := 1 }).fire teaselFrame 4
          else Chip.headWindow x env c k r s.rows false 0
        | none =>
          let q := Chip.firstRows x k r st c
          match q.2 with
          | .inr e =>
            let c := if e.1 = 14 then (q.1.count teaselFrame 7 1).fire teaselFrame 2 else q.1
            (c.broken k env).endCmd { k with acct := k.acct.plus { beats := envBeats env } } e.1 e.2
          | .inl rows =>
            if st = 0 && bitAt (k.fld 16 1) 7 && k.seqs.any (q.1.slotTaken x r) then
              ((q.1.putRing k.ring { r with held := some k.id }).putCmd { k with stage := 1 }).fire teaselFrame 4
            else Chip.headWindow x env q.1 k r rows true 0

/-- TEACHER_HOLD_RELEASE (R188, R189): once every slot of its rows is FREE, a held teacher command claims them and runs;
`beats` is how long its drains were held. -/
def Chip.holdRelease (x : Ctx) (env : Env) (beats : Nat) (c : Chip) (k : Cmd) : Chip :=
  match c.ringOf k with
  | none => c.endCmd k 0 0
  | some r =>
    if k.startAt < r.openedAt then c.endCmd k 0 0
    else if k.stage ≠ 1 || r.held ≠ some k.id || k.seqs.any (c.slotTaken x r) then c
    else
      let r := { r with held := none }
      let c := ((c.meets x env k).putRing k.ring r).count teaselFrame 6 beats
      let x := x.upset env.upsets
      let cur : Option RowSet := tabFind r.sets 0
      Chip.headWindow x env c k r (cur.elim (k.seqs.map (fun _ => {})) (fun (s : RowSet) => s.rows)) cur.isNone beats

/-- RING_OPEN (R173). -/
def execRingOpen (cmd : Nat) : State → Host.Outcome State Fault Refusal := onOp cmd 0x50 Chip.ringOpen

/-- RING_RESET (R173). -/
def execRingReset (cmd : Nat) : State → Host.Outcome State Fault Refusal := onOp cmd 0x51 Chip.ringReset

/-- HEAD_TEACHER (R182). -/
def execHeadTeacher (cmd : Nat) (env : Env) : State → Host.Outcome State Fault Refusal := onOp cmd 0x52 (fun x => Chip.head x env)

/-- HEAD_PASS1 (R184). -/
def execHeadPass1 (cmd : Nat) (env : Env) : State → Host.Outcome State Fault Refusal := onOp cmd 0x53 (fun x => Chip.head x env)

/-- HEAD_PASS2 (R185). -/
def execHeadPass2 (cmd : Nat) (env : Env) : State → Host.Outcome State Fault Refusal := onOp cmd 0x54 (fun x => Chip.head x env)

/-- TEACHER_HOLD_RELEASE (R188). -/
def execTeacherHoldRelease (cmd beats : Nat) (env : Env) : State → Host.Outcome State Fault Refusal :=
  onOp cmd 0x52 (fun x => Chip.holdRelease x env beats)

end Sys2Proof.Machine
end

