-- ==== Sys2Proof/Machine/Tansy.lean ====
section
/-! DEFINITION. The Tansy commands (R48-R55): a load's header, shadow and body stages, and the activation. A load whose
shadow is busy waits at stage 1; one that fills its shadow is at stage 2, and its body is checked when it ends. -/

namespace Sys2Proof.Machine

/-- The frame of the TANSY page. -/
def tansyFrame : Nat := 0x005

/-- The header agrees with R49, R50 and IMAGE_BYTES (R51, stage 1). -/
def ImgHeader.ok (h : ImgHeader) (imageBytes : Nat) : Bool :=
  match objInfo h.id with
  | none => false
  | some o =>
    h.version = 1 && h.inst < o.instances && h.bytes = o.bytes && !h.rsvd && 1 ≤ h.count &&
      (if o.exact then h.count = o.entries else h.count ≤ o.entries) && imageBytes = 32 + h.count * h.bytes

/-- A Tansy command ends with TABLE_ERROR (R55): counted, logged, source 2. -/
def Chip.tableError (c : Chip) (k : Cmd) (detail : Nat) : Chip :=
  (((c.count tansyFrame 1 1).log tansyFrame { cls := 6, sev := 1, status := 13, detail := detail, part := c.cmdPart k, opcode := k.opcode, target := k.target }).fire tansyFrame 2).endCmd k 13 detail

/-- Bytes of the program store a partition's programs take, one slot's shadow left aside (R49). -/
def Chip.programBytes (c : Chip) (p slot : Nat) : Nat :=
  (List.range 64).foldl (fun s i =>
    let t := c.table (tableKey 0 p i)
    let a := match t.active with
      | some im => 16 * im.count
      | none => 0
    let sh := match t.image with
      | some im => if i ≠ slot && (t.shadow = .loading || t.shadow = .valid || t.shadow = .draining) then 16 * im.count else 0
      | none => 0
    s + a + sh) 0

/-- Bytes of a load's image charged to them. -/
def Chip.loadCharge (c : Chip) (k : Cmd) (a n : Nat) : Chip :=
  match c.cmdPart k with
  | none => c
  | some p => if bitAt (k.fld 16 8) 63 then c.regTake p (3 + k.fn / 32) (ceilDiv n 64) else c.dramCharge p [(a, n)]

/-- The body of a load reaches its shadow: read from local memory, or with the header from the host. A line that cannot be
read leaves the shadow INVALID (log 60). -/
def Chip.fillShadow (x : Ctx) (env : Env) (c : Chip) (k : Cmd) (key : Nat) : Chip :=
  let src := k.fld 16 8
  let n := k.fld 24 4
  let a := src % 2 ^ 63
  let t := c.table key
  let put (c : Chip) (b : List Byte) : Chip :=
    (c.putTable key { t with image := t.image.map (fun im => { im with body := b.drop 32 }) }).putCmd
      { k with stage := 2, data := [key], ctx := b, acct := k.acct.plus { beats := ceilDiv n 64 + envBeats env, bytes64 := ceilDiv n 64 } }
  if bitAt src 63 then put c k.ctx
  else
    let r := Chip.readRuns x (c.consumer k) [(a + 32, n - 32)] (c.loadCharge k (a + 32) (n - 32))
    match r.2 with
    | some f => (r.1.putTable key { t with shadow := .invalid, loader := none }).endCmd { k with acct := k.acct.plus { beats := envBeats env } } f.code.1 f.code.2
    | none => put r.1 (c.rdBytes x a n)

/-- The second and third stages of a load whose shadow can be taken (R51, R52): the generation, the fit, then LOADING and
the body. -/
def Chip.takeShadow (x : Ctx) (env : Env) (c : Chip) (k : Cmd) : Chip :=
  let h := imgHeader k.ctx
  match objInfo h.id with
  | none => c.tableError k 2
  | some o =>
    let key := tableKey h.id (c.scopeOf k o) h.inst
    let t := c.table key
    if !c.shadowFree k then { c.putCmd { k with stage := 1 } with readied := tabDel c.readied k.id }
    else if (match t.active with
        | some im => !serialNewer 32 h.gen im.gen
        | none => false) then c.tableError k 3
    else if h.id = 0 && 2 * 2 ^ 20 < c.programBytes (c.scopeOf k o) h.inst + 16 * h.count then c.tableError k 8
    else
      Chip.fillShadow x env (c.putTable key { t with shadow := .loading, loader := some k.id, image := some { gen := h.gen, req := if h.id = 0 then h.req else [0, 0, 0], count := h.count, body := [] } }) k key

/-- The image of a load in local memory fails R11, or may not be read (R316): the status. -/
def Chip.loadRange (c : Chip) (k : Cmd) (n : Nat) : Option Nat :=
  let a := k.fld 16 8
  if bitAt a 63 then none
  else if (c.region a n).isNone then some 1
  else if !c.ctxReadable k a n then some 2 else none

/-- The header stage of a load (R51): the header, then the permission; then the rest of the image is looked for. -/
def Chip.loadHeader (x : Ctx) (env : Env) (c : Chip) (k : Cmd) (b : List Byte) : Chip :=
  let h := imgHeader b
  if !h.ok (k.fld 24 4) then c.tableError k 2
  else if (match objInfo h.id with
      | some o => !c.mayLoad k o
      | none => true) then c.tableError k 6
  else match c.loadRange k (k.fld 24 4) with
    | some st => c.endCmd k st 0
    | none =>
      let k := { k with ctx := b }
      Chip.takeShadow x env (c.putCmd k) k

/-- TABLE_LOAD of a running command (R51): the image is read from local memory under R11 and R316, or brought by the
host (R352). -/
def Chip.tableLoad (x : Ctx) (env : Env) (c : Chip) (k : Cmd) : Chip :=
  let a := k.fld 16 8
  let n := k.fld 24 4
  if k.stage ≠ 0 || !c.loadLets k then c
  else if bitAt a 63 then
    let c := (c.askHost k.fn [(a % 2 ^ 63, n)]).loadCharge k 0 n
    match hostFailure env.host, env.host with
    | none, .data b => Chip.loadHeader x env (c.count (0x010 + k.fn / 32) 4 (ceilDiv n 64)) k (b.take n)
    | some f, _ => (c.count (0x010 + k.fn / 32) 6 1).endCmd k f.1 f.2
    | none, _ => c
  else match c.loadRange k 32 with
    | some st => c.endCmd k st 0
    | none =>
      let c := (c.upset x env.upsets).loadCharge k a 32
      let x := x.upset env.upsets
      c.afterReads x env k [(a, 32)] (fun c => Chip.loadHeader x env c k (c.rdBytes x a 32))

/-- A load that waited for its shadow takes it, once it can and it is its turn on the ring, where it becomes ready as its wait ends (R51,
R318). -/
def Chip.shadowTake (x : Ctx) (c : Chip) (k : Cmd) : Chip :=
  let c := c.noteAll x
  if k.stage = 1 && c.shadowFree k && c.myTurn x k then Chip.takeShadow x Env.quiet c k else c

/-- The body checks of a load that filled its shadow (R51, stage 3): BODY_CRC, fixed entries, content. `content` gives the
rules of the object's own chapter. -/
def Chip.loadBody (content : Nat → Nat → List Byte → Bool) (c : Chip) (k : Cmd) : Chip :=
  let h := imgHeader k.ctx
  let body := k.ctx.drop 32
  let key := k.data.getD 0 0
  let t := c.table key
  let bad := if crc32c body ≠ h.crc then some 1 else if h.id = 1 && !fixedFormatsOk body then some 4
    else if !content h.id h.inst body then some 2 else none
  match bad with
  | some d => (c.putTable key { t with shadow := .invalid, loader := none }).tableError k d
  | none => ((c.putTable key { t with shadow := .valid, loader := none }).count tansyFrame 0 1).endCmd k 0 0

/-- TABLE_ACTIVATE of a running command (R51): the banks swap, the old bank drains; customers' buckets follow a new
weight table (R304). -/
def Chip.tableActivate (c : Chip) (k : Cmd) : Chip :=
  match objInfo (k.fld 16 1) with
  | none => c.endCmd k 5 16
  | some o =>
    if !c.mayLoad k o then c.tableError k 6
    else
      let key := tableKey (k.fld 16 1) (c.scopeOf k o) (k.fld 17 1)
      let t := c.table key
      match t.shadow, t.image with
      | .valid, some im =>
        if im.gen ≠ k.fld 20 4 then c.tableError k 5
        else
          let t' : Table := { active := some im, shadow := if t.active.isSome then .draining else .empty, image := t.active, loader := none }
          let c := if k.fld 16 1 = 6 then c.latchPorts else c
          let c := ((c.putTable key t').count tansyFrame 2 1).drainShadows
          (if k.fld 16 1 = 8 then c.bucketsActivated im else c).endCmd { k with acct := k.acct.plus { beats := 1 } } 0 0
      | _, _ => c.tableError k 5

/-- TABLE_LOAD (R51). -/
def execTableLoad (cmd : Nat) (env : Env) : State → Host.Outcome State Fault Refusal :=
  onOp cmd 0x80 (fun x => Chip.tableLoad x env)

/-- TABLE_LOAD_SHADOW_TAKE (R51). -/
def execTableLoadShadowTake (cmd : Nat) : State → Host.Outcome State Fault Refusal :=
  onOp cmd 0x80 Chip.shadowTake

/-- TABLE_ACTIVATE (R51). -/
def execTableActivate (cmd : Nat) : State → Host.Outcome State Fault Refusal := onOp cmd 0x81 (fun _ => Chip.tableActivate)

end Sys2Proof.Machine
end

