-- ==== Sys2Proof/Machine/Commands.lean ====
section
/-! DEFINITION. The start and the end of a command (R36-R42): COMMAND_START checks a fetched command and starts or refuses it;
COMMAND_COMMIT ends one whose outcome its own row has settled. -/

namespace Sys2Proof.Machine

/-- COMMAND_START (R36, R37, R318): one attempt to start a fetched command, with the takes and poisons that follow. -/
def Chip.commandStart (x : Ctx) (c : Chip) (id : Nat) : Chip := (c.tryStart x id).noteParts x

/-- The end of a command in its commit phase (R38-R41): its time and energy are added, then signal or poison, and record. A record
write that the host fails is lost and puts the CQ in ERROR (R349). -/
def Chip.commitEnded (x : Ctx) (c : Chip) (k : Cmd) (written : Bool) : Chip :=
  let cq := (c.sq k.queue).cq
  let q := c.cq (256 * k.fn + cq)
  let now := q.enable && !q.error && !q.full && q.waiting.isEmpty && c.recordLets k.fn
  if !written && now then ((c.finish x (c.accounted k) k.status k.detail false).recordWriteFailed k.fn cq).noteParts x
  else (c.finish x (c.accounted k) k.status k.detail true).noteParts x

/-- A load that fills its shadow is checked when it ends (R51, stage 3); its outcome is then settled. -/
def Chip.settleLoad (c : Chip) (k : Cmd) : Chip := if k.opcode = 0x80 && k.phase = .running && k.stage = 2 then c.loadBody contentOk k else c

/-- COMMAND_COMMIT (R38): a command that has not reached its commit phase goes on running. -/
def Chip.commandCommit (x : Ctx) (c : Chip) (id : Nat) (written : Bool) : Chip :=
  match c.cmd? id with
  | none => c
  | some k =>
    let c := c.settleLoad k
    match c.cmd? id with
    | some k => if k.phase = .ended then Chip.commitEnded x c k written else c
    | none => c

/-- COMMAND_START (R36). -/
def execCommandStart (cmd : Nat) : State → Host.Outcome State Fault Refusal := onChip (fun x c => Chip.commandStart x c cmd)

/-- COMMAND_COMMIT (R38); `written` says whether the host takes the record's write (R349). -/
def execCommandCommit (cmd : Nat) (written : Bool) : State → Host.Outcome State Fault Refusal :=
  onChip (fun x c => Chip.commandCommit x c cmd written)

end Sys2Proof.Machine
end

