-- ==== Sys2Proof/Machine/Engine.lean ====
section
/-! DEFINITION. The stack engines' own commands (chapter 12): ENG_MOVE, ENG_KV_APPEND and ENG_ATTEND. -/

namespace Sys2Proof.Machine

/-! ### ENG_MOVE (R281) -/

/-- ENG_MOVE of a running command: the elements move as those of DMA_MOVE do (R135-R138). Its outputs are staged: one that fails
writes nothing (R39), but that poison it read poisons the destination lines fed by it (R409). -/
def Chip.engMove (x : Ctx) (env : Env) (c : Chip) (k : Cmd) : Chip :=
  let p := (c.cmdPart k).getD 16
  let c := c.upset x env.upsets
  let x := x.upset env.upsets
  let mode := k.fld 16 1
  let s := c.engSrc p k
  let d := c.engDst p k
  let t := bitAt mode 0
  let da := k.fld 56 8
  let delta : Option Delta := if bitAt mode 1 then some (c.readDelta x p k da) else none
  let idxRuns : List (Nat × Nat) := delta.elim [] (fun dl => [dl.idxRun])
  let tileRuns : List (Nat × Nat) := delta.elim [] Delta.tileRuns
  let own (a : Nat) : Bool := isEng a
  if !(c.dramLets p (s.runs ++ idxRuns ++ tileRuns) && c.dramLets p d.runs) then c
  else
    let idx := Chip.readRuns x (c.consumer k) idxRuns c
    let fail := firstFail [ idx.2.map ReadFault.code, failIf (delta.any (fun dl => dl.indexBad s.rows s.rowLen)) 5 56, c.tilesFail p none tileRuns,
      failIf (tileRuns.any (fun r => !c.inStack k.inst r)) 2 0 ]
    let c := idx.1
    match fail with
    | some f => c.endCmd k f.1 f.2
    | none =>
    let rmw := partRuns d.runs
    let lines := ((s.runs ++ tileRuns ++ rmw).flatMap (fun r => linesOf r.1 r.2)).eraseDups
    let (c, x) := c.onRead x (some p) lines
    let poisoned := ((s.runs.flatMap (fun r => linesOf r.1 r.2)).eraseDups).filter (fun a => c.lineHealth x a = .poison)
    let r := Chip.readLines x (c.consumer k) (lines.filter (fun a => !poisoned.contains a)) c
    match r.2 with
    | some f => r.1.endCmd k f.code.1 f.code.2
    | none =>
      let c := poisoned.foldl (fun c a => (c.tierLine a false).poisonRead x a (c.consumer k)) r.1
      let rows := (List.range d.rows).map (moveRow s d (c.rd x) t (k.sfld 18) (k.sfld 19) delta)
      let inBytes := runBytes (s.runs ++ k.startRuns ++ idxRuns ++ tileRuns)
      let outBytes := runBytes d.runs
      let c := if poisoned.isEmpty then (List.range d.rows).foldl (fun c i =>
          let q := rows.getD i ([], [], false)
          (c.wr x (d.row i) q.1).wr x (d.aux + i * d.auxRow) q.2.1) (Chip.coverRuns x d.runs c)
        else (poisonedLines s d (fun a => poisoned.contains a) t (k.copyMove s d)).foldl (fun c l => c.stage (.health (c.key x.fuse l / 64) .poison)) c
      let c := (c.tierWrites d.runs).dramCharge p (s.runs ++ idxRuns ++ tileRuns) |>.dramCharge p d.runs
      let rate := if (s.runs ++ d.runs).all (fun r => isEng r.1 || (match c.region r.1 1 with
        | some .hbm => true
        | _ => false)) && (own s.addr != own d.addr) then 2048 else 512
      let k := { k with acct := k.acct.plus { beats := ceilDiv (max inBytes outBytes) rate + env.feed + env.drain, bytes64 := ceilDiv inBytes 64, nf := rows.any (fun q => q.2.2) } }
      if poisoned.isEmpty then c.endCmd k 0 0 else c.endCmd k 8 0

/-! ### ENG_KV_APPEND (R288) -/

/-- ENG_KV_APPEND of a running command: the rows are copied into their planes and every position's tag is set to the open
round. -/
def Chip.kvAppend (x : Ctx) (env : Env) (c : Chip) (k : Cmd) : Chip :=
  let p := (c.cmdPart k).getD 16
  match c.serveOf p with
  | none => c.endCmd k 5 32
  | some s =>
    let f := c.fmt k p s.fmtCode
    let n := k.fld 25 1
    let nkv := k.fld 23 1
    let pos := k.fld 28 4
    let rb := s.rowBytes f
    let sb := f.scaleBytes (s.f 8 2)
    if !(s.plan.isSome && k.fld 32 4 = s.round) then c.endCmd k 5 32
    else
      let src (kv : Nat) : Nat := engAddr k.inst (k.fld (40 + 4 * kv) 4)
      let runs := [(src 0, n * nkv * (rb + sb)), (src 1, n * nkv * (rb + sb))]
      let c := c.upset x env.upsets
      let x := x.upset env.upsets
      let page := c.appendPage p k s
      let dst := c.appendRuns p k s
      if !c.dramLets p dst then c
      else
        c.afterIo x env k runs dst (fun c =>
          let c := (List.range n).foldl (fun c i =>
            let c := c.wr x (page i + 4 * ((pos + i) % 256)) (leBytes 4 s.round)
            (List.range nkv).foldl (fun c h => [0, 1].foldl (fun c kv =>
              let b := c.headPlane p k s (page i) h kv
              let r := i * nkv + h
              (c.wr x (b + (pos + i) % 256 * rb) (c.rdBytes x (src kv + r * rb) rb)).wr x (b + 256 * rb + (pos + i) % 256 * sb)
                (c.rdBytes x (src kv + n * nkv * rb + r * sb) sb)) c) c) c
          let bytes := 2 * n * nkv * (rb + sb) + 4 * n
          let c := (c.tierWrites dst).dramCharge p dst
          c.endCmd { k with acct := k.acct.plus { beats := ceilDiv bytes 2048 + env.feed + env.drain, bytes64 := ceilDiv bytes 64 } } 0 0)

/-! ### ENG_ATTEND (R289-R291) -/

/-- A partial result of a query head (R290): the anchor A, the sum l, the vector o, and whether it is the NaN of a
non-finite score or value. -/
structure AttPart where
  a : Int
  l : Nat
  o : List Nat
  nan : Bool := false
deriving DecidableEq, Repr

/-- fold of R290. -/
def attFold (st pt : Option AttPart) : Option AttPart :=
  match st, pt with
  | none, pt => pt
  | st, none => st
  | some s, some t =>
    let a := max s.a t.a
    let f1 := expQ31 (s.a - a)
    let f2 := expQ31 (t.a - a)
    let w1 := toF32 (.num false f1 (-31))
    let w2 := toF32 (.num false f2 (-31))
    some
      { a := a, l := rneShift (s.l * f1) (-31) + rneShift (t.l * f2) (-31)
        o := List.zipWith (fun u v => fadd (fmul u w1) (fmul v w2)) s.o t.o, nan := s.nan || t.nan }

/-- page_part of R290 for one query head: `kRow i` and `vRow i` are the K and V rows of position `i` of the page, `ok i`
whether it is readable. A row that is not readable enters as zeros. -/
def attPage (hd : Nat) (accS accO : Int) (p : Nat) (scale : Nat) (pf : Fmt) (ok : Nat → Bool) (qv : Nat → Val) (kRow vRow : Nat → Nat → Val) :
    Option AttPart × List MmOut :=
  let rows := (List.range 256).filter ok
  if rows.isEmpty then (none, [])
  else
    let spec (k : Nat) (s : Int) : MmSpec := { k := k, accScale := s, p := p, tOut := 0, int32 := false }
    let zs := rows.map (fun i => (i, mmOutput (spec hd accS) AccState.start qv (kRow i)))
    let z := zs.map (fun e => (e.1, toF32 e.2.val))
    let bad := z.any (fun e => f32.nonFinite e.2) || rows.any (fun i => (List.range hd).any (fun j => !(vRow i j).finite))
    if bad then (some { a := 0, l := 2 ^ 31, o := List.replicate hd f32.canonNan, nan := true }, zs.map Prod.snd)
    else
      let ys := z.map (fun e => (e.1, logitFix e.2 scale))
      let a := ys.foldl (fun m e => max m e.2) ((ys.getD 0 (0, 0)).2)
      let es := ys.map (fun e => (e.1, expQ31 (e.2 - a)))
      let l := es.foldl (fun t e => t + e.2) 0
      let raw := (List.range 256).map (fun i => match tabFind es i with
        | some e => Val.num false e (-31)
        | none => Val.zero)
      let enc := encodeRow pf raw
      let w (i : Nat) : Val := rowElem pf (fun a => if a < enc.1.length then enc.1.getD a 0 else enc.2.1.getD (a - enc.1.length) 0) 0 enc.1.length i
      let os := (List.range hd).map (fun j => mmOutput (spec 256 accO) AccState.start w (fun i => if ok i then vRow i j else Val.zero))
      (some { a := a, l := l, o := os.map (fun q => toF32 q.val) }, zs.map Prod.snd ++ os)

/-- The bytes of a partial record (R291). `fa` and `fl` stand for the A and l of a NaN head, which the spec does not give. -/
def attRecord (hd : Nat) (q : Option AttPart) (fa fl : Nat) : List Byte :=
  match q with
  | none => leBytes 4 0x80000000 ++ leBytes (12 + 4 * hd) 0
  | some t =>
    let (a, l) := if t.nan then (fa % 2 ^ 31, fl) else (unsignedOf 32 t.a, t.l)
    leBytes 4 a ++ leBytes 4 0 ++ leBytes 8 l ++ t.o.flatMap (leBytes 4)

/-- A partial record read back (R291). -/
def attOfBytes (hd : Nat) (b : List Byte) : Option AttPart :=
  let w (off n : Nat) : Nat := leNat ((b.drop off).take n)
  if w 0 4 = 0x80000000 then none
  else some { a := signedOf 32 (w 0 4), l := w 8 8, o := (List.range hd).map (fun j => w (16 + 4 * j) 4) }

/-- A partial result with an injected non-finite value put in (R417). -/
def attInject (inj : Option (Nat × Val)) (hd r : Nat) (q : Option AttPart) : Option AttPart :=
  match inj with
  | none => q
  | some (i, v) => if i / (max hd 1) = r then q.map (fun t => { t with o := listSet t.o (i % (max hd 1)) (toF32 v) }) else q

/-- The output elements of a query head (R290). -/
def attOut (hd : Nat) (q : Option AttPart) : List Val :=
  match q with
  | none => List.replicate hd Val.zero
  | some t => if t.nan then List.replicate hd .nan else t.o.map (fun o => ofF32 (fdiv o (toF32 (.num false t.l (-31)))))

/-- ENG_ATTEND of a running command (R289-R291). Each engine reads its own pages with its own copy of Q; the parts fold in
ascending local page number. -/
def Chip.attend (x : Ctx) (env : Env) (c : Chip) (k : Cmd) : Chip :=
  let p := (c.cmdPart k).getD 16
  match c.serveOf p with
  | none => c.endCmd k 5 36
  | some s =>
    let slot := k.fld 16 2
    let q := s.req slot
    let hd := s.f 8 2
    let mode := k.fld 28 1
    let foldOnly := bitAt mode 3
    let partialOut := bitAt mode 2
    let nh := k.fld 23 1 * k.fld 24 1
    let rows := k.queryRows
    let qf := c.fmt k p (k.fld 20 1 % 16)
    let of := c.fmt k p (k.fld 20 1 / 16)
    let pf := c.fmt k p (k.fld 21 1 % 16)
    let f := c.fmt k p s.fmtCode
    let rb := s.rowBytes f
    let sb := f.scaleBytes hd
    if !(s.plan.isSome && k.fld 36 4 = s.round) then c.endCmd k 5 36
    else
      let c := c.upset x env.upsets
      let x := x.upset env.upsets
      let rd := c.rd x
      let pages := if foldOnly then [] else q.pages.filter (fun e => e.2 / 2 ^ 30 = 1)
      let addr (h : Nat) : Nat := c.setAddr p s f h + k.fld 18 1 * s.pageBytes f
      let plane (h head kv : Nat) : Nat := addr h + s.planeOff f (k.fld 19 1) head kv
      let pageRuns := c.attendRuns p k s
      let b := c.attendBytes p k s
      let qRuns := (c.attendEngines p k).map (fun e => (engAddr e (k.fld 40 4), b.1))
      let runs := pages.flatMap (fun e => pageRuns e.2)
      if !c.dramLets p runs then c
      else c.afterIo x env k (qRuns ++ runs) [(engAddr k.inst (k.fld 44 4), b.2)] (fun c =>
        let one (r : Nat) : Option AttPart × List MmOut :=
          let i := r / nh
          let head := k.fld 22 1 + r % nh / k.fld 24 1
          let at_ := k.fld 48 4 + i
          if foldOnly then
            ((List.range (s.f 11 1)).foldl (fun st m =>
              attFold st (attOfBytes hd (c.rdBytes x (engAddr k.inst (k.fld 40 4 + (m * rows + r) * s.partBytes)) s.partBytes))) none, [])
          else
            pages.foldl (fun (acc : Option AttPart × List MmOut) (e : Nat × Nat) =>
              let eng := handleStack e.2
              let qb := engAddr eng (k.fld 40 4)
              let base := (e.1 * max 1 (s.f 11 1) + s.f 12 2) * 256
              let ok (i : Nat) : Bool := base + i ≤ at_ && (base + i < q.kvLen || c.rdNat x (addr e.2 + 4 * i) 4 = s.round)
              let row (kv i : Nat) (j : Nat) : Val := rowElem f rd (plane e.2 head kv + i * rb) (plane e.2 head kv + 256 * rb + i * sb) j
              let t := attPage hd (k.sfld 26) (k.sfld 27) (2 ^ (mode % 4)) (k.fld 32 4) pf ok
                (fun j => rowElem qf rd (qb + r * qf.rowBytes hd) (qb + rows * qf.rowBytes hd + r * qf.scaleBytes hd) j) (row 0) (row 1)
              (attFold acc.1 t.1, acc.2 ++ t.2)) (none, [])
        let res := (List.range rows).map one
        let ob := engAddr k.inst (k.fld 44 4)
        let inj := c.nfInject { blk := .cowslip, inst := k.inst } k (rows * hd)
        let c := c.nfDone { blk := .cowslip, inst := k.inst } inj
        let nan := res.any (fun e => e.1.any (fun (t : AttPart) => t.nan)) || (partialOut && inj.isSome)
        let enc := (List.range rows).map (fun r => encodeRow of (injectAt inj hd r ((attOut hd (res.getD r (none, [])).1).map (Val.scale (k.sfld 29)))))
        let c := if partialOut then
            ((List.range rows).foldl (fun c r => c.wr x (ob + r * s.partBytes)
              (attRecord hd (attInject inj hd r (res.getD r (none, [])).1) (Config.freeNat (c.free + 2 * r)) (Config.freeNat (c.free + 2 * r + 1)))) c).draw (2 * rows)
          else (List.range rows).foldl (fun c r =>
            let e := enc.getD r ([], [], false)
            (c.wr x (ob + r * of.rowBytes hd) e.1).wr x (ob + rows * of.rowBytes hd + r * of.scaleBytes hd) e.2.1) c
        let c := c.dramCharge p runs
        let engines := c.attendEngines p k
        let read (e : Nat) : Nat := runBytes' ((pages.filter (fun u => handleStack u.2 = e)).flatMap (fun u => pageRuns u.2))
        let beats := (engines.map (fun e => ceilDiv (read e) 2048)).foldl max 0 + ceilDiv b.2 4096
        let outs := res.flatMap Prod.snd
        let c := engines.foldl (fun c e => ((c.count (0x080 + e) 0 (2 * beats)).count (0x080 + e) 1 (2 * env.feed)).count (0x080 + e) 2 (2 * env.drain)) c
        let c := (c.count (0x080 + k.inst) 5 (outs.foldl (fun n q => n + q.run.log.length) 0))
        let acct := outsAcct outs (beats + env.feed + env.drain) (runBytes' runs + b.2) (nan || (!partialOut && enc.any (fun e => e.2.2)))
        c.endCmd { k with acct := k.acct.plus acct } 0 0)
where
  /-- Bytes of runs. -/
  runBytes' (runs : List (Nat × Nat)) : Nat := runs.foldl (fun n r => n + r.2) 0

/-- ENG_MOVE (R281). -/
def execEngMove (cmd : Nat) (env : Env) : State → Host.Outcome State Fault Refusal := onOp cmd 0x60 (fun x => Chip.engMove x env)

/-- ENG_KV_APPEND (R288). -/
def execEngKvAppend (cmd : Nat) (env : Env) : State → Host.Outcome State Fault Refusal := onOp cmd 0x61 (fun x => Chip.kvAppend x env)

/-- ENG_ATTEND (R289). -/
def execEngAttend (cmd : Nat) (env : Env) : State → Host.Outcome State Fault Refusal := onOp cmd 0x62 (fun x => Chip.attend x env)

end Sys2Proof.Machine
end

