-- ==== Sys2Proof/Machine/Events.lean ====
section
/-! DEFINITION. NOP, EVENT_RESET and the EVT page (R35, R44-R47). -/

namespace Sys2Proof.Machine

/-- The requester may signal and reset an entry through the EVT page (R46, R426): the management controller any, a
physical function those of partitions bound to it or to one of its virtual functions. -/
def Chip.mayEvent (c : Chip) (req : Requester) (i : Nat) : Bool :=
  match req with
  | .mgmt => true
  | .jtag => false
  | .vf _ _ => false
  | .pf x => (match (c.event i).owner with
    | some p => (match c.part? p with
      | some pt => pt.fn / 32 = x
      | none => false)
    | none => false)

/-- The EVT page. -/
def evtPage : Page := { blk := .evt, inst := 0 }

/-- A write of EVT.SIGNAL. A virtual function has no view of the page: its write reaches nothing (R342). -/
def Chip.evtSignal (x : Ctx) (c : Chip) (req : Requester) (v : Nat) : Chip :=
  match req with
  | .vf _ _ => c
  | _ =>
    if !c.writeReaches x.fuse req evtPage then c
    else if c.mayEvent req (bitField v 31 16) then (c.signal x (bitField v 31 16) (v % 2 ^ 16)).1
    else c.deny evtPage

/-- A write of EVT.RESET. -/
def Chip.evtReset (x : Ctx) (c : Chip) (req : Requester) (v : Nat) : Chip :=
  match req with
  | .vf _ _ => c
  | _ =>
    if !c.writeReaches x.fuse req evtPage then c
    else
      let c := c.rsvd evtPage v 0xFFFF0000
      let i := v % 2 ^ 16
      if c.mayEvent req i then
        let c := (c.meetEvent x i).resetEvent i
        settle c.settleFuel x [i] c
      else c.deny evtPage

/-- A command ends and is retired in one step: NOP and EVENT_RESET commit at once (R35, R47). -/
def Chip.finishNow (x : Ctx) (c : Chip) (k : Cmd) : Chip :=
  c.finish x (c.accounted { k with phase := .ended }) 0 0 true

/-- EVT_SIGNAL (R46). -/
def execEvtSignal (r : Requester) (v : Nat) : State → Host.Outcome State Fault Refusal := onChip (fun x c => Chip.evtSignal x c r v)

/-- EVT_RESET (R46). -/
def execEvtReset (r : Requester) (v : Nat) : State → Host.Outcome State Fault Refusal := onChip (fun x c => Chip.evtReset x c r v)

/-- NOP (R35): does nothing, then commits. -/
def execNop (cmd : Nat) : State → Host.Outcome State Fault Refusal := onOp cmd 0x00 Chip.finishNow

/-- EVENT_RESET (R47): the reset, then the command's own signal and record. -/
def execEventReset (cmd : Nat) : State → Host.Outcome State Fault Refusal :=
  onOp cmd 0x01 (fun x c k => Chip.finishNow x ((c.meetEvent x (k.fld 16 2)).resetEvent (k.fld 16 2)) k)

end Sys2Proof.Machine
end

