-- ==== Sys2Proof/Machine/Optim.lean ====
section
/-! DEFINITION. The optimiser (R204-R209): programs over lane registers, and OPT_UPDATE with its stochastic rounding
(R73), working copies (R71) and ratio slots (R220). -/

namespace Sys2Proof.Machine

/-- A binary32 result with the canonical NaN (R204). -/
def canonF32 (b : Nat) : Nat := if ofF32 b = .nan then f32.canonNan else b % 2 ^ 32

/-- MAX and MIN: NaN if either source is NaN; equal values, −0 and +0 among them, give the first (R204). -/
def optMax (max_ : Bool) (a b : Nat) : Nat :=
  if ofF32 a = .nan || ofF32 b = .nan then f32.canonNan
  else if (if max_ then (ofF32 a).lt (ofF32 b) else (ofF32 b).lt (ofF32 a)) then b else a

/-- The lanes of a run and its effects (R205). -/
structure OptRun where
  lanes : List Nat
  m : Nat
  v : Nat
  delta : Nat
deriving DecidableEq, Repr

/-- One instruction (R204). -/
def OptRun.step (s : OptRun) (i : OptInstr) : OptRun :=
  let r (n : Nat) : Nat := s.lanes.getD n 0
  let put (v : Nat) : OptRun := { s with lanes := listSet s.lanes i.d (canonF32 v) }
  match i.op with
  | 0x01 => put (fadd (r i.a) (r i.b))
  | 0x02 => put (fsub (r i.a) (r i.b))
  | 0x03 => put (fmul (r i.a) (r i.b))
  | 0x04 => put (ffma (r i.a) (r i.b) (r i.cc))
  | 0x05 => put (fdiv (r i.a) (r i.b))
  | 0x06 => put (fsqrt (r i.a))
  | 0x07 => put (optMax true (r i.a) (r i.b))
  | 0x08 => put (optMax false (r i.a) (r i.b))
  | 0x09 => put (r i.a % 2 ^ 31)
  | 0x0A => put i.imm
  | 0x0B => put (if Val.zero.lt (ofF32 (r i.a)) then r i.b else r i.cc)
  | 0x10 => { s with m := canonF32 (r i.a) }
  | 0x11 => { s with v := canonF32 (r i.a) }
  | 0x12 => { s with delta := canonF32 (r i.a) }
  | _ => s

/-- A program run for one element (R205). -/
def optRun (prog : List OptInstr) (g l1 m v : Nat) (scalars : List Nat) : OptRun :=
  prog.foldl OptRun.step { lanes := [g, l1, m, v] ++ scalars ++ List.replicate 24 0, m := m, v := v, delta := 0 }

/-- What an update makes of one element: the new master's bits at its precision, its exact value, m, v, Δ and the master
as FP32. -/
structure OptOut where
  bits : Nat
  val : Val
  m : Nat
  v : Nat
  delta : Nat
  old : Nat
deriving DecidableEq, Repr

/-- The exact value of a new master's bits: FP32, or an FP32X head and tail (R70). -/
def masterVal (x : Bool) (bits : Nat) : Val := if x then ofF32x (bits / 2 ^ 16) (bits % 2 ^ 16) else ofF32 bits

/-- One element updated (R208). -/
def optElement (prog : List OptInstr) (x : Bool) (scale clip gr : Nat) (master : Val) (m v : Nat) (scalars : List Nat) (u : Nat) : OptOut :=
  let g := fmul (fmul gr scale) clip
  let l1 := toF32 master
  let r := optRun prog g l1 m v scalars
  let bits := stochasticRound (if x then 39 else 23) (master.add (ofF32 r.delta)) u
  { bits := bits, val := masterVal x bits, m := r.m, v := r.v, delta := r.delta, old := l1 }

/-- NF_SEEN of one element (R208). -/
def OptOut.nf (o : OptOut) : Bool := f32.nonFinite o.delta || f32.nonFinite o.m || f32.nonFinite o.v || !o.val.finite

/-- A slot's sums with one more element (R208, R220). -/
def SlotSum.add (s : SlotSum) (o : OptOut) : SlotSum :=
  let d := fmul o.delta o.delta
  let w := fmul o.old o.old
  { d := (s.d + accUnits d) % 2 ^ 320, w := (s.w + accUnits w) % 2 ^ 320, nf := s.nf || f32.nonFinite d || f32.nonFinite w }

/-- The elements of an update, computed from memory as it is (R208). -/
def Chip.optElements (c : Chip) (x : Ctx) (p : Nat) (k : Cmd) (im : Image) (t : TensorCtx) : List OptOut :=
  let g := c.gate p
  let off := k.fld 24 4
  let prog := optProgram im
  let st := optStates im
  let xf := t.masterFmt = 0xC
  let seed := match c.part? p with
    | some pt => pt.seed
    | none => 0
  let word (a : Nat) : Nat := c.rdNat x a 4
  let scalars := (List.range 4).map (fun i => k.fld (40 + 4 * i) 4)
  let scale := toF32 (.num false 1 (-g.ls))
  (List.range (k.fld 28 4)).map (fun i =>
    let e := off + i
    let head := word (t.master + 4 * e)
    let master := if xf then ofF32x head (c.rdNat x (t.tail + 2 * e) 2) else ofF32 head
    let u := (srbits seed t.tensor (t.base + e) g.step).toNat / 2 ^ 32
    optElement prog xf scale g.clip (word (t.g + 4 * e)) master (if 1 ≤ st then word (t.m + 4 * e) else 0) (if st = 2 then word (t.v + 4 * e) else 0) scalars u)

/-- OPT_UPDATE of a running command (R207-R209, R217). The gate's state decides; a READY step's update commits masters,
tails, states, working copy and slot sums together. It holds while the partition's regulators have no level left. -/
def Chip.optUpdate (x : Ctx) (env : Env) (c : Chip) (k : Cmd) : Chip :=
  let p := (c.cmdPart k).getD 16
  let g := c.gate p
  let c0 := c
  let c := c.meets x env k
  let x := x.upset env.upsets
  let t := TensorCtx.ofBytes k.ctx
  let off := k.fld 24 4
  let n := k.fld 28 4
  let wcf := c.fmt k p (t.wcFmt % 16)
  if g.state = .skipped then c.endCmd k 0x0F 0
  else if g.state = .abandoned then c.endCmd k 0x10 0
  else match c.imageFor k (tableKey 4 p (k.fld 16 1 % 16)) with
    | none => c.endCmd k 5 16
    | some im =>
      let st := optStates im
      let xf := t.masterFmt = 0xC
      let runs := t.runs wcf st off n
      let wcRun := (t.wc + wcf.rowBytes off, wcf.rowBytes n)
      let scRun := (t.wcScale + off / 32, ceilDiv n 32)
      let outRuns := if wcf.isMx then [wcRun, scRun] else [wcRun]
      let reads := (runs.map Prod.snd).filter (fun r => !outRuns.contains r)
      let writes := (runs.filter Prod.fst).map Prod.snd
      if !(c0.dramLets p reads && c0.dramLets p writes) then c0
      else c.afterIo x env k reads writes (fun c =>
        let es := c.optElements x p k im t
        let inj := c.nfInject { blk := .meadow, inst := k.inst } k n
        let enc := encodeRow wcf (injectAt inj n 0 (es.map (fun o => o.val.scale t.tWc)))
        let c := c.nfDone { blk := .meadow, inst := k.inst } inj
        let c := c.wrUnspecified x (scratchAddr k.inst (k.fld 56 4)) (64 * ceilDiv (17 * n) 64)
        let c := c.wr x (t.master + 4 * off) (es.map (fun o => leBytes 4 (if xf then o.bits / 2 ^ 16 else o.bits))).flatten
        let c := if xf then c.wr x (t.tail + 2 * off) (es.map (fun o => leBytes 2 o.bits)).flatten else c
        let c := if 1 ≤ st then c.wr x (t.m + 4 * off) (es.map (fun o => leBytes 4 o.m)).flatten else c
        let c := if st = 2 then c.wr x (t.v + 4 * off) (es.map (fun o => leBytes 4 o.v)).flatten else c
        let c := c.wr x wcRun.1 enc.1
        let c := if wcf.isMx then c.wr x scRun.1 enc.2.1 else c
        let slot := k.fld 18 2 % 4096
        let c := if bitAt (k.fld 17 1) 0 then
            (let g := c.gate p
             c.putGate p { g with slots := tabSet g.slots slot (es.foldl SlotSum.add ((tabFind g.slots slot).getD { d := 0, w := 0, nf := false })) })
          else c
        let c := c.portTraffic p k.inst reads writes
        let beats := ceilDiv (runBytes reads) 256 + ceilDiv (runBytes writes) 256 + env.feed + env.drain
        let acct : Acct := { beats := beats, bytes64 := ceilDiv (runBytes reads + runBytes writes) 64, nf := es.any OptOut.nf || enc.2.2 }
        c.endCmd { k with acct := k.acct.plus acct } 0 0)

/-- OPT_UPDATE (R208). -/
def execOptUpdate (cmd : Nat) (env : Env) : State → Host.Outcome State Fault Refusal :=
  onOp cmd 0x1E (fun x => Chip.optUpdate x env)

end Sys2Proof.Machine
end

