-- ==== Sys2Proof/Machine/Tiers.lean ====
section
/-! DEFINITION. The memory tiers' own steps (chapters 07, 17): stack-local windows (R149), refresh and row closing (R151),
patrol scrub (R154) and the scrub of on-chip SRAM (R408). -/

namespace Sys2Proof.Machine

/-- The HBMMAP page. -/
def hbmmapPage : Page := { blk := .hbmmap, inst := 0 }

/-- A window slot. -/
def Chip.window (c : Chip) (i : Nat) : Window := tabGet {} c.tiers.windows i

/-- A window slot replaced. -/
def Chip.putWindow (c : Chip) (i : Nat) (w : Window) : Chip := { c with tiers.windows := tabSet c.tiers.windows i w }

/-- The 4 KiB pages of HBM (R10). -/
def hbmPages : Nat := 226492416

/-- The cause that refuses an ENABLE of 1 (R149, R164), 0 if none. -/
def Chip.windowErr (c : Chip) (i : Nat) : Nat :=
  let w := c.window i
  if w.base % 12 ≠ 0 || w.size = 0 then 1
  else if hbmPages < w.base + 12 * w.size then 2
  else if c.tiers.windows.any (fun e => e.1 ≠ i && e.2.enable && overlap w.base (12 * w.size) e.2.base (12 * e.2.size)) then 3
  else if c.partRunning (i / 4) then 4 else 0

/-- A write of WIN_CTRL by a requester permitted to (R149): the slot its WIN_SEL names. -/
def Chip.winCtrl (c : Chip) (i : Nat) (on : Bool) : Chip :=
  let w := c.window i
  if on then
    (if w.enable then c
      else if c.windowErr i ≠ 0 then c.putWindow i { w with err := c.windowErr i } else c.putWindow i { w with enable := true })
  else if c.partRunning (i / 4) then c.putWindow i { w with err := 4 } else c.putWindow i { w with enable := false }

/-- WIN_ENABLE: a write of WIN_CTRL.ENABLE (R33, R149). -/
def Chip.winEnable (x : Ctx) (c : Chip) (r : Requester) (on : Bool) : Chip :=
  if !c.writeReaches x.fuse r hbmmapPage then c
  else if !c.mayWrite r hbmmapPage 0x10C then c.deny hbmmapPage
  else c.winCtrl (c.selOf r.code hbmmapPage.frame 0x100 % 64) on

/-- A tier unit is in operation: trained, zeroed, its memory not held, no self-refresh. -/
def Chip.tierRuns (c : Chip) (u : Nat) : Bool :=
  let t := c.tier u
  t.trained && t.zeroDone && !t.selfRefresh && !c.memHeld && !c.power.off

/-- The page frame of a tier unit. -/
def tierFrame (u : Nat) : Nat := if u < 16 then 0x060 + u else 0x070 + (u - 16)

/-- The open rows that a refresh of a bank closes: that bank's; in a DDR5 channel the same bank of every bank group (R151, R157). -/
def Tier.refreshed (t : Tier) (u bank : Nat) : Tier :=
  if u < 16 then { t with open_ := tabDel t.open_ bank }
  else { t with open_ := t.open_.filter (fun e => !(e.1 % 2 = bank % 2 && e.1 / 16 = bank / 16)) }

/-- The refresh of a bank is due (R151): postponed behind pending requests up to eight intervals, else issued with those
owed. A channel whose DIMM runs hot doubles its rate (R165). `ecs` is what a stack reports of its on-die corrections (R152, R163). -/
def Chip.refreshDue (c : Chip) (u bank : Nat) (pending hot : Bool) (ecs : Nat) : Chip :=
  if !c.tierRuns u then c
  else
    let c := if u < 16 && ecs ≠ 0 then c.count (tierFrame u) 4 ecs else c
    let t := c.tier u
    let c := if 16 ≤ u && hot && !t.ref2x then c.fire (tierFrame u) 4 else c
    let t := if 16 ≤ u then { t with ref2x := hot } else t
    let owed := tabGet 0 t.postponed bank
    if pending && owed < 8 then c.putTier u { t with postponed := tabSet t.postponed bank (owed + 1) }
    else if pending then (c.putTier u (t.refreshed u bank)).count (tierFrame u) 7 1
    else (c.putTier u { t.refreshed u bank with postponed := tabDel t.postponed bank }).count (tierFrame u) 7 (owed + 1)

/-- A row idle for CLOSE_IDLE cycles closes (R151). -/
def Chip.rowClose (c : Chip) (u bank : Nat) : Chip :=
  if c.reg (tierFrame u) 0x104 32 = 0 then c else c.putTier u { c.tier u with open_ := tabDel (c.tier u).open_ bank }

/-- Lines of a tier unit. -/
def Chip.tierSize (c : Chip) (u : Nat) : Nat :=
  if u < 16 then 72 * 2 ^ 30 / 64
  else let n := max 1 c.tiers.ddrChannels.length
    c.tiers.ddrBytes / n / 64

/-- The local address of a unit-local byte: the inverse of R146 and R157. -/
def Chip.tierAddr (c : Chip) (u b : Nat) : Nat :=
  if u < 16 then c.hbmAddr u b
  else
    let n := max 1 c.tiers.ddrChannels.length
    let i := (c.tiers.ddrChannels.findIdx? (fun ch => ch = u - 16)).getD 0
    0x40000000000 + (b / 4096 * n + i) * 4096 + b % 4096

/-- PATROL_SCRUB_READ (R154): the next line is read and corrected or poisoned; a pass ends at the last line, and with it the
rows' counts. -/
def Chip.patrol (x : Ctx) (c : Chip) (u : Nat) (us : List Upset) : Chip :=
  if !c.tierRuns u || c.reg (tierFrame u) 0x108 24 = 0 then c
  else
    let c := c.upset x us
    let x := x.upset us
    let t := c.tier u
    let a := c.tierAddr u (64 * t.scrubPos)
    let c := (Chip.readLines x { page := none, part := none, opcode := 0, target := 0 } [a] c).1
    let t := c.tier u
    if t.scrubPos + 1 < c.tierSize u then c.putTier u { t with scrubPos := t.scrubPos + 1, scrubActive := true }
    else c.putTier u { t with scrubPos := 0, scrubActive := false, rowCe := [] }

/-- An on-chip SRAM's domain is on. -/
def Chip.sramOn (c : Chip) (a : Nat) : Bool :=
  match c.store a 1 with
  | some (.scratch n) => (c.domain (n / 2)).on
  | some (.wide n) => (c.domain (n / 2)).on
  | some (.engine s) => (c.domain (48 + s)).on
  | some .bridge => (c.domain 60).on
  | some (.keep u) => (c.domain (if u < 96 then u / 2 else 48 + (u - 96))).on
  | some (.progs n) => (c.domain (n / 2)).on
  | some .rows => (c.domain 60).on
  | some .event => true
  | some (.hub _) => true
  | _ => false

/-- SRAM_SCRUB (R408): one line of an on-chip SRAM at a local address, or at the model's own of a store that has none. An error that the
code of the Tansy store, the scheduler state or the hub's queue state does not correct is fatal (R358). -/
def Chip.sramScrub (x : Ctx) (c : Chip) (a : Nat) (us : List Upset) : Chip :=
  if !c.sramOn a || c.power.off then c
  else
    let c := c.upset x us
    let x := x.upset us
    let b := 64 * (a / 64)
    let bad := match c.lineHealth x b with
      | .ue => true
      | .poison => true
      | _ => false
    match c.store a 1 with
    | some .event => c.meetEvent x (if a < 2 ^ 44 then (a - 0x21800000000) / 16 else (a - evtAddr 0) / 16)
    | some (.hub n) => if bad then c.hubFatal (n + 1) else (Chip.readLines x { page := none, part := none, opcode := 0, target := 0 } [b] c).1
    | _ => (Chip.readLines x { page := none, part := none, opcode := 0, target := 0 } [b] c).1

/-- WIN_ENABLE (R149). -/
def execWinEnable (r : Requester) (on : Bool) : State → Host.Outcome State Fault Refusal := onChip (fun x c => Chip.winEnable x c r on)

/-- REFRESH_DUE (R151). -/
def execRefreshDue (u bank : Nat) (pending hot : Bool) (ecs : Nat) : State → Host.Outcome State Fault Refusal :=
  onChip (fun _ c => c.refreshDue u bank pending hot ecs)

/-- ROW_IDLE_CLOSE (R151). -/
def execRowIdleClose (u bank : Nat) : State → Host.Outcome State Fault Refusal := onChip (fun _ c => c.rowClose u bank)

/-- PATROL_SCRUB_READ (R154). -/
def execPatrolScrubRead (u : Nat) (us : List Upset) : State → Host.Outcome State Fault Refusal := onChip (fun x c => Chip.patrol x c u us)

/-- SRAM_SCRUB (R408). -/
def execSramScrub (a : Nat) (us : List Upset) : State → Host.Outcome State Fault Refusal := onChip (fun x c => Chip.sramScrub x c a us)

end Sys2Proof.Machine
end

