-- ==== Sys2Proof/Machine/Views.lean ====
section
/-! DEFINITION. What every block-specific register of every page reads as (the page tables of the chapters), for the
requester's selections and rights, and reads with their side effects (R26, R32, R33). -/

namespace Sys2Proof.Machine

/-- The low `n` bits of a signed value. -/
def sbits (n : Nat) (x : Int) : Nat := unsignedOf n x

/-- `FOXGLOVE` (R403). MBOX_DATA reads 0 for requesters other than those of R402. -/
def Chip.viewFox (x : Ctx) (c : Chip) (req : Requester) (off : Nat) : Nat :=
  let fz := x.fuse
  if off = 0x100 then
    fz.lifecycle * 2 ^ 29 + flagNat fz.intent.isSome * 2 ^ 28 + fz.ownerSlot * 2 ^ 26 +
      (List.range 4).foldl (fun v k => v + 2 ^ (22 + k) * flagNat (fz.ownerRevoked.getD k false)) 0 + flagNat fz.vendorAccept * 2 ^ 21 + fz.svnMin
  else if off = 0x104 then c.sec.svn * 2 ^ 24 + c.sec.key * 2 ^ 16 + c.sec.cause * 16 + 2 * flagNat c.sec.recovery + flagNat c.sec.verified
  else if off = 0x108 then
    c.sec.dbgLevel * 2 ^ 30 + c.sec.dbgPart.getD 0 * 2 ^ 26 + flagNat c.sec.partValid * 2 ^ 25 + c.holderShown * 2 ^ 23 + flagNat c.sec.ever * 2 ^ 22 + c.sec.endCause
  else if 0x110 ≤ off && off < 0x120 then c.nonce / 2 ^ (8 * (off - 0x110)) % 2 ^ 32
  else if off = 0x124 then c.sec.result * 2 ^ 24 + 2 * flagNat (c.sec.op ≠ 0) + flagNat c.sec.done
  else if off = 0x128 || off = 0x12C || off = 0x130 || off = 0x134 then c.reg foxFrame off 0
  else if off = 0x138 then fz.serial % 2 ^ 32
  else if off = 0x13C then fz.serial / 2 ^ 32 % 2 ^ 32
  else if off = 0x140 then c.sec.percent
  else if 0x400 ≤ off && off < 0xC00 && c.mboxMay req then c.reg foxFrame off 0 else 0

/-- The trace registers are shown to the management controller and to a debug holder at D1 or above (R416). -/
def Chip.mayTrace (c : Chip) (req : Requester) : Bool := req = .mgmt || c.session req 1

/-- `SORREL` (R415, R416). -/
def Chip.viewSorrel (c : Chip) (req : Requester) (off : Nat) : Nat :=
  let sel := c.selOf req.code 0x001 0x110
  let e? := tabFind c.trace sel
  let show_ (f : TraceEntry → Nat) : Nat := match e? with
    | some e => f e
    | none => 0
  if off = 0x100 then c.wdtCtrl
  else if off = 0x108 then 2 * flagNat c.sorrel.halted + flagNat (match c.sorrel.expiredAt with
    | some t => c.time ≤ t + 60000000000
    | none => false)
  else if !c.mayTrace req then 0
  else if off = 0x10C then c.traceHead
  else if off = 0x110 then sel
  else if off = 0x114 then show_ (fun e => e.time % 2 ^ 32)
  else if off = 0x118 then show_ (fun e => e.time / 2 ^ 32 % 2 ^ 32)
  else if off = 0x11C then show_ (fun e => 2 ^ 31 + e.frame * 256 + e.source)
  else if off = 0x120 then show_ (fun e => e.info) else 0

/-- A domain is on, as DOM_STAT shows it: domains 61 to 63 follow the power state, 61 and 63 staying on in P3 (R363, R367,
R388). -/
def Chip.domainShown (c : Chip) (d : Nat) : Bool :=
  if d ≤ 60 then (c.domain d).on
  else if d = 61 then c.power.pstate ≠ 4 && !c.sec.recovery
  else if d = 62 then c.power.pstate = 0 && !c.sec.recovery else c.power.pstate ≠ 4

/-- The energy of a domain in µJ (R378). -/
def Chip.domainUj (c : Chip) (d : Nat) : Nat := (c.domain d).energyPj / 1000000

/-- The upper half of the selected domain's energy, from the requester's latch where it holds it (R32, R378). -/
def Chip.energyHi (c : Chip) (req : Requester) (d : Nat) : Nat :=
  match tabFind c.latch (2 ^ 14 * req.code + campionFrame) with
  | some l => if l.1 = 8 + d then l.2 else c.domainUj d / 2 ^ 32
  | none => c.domainUj d / 2 ^ 32

/-- `CAMPION` (R384). -/
def Chip.viewCampion (c : Chip) (req : Requester) (off : Nat) : Nat :=
  let d := c.selOf req.code campionFrame 0x120
  let v := c.domain d
  let s := c.selOf req.code campionFrame 0x138
  let m := c.selOf req.code campionFrame 0x140
  if off = 0x104 then
    c.pstate * 2 ^ 29 + flagNat c.power.trans.isSome * 2 ^ 28 + c.power.scale * 2 ^ 21 + 16 * flagNat c.power.inputFault + 8 * flagNat c.power.capUnmet + 4 * flagNat c.power.floorLost +
      2 * flagNat c.thermThrottled + flagNat (c.power.scale < 64)
  else if off = 0x10C then c.power.err * 16 + c.power.stateReq
  else if off = 0x110 then 115 * 2 ^ 16 + 105 * 2 ^ 8 + c.reg campionFrame 0x110 100
  else if off = 0x114 then c.power.inputV % 2 ^ 16
  else if off = 0x118 then c.power.inputI % 2 ^ 16
  else if off = 0x11C then c.power.p1s % 2 ^ 16 * 2 ^ 16 + c.power.p1ms % 2 ^ 16
  else if off = 0x120 then d
  else if off = 0x124 then
    flagNat (c.domainShown d) * 2 ^ 31 + flagNat v.switching * 2 ^ 30 + flagNat v.failed * 2 ^ 29 + v.vdd % 2 ^ 10 * 2 ^ 16 + c.pace d % 2 ^ 16
  else if off = 0x128 then v.tscale * 2 ^ 16 + v.target
  else if off = 0x12C then sbits 16 ((c.domainTemp d).getD 0)
  else if off = 0x130 then c.domainUj d % 2 ^ 32
  else if off = 0x134 then c.energyHi req d
  else if off = 0x138 then s
  else if off = 0x13C then (match tabFind c.power.sensors s with
    | some t => 2 ^ 31 + sbits 16 t
    | none => 0)
  else if off = 0x140 then m
  else if off = 0x144 then (if m < 112 && (c.domain (monitorDomain m)).on then tabGet 0 c.power.monitors m else 0)
  else 0

/-- Two flags as bits 1 and 0 of a number, port 1 and port 0. -/
def portBits (l : List Bool) : Nat := flagNat (l.getD 0 false) + 2 * flagNat (l.getD 1 false)

/-- `CLKGEN` (R385). -/
def Chip.viewClkgen (c : Chip) (off : Nat) : Nat :=
  if off = 0x100 then
    portBits c.power.sris * 256 + portBits c.power.refclk * 16 + 4 * flagNat c.power.pcieLock + 2 * flagNat c.power.memLock + flagNat c.power.linkLock
  else 0

/-- A set of numbers as a bit mask. -/
def maskOf (w : Nat) (l : List Nat) : Nat := (List.range w).foldl (fun v i => v + 2 ^ i * flagNat (l.contains i)) 0

/-- `SPARE` (R407). -/
def Chip.viewSpare (x : Ctx) (c : Chip) (req : Requester) (off : Nat) : Nat :=
  let fz := x.fuse
  let r := fz.repair
  let n := c.selOf req.code spareFrame 0x100
  if off = 0x104 then (if n < 96 then flagNat (fz.fieldMoved n) * 2 ^ 15 + fz.phys n / 52 * 256 + fz.phys n % 52 else 0)
  else if off = 0x108 then
    (r.freeSpares 1).length * 2 ^ 24 + (r.freeSpares 0).length * 2 ^ 20 + r.east.length * 256 + r.west.length
  else if off = 0x10C then maskOf 48 r.pairFail % 2 ^ 32
  else if off = 0x110 then maskOf 48 r.pairFail / 2 ^ 32
  else if off = 0x114 then maskOf 12 r.engFail
  else if off = 0x118 then 256 * flagNat c.selftest.engine + c.selftest.index
  else if off = 0x11C then flagNat c.selftest.busy * 2 ^ 31 + c.selftest.result * 2 ^ 28 else 0

/-- The SHADOW_STATE codes (R55). -/
def Shadow.code : Shadow → Nat
  | .empty => 0
  | .loading => 1
  | .valid => 2
  | .draining => 3
  | .invalid => 4

/-- `TANSY` (R55): any object, to the requester that selects it. -/
def Chip.viewTansy (c : Chip) (req : Requester) (off : Nat) : Nat :=
  let s := c.selOf req.code 0x005 0x100
  let id := s / 256 % 256
  match objInfo id with
  | none => 0
  | some o =>
    let t := c.table (tableKey id (if o.perPart then s / 65536 % 16 else 16) (s % 256))
    if off = 0x104 then t.shadow.code * 16 + flagNat t.active.isSome
    else if off = 0x108 then (t.active.map (fun im => im.gen)).getD 0
    else if off = 0x10C then (t.image.map (fun im => im.gen)).getD 0 else 0

/-- `HBMMAP` (R164). -/
def Chip.viewHbmmap (c : Chip) (req : Requester) (off : Nat) : Nat :=
  let w := c.window (c.selOf req.code 0x007 0x100 % 64)
  if off = 0x104 then w.base else if off = 0x108 then w.size else if off = 0x10C then 2 * w.err + flagNat w.enable else 0

/-- `TEASEL` (R191). -/
def Chip.viewTeasel (c : Chip) (req : Requester) (off : Nat) : Nat :=
  if off = 0x11C then 8192 - c.bridge.rowsReserved 8
  else match tabFind c.bridge.rings (c.selOf req.code 0x008 0x100) with
    | none => 0
    | some r =>
      if !(c.maySee req r.tPart || c.maySee req r.sPart) then 0
      else if off = 0x104 then
        2 ^ 31 + flagNat (tabFind r.sets 0).isSome * 2 ^ 30 + flagNat (tabFind r.sets 1).isSome * 2 ^ 29 + flagNat (tabFind r.sets 2).isSome * 2 ^ 28 +
          flagNat r.held.isSome * 2 ^ 27 + flagNat (r.tau = 0) * 2 ^ 26
      else if off = 0x108 then r.depth
      else if off = 0x10C then r.k * 2 ^ 16 + r.tempIdx
      else if off = 0x110 then r.base
      else if off = 0x114 then r.live
      else if off = 0x118 then r.nextSeq % 2 ^ 32 else 0

/-- `COLL` (R277). -/
def Chip.viewColl (c : Chip) (req : Requester) (off : Nat) : Nat :=
  match tabFind c.coll.groups (c.selOf req.code 0x009 0x100) with
  | none => 0
  | some g =>
    if !c.maySee req g.part then 0
    else if off = 0x104 then 2 ^ 31 + g.part * 2 ^ 24 + g.member
    else if off = 0x108 then g.g
    else if off = 0x10C then (c.gate g.part).epoch % 2 ^ 32
    else if off = 0x110 then
      sbits 8 g.e0 * 2 ^ 24 + sbits 8 (g.base.getD 0) * 2 ^ 16 + min 0xFFFF (c.coll.stages.filter (fun e => e.2.opened && g.holds e.1)).length
    else 0

/-- `VETCH[n]` (R250). -/
def Chip.viewVetch (c : Chip) (n off : Nat) : Nat :=
  let p := c.link n
  if off = 0x100 then flagNat p.enable
  else if off = 0x104 then p.cfg
  else if off = 0x108 then
    p.state * 2 ^ 26 + flagNat (c.linkUp n) * 2 ^ 25 + flagNat p.resumed * 2 ^ 24 + p.lanes % 256 * 2 ^ 16 + p.width * 2 ^ 12 + min 15 p.attempts * 256 +
      128 * flagNat p.reversed + 64 * flagNat p.tableErr
  else if off = 0x10C then (match p.peerSeen with
    | some (i, q) => i % 4096 * 2 ^ 16 + q % 32 * 2 ^ 11 + 1
    | none => 0)
  else if 0x110 ≤ off && off < 0x130 then p.alloc.getD ((off - 0x110) / 4) 0
  else if off = 0x130 then p.retryCfg
  else if off = 0x134 then p.fecCfg
  else if off = 0x138 then p.weight else 0

/-- `PCIE[x]` (R359). -/
def Chip.viewPcie (c : Chip) (n off : Nat) : Nat :=
  let p := c.port n
  if off = 0x100 then
    p.rate * 2 ^ 24 + p.width * 2 ^ 16 + flagNat p.flit * 2 ^ 12 + 256 * flagNat (n = c.primary) + 16 * flagNat p.degraded + flagNat p.linkUp
  else if off = 0x108 then flagNat (c.fatal ≠ 0) * 2 ^ 31 + c.fatal else 0

/-- ARRAY_CAP of an array of a unit (R101). -/
def Fuses.arrayCap (fz : Fuses) (u : Nat) (b : Bool) : Nat :=
  (fz.bypassed u b).length * 2 ^ 24 + fz.width u b 2 * 2 ^ 16 + fz.width u b 1 * 2 ^ 8 + fz.width u b 0

/-- The state codes of a unit's halves and whether a half command runs (R101): 1 running, 2 committing, 3 draining after a fault. -/
def Chip.arrayState (c : Chip) (u : Nat) : Nat :=
  let ks := c.cmds.filter (fun k => k.phase ≠ .waiting && (c.unitsOf k).contains u)
  let code (k : Cmd) : Nat := if k.phase ≠ .ended then 1 else if k.status = 0 then 2 else 3
  let half (h : Nat) : Nat := (((ks.filter (fun k => k.half = 0 || k.half = h)).map code).head?).getD 0
  64 * flagNat (ks.any (fun k => k.half ≠ 0)) + 4 * half 2 + half 1

/-- The registers of R101 on the page of a unit; ARRAY_STAT reads 0 while its domain is off (R427). -/
def Chip.viewArray (x : Ctx) (c : Chip) (u off : Nat) : Nat :=
  let on := (c.domain (if u < 96 then u / 2 else 48 + (u - 96))).on
  let cols (b : Bool) (i : Nat) : Nat := maskOf 128 (x.fuse.bypassed u b) / 2 ^ (32 * i) % 2 ^ 32
  if off = 0x100 then x.fuse.arrayCap u false
  else if off = 0x104 then x.fuse.arrayCap u true
  else if 0x108 ≤ off && off < 0x118 then cols false ((off - 0x108) / 4)
  else if 0x118 ≤ off && off < 0x128 then cols true ((off - 0x118) / 4)
  else if off = 0x128 then (if on then 128 * flagNat (tabFind c.keeps u).isSome + c.arrayState u else 0)
  else 0

/-- The STATE codes of R321. -/
def PState.code : PState → Nat
  | .idle => 1
  | .restoring => 2
  | .resident => 3
  | .stopping => 4
  | .spilling => 5
  | .suspended => 6

/-- `PART[p]` (R334): 0 to a requester that may not see the partition. -/
def Chip.viewPart (x : Ctx) (c : Chip) (req : Requester) (p off : Nat) : Nat :=
  let sel (o : Nat) : Nat := c.selOf req.code (partFrame p) o
  let share (pt : Part) (i : Nat) : Nat := pt.shares.getD i 0
  match c.part? p with
  | none => 0
  | some pt =>
    let reg := pt.regs.getD (sel 0x120) (0, 0)
    let rgn : Region := tabGet { base := 0, bytes := 0, readOnly := false } pt.regions (sel 0x13C)
    let cells (i : Nat) : Nat := (List.range 32).foldl (fun v j =>
      v + 2 ^ j * flagNat ((tabGet [] c.tiers.resid (32 * i + j)).any (fun r => r.part = p && r.tag = sel 0x12C))) 0
    let cap (b : Bool) : Nat := match pt.cells[sel 0x150]? with
      | some n => x.fuse.arrayCap n b
      | none => 0
    if !c.maySee req p then 0
    else if off = 0x100 then
      pt.state.code * 2 ^ 29 + flagNat pt.fault * 2 ^ 28 + flagNat pt.overcommit * 2 ^ 27 + flagNat pt.preempt * 2 ^ 26 + pt.prio * 2 ^ 22 +
        flagNat (c.partReady x p pt) * 2 ^ 21
    else if off = 0x104 then pt.pairs % 2 ^ 32
    else if off = 0x108 then pt.pairs / 2 ^ 32
    else if off = 0x10C then pt.fn * 2 ^ 16 + pt.domain
    else if off = 0x110 then pt.watchdogUs
    else if off = 0x114 then pt.lastStopUs * 2 ^ 16 + pt.deadlineUs
    else if off = 0x118 then share pt 0 + 2 ^ 8 * share pt 1 + 2 ^ 16 * share pt 2 + 2 ^ 24 * share pt 3
    else if off = 0x11C then share pt 4 + 2 ^ 8 * share pt 5
    else if off = 0x124 then reg.2 * 2 ^ 16 + reg.1
    else if off = 0x128 then sbits 32 (clampInt (pt.levels.getD (sel 0x120) 0) (-2147483648) 2147483647)
    else if off = 0x130 then cells 0
    else if off = 0x134 then cells 1
    else if off = 0x138 then cells 2
    else if off = 0x140 then rgn.base % 2 ^ 32
    else if off = 0x144 then rgn.base / 2 ^ 32
    else if off = 0x148 then rgn.bytes / 4096
    else if off = 0x14C then 2 * flagNat rgn.readOnly + flagNat (tabFind pt.regions (sel 0x13C)).isSome
    else if off = 0x154 then cap false
    else if off = 0x158 then cap true else 0

/-- The STATE codes of R222. -/
def GState.code : GState → Nat
  | .unconfigured => 0
  | .idle => 1
  | .collecting => 2
  | .reducing => 3
  | .ready => 4
  | .skipped => 5
  | .abandoned => 6

/-- `GATE[p]` (R222). -/
def Chip.viewGate (c : Chip) (p off : Nat) : Nat :=
  let g := c.gate p
  if off = 0x100 then
    sbits 8 g.ls * 2 ^ 24 + flagNat g.lateFold * 2 ^ 16 + flagNat g.res.abandon * 2 ^ 11 + flagNat g.res.ovf * 2 ^ 10 + flagNat g.res.nf * 2 ^ 9 + g.last * 64 +
      g.state.code
  else if off = 0x104 then g.step % 2 ^ 32
  else if off = 0x108 then g.norm
  else if off = 0x10C then g.clip
  else if off = 0x110 then g.clean
  else if off = 0x114 then g.maxNorm else 0

/-- The STATE codes of R308. -/
def RState.code : RState → Nat
  | .free => 0
  | .queued => 1
  | .running => 2
  | .parked => 3
  | .leaving => 4

/-- The request in a slot, to a requester that may see the partition whose serving context holds the slot (R283, R308). -/
def Chip.slotShown (c : Chip) (req : Requester) (slot : Nat) : Option Req :=
  (c.serve.parts.find? (fun e => e.2.f 0 2 ≤ slot && slot < e.2.f 0 2 + e.2.f 2 2)).bind (fun e =>
    if c.maySee req e.1 then some (e.2.req slot) else none)

/-- `SERVE[p]` (R308). -/
def Chip.viewServe (c : Chip) (req : Requester) (p off : Nat) : Nat :=
  let own (f : Serve → Nat) : Nat := (c.serveOf p).elim 0 f
  let n (st : RState) (s : Serve) : Nat := (s.reqs.filter (fun e => e.2.state = st)).length
  let slot (f : Req → Nat) : Nat := (c.slotShown req (c.selOf req.code (serveFrame p) 0x118)).elim 0 f
  match off with
  | 0x100 => own (fun s => 2 ^ 31 + flagNat s.plan.isSome * 2 ^ 30)
  | 0x104 => own (fun s => s.round % 2 ^ 32)
  | 0x108 => own (fun s => n .running s * 2 ^ 15 + n .queued s)
  | 0x10C => own (fun s => n .parked s * 2 ^ 15 + s.held)
  | 0x110 => own (fun s => s.hbmFree)
  | 0x114 => own (fun s => s.ddrFree)
  | 0x11C => slot (fun q => q.state.code * 2 ^ 29 + flagNat q.recompute * 2 ^ 28 + q.spec * 2 ^ 24 + q.rejRun * 2 ^ 19)
  | 0x120 => slot (fun q => q.tokenLen)
  | 0x124 => slot (fun q => q.kvLen)
  | _ => 0

/-- `HBM[s]` and `DDR[c]` (R163, R165), by tier unit. -/
def Chip.viewTier (c : Chip) (u off : Nat) : Nat :=
  let t := c.tier u
  if off = 0x100 then
    (if u < 16 then flagNat t.ref2x * 256 + 4 * flagNat (t.scrubActive && c.reg (tierFrame u) 0x108 24 ≠ 0) + 2 * flagNat t.trained + flagNat t.zeroDone
      else t.speed * 2 ^ 16 + t.dimmState * 2 ^ 12 + t.cap * 2 ^ 10 + t.ranks % 4 * 256 + 128 * flagNat t.x8 + 8 * flagNat t.selfRefresh +
        4 * flagNat t.zeroDone + 2 * flagNat t.trained)
  else if off = 0x10C then (if u < 16 then t.scrubPos else t.errDevice)
  else if off = 0x110 then t.errAddr % 2 ^ 32
  else if off = 0x114 then t.errAddr / 2 ^ 32 % 32 else 0

/-- `CDMA[n]` (R144); the residency entries most recently created or hit first. -/
def Chip.viewCdma (c : Chip) (req : Requester) (n off : Nat) : Nat :=
  let e? := (tabGet [] c.tiers.resid n)[c.selOf req.code (0x200 + n) 0x10C]?
  let g := tabGet (false, false) c.tiers.gradStat n
  let show_ (f : Resid → Nat) : Nat := match e? with
    | some e => if c.maySee req e.part then f e else 0
    | none => 0
  if off = 0x104 then (c.cmds.filter (fun k => k.opcode = 0x40 && k.tclass = 4 && k.inst = n && k.phase ≠ .waiting)).length
  else if off = 0x108 then 2 * flagNat g.1 + flagNat g.2
  else if off = 0x110 then show_ (fun e => 2 ^ 31 + e.part * 2 ^ 16 + e.tag)
  else if off = 0x114 then show_ (fun e => e.off)
  else if off = 0x118 then show_ (fun e => e.len) else 0

/-- What a page derives. -/
def Chip.viewDerived (x : Ctx) (c : Chip) (req : Requester) (pg : Page) (off : Nat) : Nat :=
  match pg.blk with
  | .foxglove => Chip.viewFox x c req off
  | .sorrel => c.viewSorrel req off
  | .campion => c.viewCampion req off
  | .clkgen => c.viewClkgen off
  | .spare => Chip.viewSpare x c req off
  | .tansy => c.viewTansy req off
  | .evt => 0
  | .hbmmap => c.viewHbmmap req off
  | .teasel => c.viewTeasel req off
  | .coll => c.viewColl req off
  | .vetchFab => if off = 0x100 then c.links.deviceId else if off = 0x104 then c.links.txnTimeout else 0
  | .pcie => c.viewPcie pg.inst off
  | .part => Chip.viewPart x c req pg.inst off
  | .gate => c.viewGate pg.inst off
  | .serve => c.viewServe req pg.inst off
  | .hbm => c.viewTier pg.inst off
  | .ddr => c.viewTier (16 + pg.inst) off
  | .cowslip => if 0x130 ≤ off then c.reg pg.frame off 0 else Chip.viewArray x c (96 + pg.inst) off
  | .vetch => c.viewVetch pg.inst off
  | .meadow => Chip.viewArray x c pg.inst off
  | .cdma => c.viewCdma req pg.inst off

/-- A block-specific register as it reads: stored, selected or derived. -/
def Chip.readStored (x : Ctx) (c : Chip) (req : Requester) (pg : Page) (off : Nat) : Nat :=
  match regKind pg.blk off with
  | .rw _ r => if pg.blk = .campion && off = 0x110 then c.viewCampion req off else c.reg pg.frame off r
  | .sel _ => c.selOf req.code pg.frame off
  | _ => Chip.viewDerived x c req pg off

/-- The mailbox registers (R402, R403), at their offsets in FOXGLOVE. -/
def isMbox (off : Nat) : Bool := (0x120 ≤ off && off < 0x138) || (0x400 ≤ off && off < 0xC00)

/-- The page and offset that a control offset names for a requester: its view, and below D3 the mailbox alone for JTAG with
the MBOX instruction (R420, R426). -/
def Chip.target (x : Ctx) (c : Chip) (r : Requester) (off : Nat) : Option (Page × Nat) :=
  match c.resolve x.fuse r off with
  | some t => some t
  | none => if r = .jtag && c.mboxReach x.fuse r && isMbox off then some (foxPage, off) else none

/-- A register as a read by a requester returns it (R26, R33): the header to all that reach the page, block-specific
registers to those who may read them; a debug holder reads every page's counters (R396). -/
def Chip.readReg (x : Ctx) (c : Chip) (req : Requester) (pg : Page) (off : Nat) : Nat :=
  if off < 0x100 then c.readHeader req.code pg off
  else if c.mayReadBlock req pg || (req = .jtag && pg = foxPage && isMbox off) then Chip.readStored x c req pg off else 0

/-- A counter's low half read (R32): bits [63:32] are latched with the index. -/
def Chip.latchCounter (c : Chip) (req : Nat) (pg : Page) (n hi : Nat) : Chip := { c with latch := tabSet c.latch (2 ^ 14 * req + pg.frame) (n, hi) }

/-- The side effect of reading a register (R32, R378). -/
def Chip.readEffect (c : Chip) (req : Requester) (pg : Page) (reg : Nat) : Chip :=
  if 0x040 ≤ reg && reg < 0x080 && reg % 8 = 0 then
    c.latchCounter req.code pg ((reg - 0x040) / 8) ((c.hdr pg.frame).ctr.getD ((reg - 0x040) / 8) 0 / 2 ^ 32)
  else if pg.blk = .campion && reg = 0x130 && c.mayReadBlock req pg then
    c.latchCounter req.code pg (8 + c.selOf req.code campionFrame 0x120) (c.domainUj (c.selOf req.code campionFrame 0x120) / 2 ^ 32)
  else c

/-- A read in the requester's control view (R26, R32): of a register, a part of one, or two. -/
def Chip.controlRead (x : Ctx) (c : Chip) (req : Requester) (off width : Nat) : Chip :=
  match Chip.target x c req off with
  | none => c.send (.readData req.code off 0)
  | some (pg, o) =>
    if !(width = 8 || width = 16 || width = 32 || width = 64) || o % (width / 8) ≠ 0 then (c.setBadWidth pg).send (.readData req.code off 0)
    else
      let reg := o / 4 * 4
      let lo := Chip.readReg x c req pg reg
      let c := c.readEffect req pg reg
      if width = 64 then
        let hi := Chip.readReg x c req pg (reg + 4)
        (c.readEffect req pg (reg + 4)).send (.readData req.code off (lo + 2 ^ 32 * hi))
      else c.send (.readData req.code off (lo / 2 ^ (8 * (o % 4)) % 2 ^ width))

/-! ### BAR2, the configuration space and the event table as they read -/

/-- The bits of a configuration word that are fixed or shown: the identity and the class, 64-bit BARs of which BAR4 is prefetchable, the
capability lists, MSI-X with its table and pending bits in BAR2, Device and Link Capabilities, AER and ACS; of a physical function SR-IOV with the
virtual functions' BARs, Resizable BAR and VF Resizable BAR of BAR4, DOE, and 14-bit tags with L0p (R336, R338, R341, R350, R353). -/
def Chip.cfgFixed (c : Chip) (fn o : Nat) : Nat :=
  let r := c.fnRegs fn
  let p := c.port (fn / 32)
  let pf := decide (fn % 32 = 0)
  let ext (id ver next : Nat) : Nat := next * 2 ^ 20 + ver * 2 ^ 16 + id
  let only (v : Nat) : Nat := if pf then v else 0
  match o with
  | 0x000 => if pf then 0x9216 * 2 ^ 16 + Config.vendorId 0 % 2 ^ 16 else 2 ^ 32 - 1
  | 0x004 => 2 ^ 20
  | 0x008 => 0x120000 * 256 + Config.vendorId 1 % 256
  | 0x010 => only 4
  | 0x018 => only 4
  | 0x020 => only 0xC
  | 0x02C => Config.vendorId 2 % 2 ^ 32
  | 0x034 => 0x40
  | 0x040 => (msixSize fn - 1) * 2 ^ 16 + 0x70 * 256 + 0x11
  | 0x044 => 0x100000 + 2
  | 0x048 => 0x108000 + 2
  | 0x070 => 2 * 2 ^ 16 + 0x10
  | 0x074 => 2 ^ 28 + 2 ^ 15 + 2 ^ 5 + 2
  | 0x07C => fn / 32 * 2 ^ 24 + 2 * 2 ^ 10 + 16 * 16 + 6
  | 0x080 => p.width * 2 ^ 20 + p.rate * 2 ^ 16
  | 0x094 => 3 * 2 ^ 16 + 0x1F
  | 0x09C => 0x7E
  | 0x100 => ext 0x0001 3 0x150
  | 0x150 => ext 0x000D 1 (only 0x200)
  | 0x200 => only (ext 0x0010 1 0x240)
  | 0x208 => only (flagNat p.vfEnable)
  | 0x20C => only (31 * 2 ^ 16 + 31)
  | 0x210 => only p.numVfs
  | 0x214 => only (2 ^ 16 + 1)
  | 0x218 => only (0x9217 * 2 ^ 16)
  | 0x21C => only 0x553
  | 0x220 => only 1
  | 0x224 => only 4
  | 0x22C => only 4
  | 0x234 => only 0xC
  | 0x240 => only (ext 0x0015 1 0x280)
  | 0x244 => only (2 ^ 25 - 2 ^ 14)
  | 0x248 => only ((r.bar4Log - 20) * 256 + 2 ^ 5 + 4)
  | 0x280 => only (ext 0x0024 1 0x2C0)
  | 0x284 => only (2 ^ 25 - 2 ^ 14)
  | 0x288 => only ((r.vfBar4Log - 20) * 256 + 2 ^ 5 + 4)
  | 0x2C0 => only (ext 0x002E 2 0x300)
  | 0x2CC => only (4 * flagNat p.doeError)
  | 0x300 => only (ext 0x002F 1 0)
  | 0x304 => only 0xE
  | _ => 0

/-- A word of a function's configuration space, at the model's own places of the capabilities. -/
def Chip.configWord (c : Chip) (fn o : Nat) : Nat := c.cfgFixed fn o ||| c.cfgBits fn o

/-- The registers of a submission queue (R350). -/
def SQ.view (s : SQ) (o : Nat) : Nat :=
  if o = 0x00 then s.base % 2 ^ 32
  else if o = 0x04 then s.base / 2 ^ 32 % 2 ^ 32
  else if o = 0x08 then flagNat s.enable * 2 ^ 31 + s.cq * 2 ^ 16 + s.sizeLog2
  else if o = 0x0C then s.head * 2 ^ 16 + s.cause * 16 + s.state
  else if o = 0x10 then s.tail else 0

/-- The registers of a completion queue (R350). -/
def CQ.view (s : CQ) (o : Nat) : Nat :=
  if o = 0x00 then s.base % 2 ^ 32
  else if o = 0x04 then s.base / 2 ^ 32 % 2 ^ 32
  else if o = 0x08 then flagNat s.enable * 2 ^ 31 + flagNat s.irqEn * 2 ^ 30 + s.vector * 2 ^ 16 + s.sizeLog2
  else if o = 0x0C then
    s.tail * 2 ^ 16 + s.cause * 16 + 8 * flagNat s.error + 2 * flagNat (!s.waiting.isEmpty) + (s.written / ringSlots s.sizeLog2 + 1) % 2
  else if o = 0x10 then s.head
  else if o = 0x14 then s.coalUs else 0

/-- The slot of a page in a function's view: a virtual function's by R342, a physical function's its frame. -/
def Chip.hintOf (c : Chip) (fn f : Nat) : Nat :=
  if fn % 32 = 0 then f
  else match c.partOfFn fn, Page.ofFrame f with
    | some p, some pg => ((List.range 256).find? (fun i => c.slotPage p i = some pg)).getD 0
    | _, _ => 0

/-- IRQ_PAGE_HINT (R350): the lowest visible page whose output is asserted. -/
def Chip.pageHint (c : Chip) (fn : Nat) : Nat :=
  let fs := (c.headers.filter (fun (e : Nat × Header) => e.2.output && (match Page.ofFrame e.1 with
    | some pg => c.fnSeesIrq fn pg
    | none => false))).map (fun (e : Nat × Header) => c.hintOf fn e.1)
  match fs with
  | [] => 0
  | f :: l => 2 ^ 31 + l.foldl min f

/-- The registers of a function (R350). -/
def Chip.fnView (c : Chip) (fn o : Nat) : Nat :=
  let r := c.fnRegs fn
  if o = 0x00 then
    (match c.partOfFn fn with
      | some p => 2 ^ 31 + p * 2 ^ 24
      | none => 0) + flagNat (fn = 32 * c.primary) * 2 ^ 30 + flagNat (c.fatal ≠ 0) * 2 ^ 29
  else if o = 0x04 then flagNat r.roEn
  else if o = 0x08 then r.pageVec.toNat
  else if o = 0x0C then r.errVec.toNat
  else if o = 0x10 then c.pageHint fn
  else if o = 0x14 then r.win4 else 0

/-- A word of a function's BAR2 (R341, R350). -/
def Chip.bar2Word (c : Chip) (fn off : Nat) : Nat :=
  let r := c.fnRegs fn
  if off < 0x100000 then 0
  else if off < 0x108000 then
    let i := (off - 0x100000) / 4
    if msixSize fn ≤ i / 4 then 0
    else if i % 4 = 3 then flagNat (!r.unmasked.contains (i / 4)) else (tabGet 0 r.msix i).toNat
  else if off < 0x110000 then
    let j := (off - 0x108000) / 4
    maskOf 32 ((r.pendingVecs.filter (fun v => v / 32 = j)).map (· % 32))
  else if off < 0x112000 then (c.sq (256 * fn + (off - 0x110000) / 32)).view ((off - 0x110000) % 32)
  else if off < 0x114000 then (c.cq (256 * fn + (off - 0x112000) / 32)).view ((off - 0x112000) % 32)
  else if off < 0x114018 then c.fnView fn (off - 0x114000) else 0

/-- A function that makes requests. -/
def fnOf : Requester → Option Nat
  | .pf x => some (32 * x)
  | .vf x i => some (32 * x + i)
  | _ => none

/-- An aligned read of a function's BAR2, of 32 bits or less, or of two words; 0 elsewhere. -/
def Chip.bar2Read (c : Chip) (r : Requester) (off width : Nat) : Nat :=
  match fnOf r with
  | none => 0
  | some fn =>
    if !c.fnReach fn || c.sec.recovery || !(width = 8 || width = 16 || width = 32 || width = 64) || off % (width / 8) ≠ 0 then 0
    else if width = 64 then c.bar2Word fn off + 2 ^ 32 * c.bar2Word fn (off + 4)
    else c.bar2Word fn (off / 4 * 4) / 2 ^ (8 * (off % 4)) % 2 ^ width

/-- A read of a function's configuration space, of 32 bits or less and aligned. -/
def Chip.configRead (c : Chip) (r : Requester) (off width : Nat) : Nat :=
  match fnOf r with
  | none => 0
  | some fn =>
    if !c.fnExists fn || !(width = 8 || width = 16 || width = 32) || off % (width / 8) ≠ 0 then 0
    else c.configWord fn (off / 4 * 4) / 2 ^ (8 * (off % 4)) % 2 ^ width

/-- A requester's partition owns an event entry, so that it may read it and write its settings (R46); the management
controller acts for any, and a debug session's holder for its partition's, at D3 for any (R396). -/
def Chip.ownsEvent (c : Chip) (r : Requester) (i : Nat) : Bool :=
  c.session r 3 || (c.session r 2 && c.sec.partValid && c.sec.dbgPart.isSome && (c.event i).owner = c.sec.dbgPart) ||
  match r with
  | .mgmt => true
  | .jtag => false
  | .vf x j => (match (c.event i).owner with
    | some p => c.partOfFn (32 * x + j) = some p
    | none => false)
  | .pf x => (match (c.event i).owner with
    | some p => (match c.part? p with
      | some pt => pt.fn / 32 = x
      | none => false)
    | none => false)

/-- The 16 bytes of an event entry (R43). -/
def Event.bytes (e : Event) : List Byte :=
  leBytes 4 e.count ++ leBytes 4 e.threshold ++
    leBytes 2 ((match e.owner with
      | some p => 128 + p
      | none => 0) + 256 * (flagNat e.irqOn + 2 * flagNat e.fabric + 4 * flagNat e.poisoned + 8 * flagNat e.overflow)) ++
    leBytes 2 e.vector ++ leBytes 2 e.waiters.length ++ [0, 0]

/-- A read of the event table's memory is a requester's to make (R46). -/
def Chip.eventReads (x : Ctx) (c : Chip) (r : Requester) (off width : Nat) : Bool :=
  off < 0x100000 && off % 16 + width / 8 ≤ 16 && c.reachesEvents x.fuse r && c.ownsEvent r (off / 16)

/-- A read of the event table's memory (R46). -/
def Chip.eventRead (x : Ctx) (c : Chip) (r : Requester) (off width : Nat) : Nat :=
  let i := off / 16
  if !Chip.eventReads x c r off width then 0
  else leNat (((c.event i).bytes.drop (off % 16)).take (width / 8))

/-- A read of a register or of the event table. -/
def Chip.readRow (x : Ctx) (c : Chip) (r : Requester) (s : Space) (off width : Nat) : Chip :=
  match s with
  | .control => Chip.controlRead x c r off width
  | .bar2 => c.send (.readData r.code off (c.bar2Read r off width))
  | .event =>
    let c := if Chip.eventReads x c r off width then c.meetEvent x (off / 16) else c
    c.send (.readData r.code off (Chip.eventRead x c r off width))
  | .config => c.send (.readData r.code off (c.configRead r off width))
  | .memory => Chip.debugRead x c r off (width / 8)

/-- COUNTER_LO_READ (R32), and every other read of R26, R341 and R46. -/
def execCounterLoRead (r : Requester) (s : Space) (off width : Nat) : State → Host.Outcome State Fault Refusal :=
  onChip (fun x c => Chip.readRow x c r s off width)

end Sys2Proof.Machine
end

