-- ==== Sys2Proof/Machine/Regs.lean ====
section
/-! DEFINITION. Writes of registers (R8, R9, R26-R33, R250, R251, R309, R350, R384, R403, R416): who may write, what a stored
register takes, what the registers with an effect of their own do, and the rows of the table that are such writes. -/

namespace Sys2Proof.Machine

/-! ### Permission -/

/-- A page lies in a requester's view (R342, R426). -/
def Chip.sees (x : Ctx) (c : Chip) (r : Requester) (pg : Page) : Bool :=
  pg.ok && c.reaches x.fuse r pg

/-- A write of a register by a requester that may make it (R33); over the fatal state and SCRAPPED it changes nothing (R358,
R427). -/
def Chip.guarded (x : Ctx) (c : Chip) (r : Requester) (pg : Page) (off : Nat) (f : Chip → Chip) : Chip :=
  if !Chip.sees x c r pg || c.fatal ≠ 0 || x.fuse.lifecycle = 4 then c
  else if !c.mayWrite r pg off then c.deny pg else f c

/-! ### SOFT_RESET (R28) -/

/-- What the page's block-specific registers are stored in returns to its reset values: groups and residency entries are what
COLL's and CDMA's registers show. Rings, gates, schedulers and the trace stand (R219, R191, R302). -/
def Chip.softRegs (c : Chip) (pg : Page) : Chip :=
  let f := pg.frame
  let c := { c.resetRegs f with sel := c.sel.filter (fun (e : Nat × BitVec 32) => e.1 % 2 ^ 24 / 1024 ≠ f) }
  match pg.blk with
  | .foxglove => { c with sec.done := false, sec.result := 0 }
  | .campion =>
    { c with power.err := 0, power.stateReq := 0, power.domains := c.power.domains.map (fun (e : Nat × Domain) => (e.1, { e.2 with target := 1500 })) }
  | .spare => if c.selftest.busy then c else { c with selftest := {} }
  | .hbmmap => { c with tiers.windows := [] }
  | .vetchFab => { c with links.deviceId := 0, links.txnTimeout := 1000 }
  | .vetch =>
    let d : LinkPort := {}
    c.putLink pg.inst { c.link pg.inst with
      enable := d.enable, cfg := d.cfg, alloc := d.alloc, retryCfg := d.retryCfg, fecCfg := d.fecCfg, weight := d.weight, retrain := false, tableErr := false }
  | .hbm => c.putTier pg.inst { c.tier pg.inst with errAddr := 0, scrubPos := 0 }
  | .ddr => c.putTier (16 + pg.inst) { c.tier (16 + pg.inst) with errAddr := 0, errDevice := 0 }
  | .cdma => { c with tiers.gradStat := tabDel c.tiers.gradStat pg.inst, tiers.resid := tabDel c.tiers.resid pg.inst }
  | .coll => { c with coll := {} }
  | .meadow => { c with keeps := tabDel c.keeps pg.inst }
  | .cowslip => ({ c with keeps := tabDel c.keeps (96 + pg.inst) } : Chip).noteUse (48 + pg.inst)
  | _ => c

/-- SOFT_RESET written 1 (R28, R419): waiting commands CANCELLED, running ones KILLED_RESET, registers reset, perturbation
disarmed; READY reads 0 until the reset is complete. -/
def Chip.softReset (x : Ctx) (c : Chip) (pg : Page) : Chip :=
  let c := c.putHdr pg.frame { c.hdr pg.frame with ready := false }
  let c := (c.killAll x (fun (k : Cmd) => (c.pagesOf k).contains pg) 0x0B true).softRegs pg
  let h := c.hdr pg.frame
  (c.putHdr pg.frame { h with irqRaw := 0, pert := { h.pert with ctrl := h.pert.ctrl &&& ~~~ (1#32 <<< 31) } }).noteParts x

/-- The block of a page has power and has left reset (R365, R388, R427). -/
def Chip.blockUp (c : Chip) (pg : Page) : Bool :=
  !c.power.off && (match pg.blk with
    | .foxglove => c.sec.verified || c.sec.recovery
    | .sorrel => c.sec.verified
    | .campion => c.sec.verified
    | .meadow => (c.domain (pg.inst / 2)).on
    | .cdma => (c.domain (pg.inst / 2)).on
    | .cowslip => (c.domain (48 + pg.inst)).on
    | .teasel => (c.domain 60).on
    | .vetch => c.linkOn && c.sec.verified
    | .vetchFab => c.linkOn && c.sec.verified
    | .coll => c.linkOn && c.sec.verified
    | _ => c.sec.verified && c.power.pstate ≠ 4)

/-- SOFT_RESET_DONE (R28): READY returns to 1. -/
def Chip.softResetDone (c : Chip) (pg : Page) : Chip :=
  if pg.ok && c.blockUp pg then c.putHdr pg.frame { c.hdr pg.frame with ready := true } else c

/-! ### Engine-buffer segments (R279, R309) -/

/-- The runs of engine buffers that a running command uses. -/
def Chip.engRuns (c : Chip) (k : Cmd) : List (Nat × Nat) :=
  let p := (c.cmdPart k).getD 16
  let e := 2 ^ 44 + k.inst * 2 ^ 23
  let runs : List (Nat × Nat) :=
    if k.tclass ≠ 2 then []
    else if k.opcode = 0x10 then c.arrayRuns p k
    else if k.opcode = 0x11 then c.ewRuns p k
    else if k.opcode = 0x60 then (c.engSrc p k).runs ++ (c.engDst p k).runs
    else match c.serveOf p with
      | none => []
      | some s =>
        if k.opcode = 0x61 then
          let n := s.planeBytes (c.fmt k p s.fmtCode) (k.fld 25 1 * k.fld 23 1)
          [(e + k.fld 40 4, n), (e + k.fld 44 4, n)]
        else if k.opcode = 0x62 then
          let b := c.attendBytes p k s
          (e + k.fld 44 4, b.2) :: (c.attendEngines p k).map (fun s => (engAddr s (k.fld 40 4), b.1))
        else []
  runs.filter (fun r => isEng r.1)

/-- A running command of the segment's owner uses the segment. -/
def Chip.segInUse (c : Chip) (s j : Nat) : Bool :=
  c.cmds.any (fun k => k.phase ≠ .waiting && (match c.cmdPart k with
    | some p => c.segOwned p s j && (c.engRuns k).any (fun r => overlap r.1 r.2 (engAddr s (131072 * j)) 131072)
    | none => false))

/-- The owner of a segment: SEG_OWNER where SEG_VALID is set (R309). -/
def Chip.segOwner (c : Chip) (s j : Nat) : Option Nat := (List.range 16).find? (fun p => c.segOwned p s j)

/-- SEG_OWNER or SEG_VALID written: refused while a running command of an old owner uses a segment that the write takes from
it. -/
def Chip.segWrite (c : Chip) (s off v : Nat) : Chip :=
  let c' := c.setReg (0x080 + s) off v
  if (List.range 64).any (fun j => c.segOwner s j ≠ c'.segOwner s j && c.segInUse s j) then c.deny { blk := .cowslip, inst := s }
  else c'.noteUse (48 + s)

/-! ### Ports (R250, R251) -/

/-- PORT_CTRL written. -/
def Chip.portCtrl (c : Chip) (n : Nat) (enable retrain : Bool) : Chip :=
  c.putLink n { c.link n with enable := enable, retrain := (c.link n).retrain || retrain }

/-- The registers of VETCH[n] written. -/
def Chip.vetchWrite (c : Chip) (n off v : Nat) : Chip :=
  let p := c.link n
  let pg : Page := { blk := .vetch, inst := n }
  let offAction := c.portAction p = 0
  if off = 0x100 then c.portCtrl n (bitAt v 0) (bitAt v 1)
  else if off = 0x104 then (if offAction then c.putLink n { p with cfg := v } else c.deny pg)
  else if off = 0x108 then c.putLink n { p with tableErr := p.tableErr && !bitAt v 6 }
  else if 0x110 ≤ off && off < 0x130 then (if offAction then c.putLink n { p with alloc := listSet p.alloc ((off - 0x110) / 4) v } else c.deny pg)
  else if off = 0x130 then c.putLink n { p with retryCfg := v }
  else if off = 0x134 then c.putLink n { p with fecCfg := v }
  else if off = 0x138 then c.putLink n { p with weight := v } else c

/-- The VETCH_FAB page. -/
def vetchFabPage : Page := { blk := .vetchFab, inst := 0 }

/-- DEVICE_ID written (R251): by the management controller, while no port has LINK_UP. -/
def Chip.deviceIdWrite (c : Chip) (r : Requester) (v : Nat) : Chip :=
  if r ≠ .mgmt || (List.range 24).any c.linkUp then c.deny vetchFabPage else { c with links.deviceId := v }

/-! ### Registers with an effect of their own -/

/-- An operation written to MBOX_OP (R402), its fuses programmed without
fault: the rows of the operations give other outcomes. -/
def Chip.mboxOp (x : Ctx) (c : Chip) (r : Requester) (op : Nat) : Chip × Fuses :=
  if op = 0x01 then Chip.idGenerate x c r true
  else if op = 0x02 then Chip.idChain x c r true
  else if op = 0x03 then Chip.lcToVendor x c r true
  else if op = 0x10 then Chip.ownerEnrol x c r true
  else if op = 0x11 then Chip.ownerRotate x c r true
  else if op = 0x12 then Chip.lcToRma x c r true
  else if op = 0x13 then Chip.lcScrap x c r true
  else if op = 0x20 then Chip.submit x c r true (fun c => (Chip.dbgUnlock x c r, x.fuse))
  else if op = 0x21 then Chip.submit x c r true (fun c => (c.dbgEnd r, x.fuse))
  else if op = 0x30 then Chip.fwUpdate x c r
  else if op = 0x31 then Chip.svnCommit x c r true
  else if op = 0x32 then Chip.recover x c r
  else if op = 0x33 then Chip.forceRecovery x c r
  else Chip.submit x c r true (fun c => (c.mboxEnd 12, x.fuse))

/-- A mailbox register written (R402, R403): by its requesters, and not while BUSY. -/
def Chip.mboxWrite (x : Ctx) (c : Chip) (r : Requester) (off v : Nat) : Chip × Fuses :=
  if !c.mboxMay r || c.sec.op ≠ 0 then (c.deny foxPage, x.fuse)
  else
    let c := c.rsvd foxPage v (allBits - regDefined .foxglove off)
    if off = 0x120 then Chip.mboxOp x c r (v % 256)
    else if off = 0x124 then ({ c with sec.done := c.sec.done && !bitAt v 0 }, x.fuse)
    else (c.setReg foxFrame off (v &&& regDefined .foxglove off), x.fuse)

/-- A write of STATE_REQ (R367-R369). -/
def Chip.stateWrite (x : Ctx) (c : Chip) (r : Requester) (v : Nat) : Chip × Fuses :=
  if v % 8 = 0 then Chip.runReq x c r []
  else if v % 8 = 3 then (Chip.standby x c r, x.fuse)
  else if v % 8 = 4 then (Chip.offHot x c r, x.fuse)
  else (Chip.stateReq x c r (fun c => { c with power.err := 6 }), x.fuse)

/-- WIN_BASE, WIN_SIZE and WIN_CTRL of the selected slot (R149, R164). -/
def Chip.windowWrite (c : Chip) (i off v : Nat) : Chip :=
  let w := c.window i
  if off = 0x10C then c.winCtrl i (bitAt v 0)
  else if w.enable then c.putWindow i { w with err := 5 }
  else if off = 0x104 then c.putWindow i { w with base := v }
  else if off = 0x108 then c.putWindow i { w with size := v } else c

/-- A block-specific register with an effect, written by a requester permitted to, reserved bits left out. -/
def Chip.opWrite (x : Ctx) (c : Chip) (r : Requester) (pg : Page) (off v : Nat) : Chip × Fuses :=
  match pg.blk with
  | .foxglove => if off = 0x10C && bitAt v 0 then Chip.submit x c r true (fun c => (c.dbgEnd r, x.fuse)) else (c, x.fuse)
  | .sorrel =>
    if r ≠ .mgmt then (c.deny pg, x.fuse)
    else if off = 0x100 then (c.setReg pg.frame off v, x.fuse)
    else (if off = 0x104 && v = 0x0000C1C1 then { c with sorrel.lastKick := c.time } else c, x.fuse)
  | .campion =>
    let d := c.selOf r.code campionFrame 0x120
    if off = 0x10C then Chip.stateWrite x c r v
    else (if d ≤ 60 then c.putDomain d { c.domain d with target := v % 65536 } else c, x.fuse)
  | .spare => (c.selftestStart v, x.fuse)
  | .hbmmap => (c.windowWrite (c.selOf r.code pg.frame 0x100 % 64) off v, x.fuse)
  | .vetchFab => (if off = 0x100 then c.deviceIdWrite r v else if off = 0x104 then { c with links.txnTimeout := v } else c, x.fuse)
  | .vetch => (c.vetchWrite pg.inst off v, x.fuse)
  | .cowslip => (if off ≤ 0x154 then c.segWrite pg.inst off v else c, x.fuse)
  | .cdma =>
    let g := tabGet (false, false) c.tiers.gradStat pg.inst
    ({ c with tiers.gradStat := tabSet c.tiers.gradStat pg.inst (g.1 && !bitAt v 1, g.2 && !bitAt v 0) }, x.fuse)
  | _ => (c, x.fuse)

/-! ### One 32-bit write -/

/-- A header register written: QUIESCE alone by the holder of a D2 session (R396); else under R33. RSVD_WR is set after what the
write itself does, so that it survives a clear of it by the same write (R8, R9). -/
def Chip.headerWrite (x : Ctx) (c : Chip) (r : Requester) (pg : Page) (off v : Nat) : Chip :=
  if 0x084 ≤ off && off ≤ 0x0A8 then c.writePert r pg off v
  else if !c.mayWrite r pg off then (if off = 0x008 && c.sessionPage r pg then (c.setQuiesce pg (bitAt v 0)).rsvd pg v (allBits - headerMask pg.blk off) else c.deny pg)
  else
    let c := (c.writeHeader r pg off (v &&& headerMask pg.blk off)).rsvd pg v (allBits - headerMask pg.blk off)
    if off = 0x008 && bitAt v 31 then Chip.softReset x c pg else c

/-- A block-specific register written under R33. -/
def Chip.blockWrite (x : Ctx) (c : Chip) (r : Requester) (pg : Page) (off v : Nat) : Chip × Fuses :=
  if !c.mayWrite r pg off then (c.deny pg, x.fuse)
  else
    let w := v &&& regDefined pg.blk off
    let c := c.rsvd pg v (allBits - regDefined pg.blk off)
    match regKind pg.blk off with
    | .rw mask _ => (c.setReg pg.frame off (w &&& mask), x.fuse)
    | .sel mask => (c.setSel r.code pg.frame off (w &&& mask), x.fuse)
    | .op => Chip.opWrite x c r pg off w
    | .ro => (c, x.fuse)

/-- TRACE_SEL written (R416): by the management controller and a debug holder. -/
def Chip.traceSel (c : Chip) (r : Requester) (v : Nat) : Chip :=
  let pg : Page := { blk := .sorrel, inst := 0 }
  if !c.mayTrace r then c.deny pg else (c.rsvd pg v (allBits - 0xFFF)).setSel r.code pg.frame 0x110 (v % 4096)

/-- A 32-bit write of a register that the requester reaches: the registers with a rule of permission of their own, then R33's;
in the fatal state only DEV_RESET acts (R357, R358). -/
def Chip.write32 (x : Ctx) (c : Chip) (r : Requester) (pg : Page) (off v : Nat) : Chip × Fuses :=
  if pg.blk = .pcie && off = 0x104 then Chip.devReset x c r v []
  else if c.fatal ≠ 0 || x.fuse.lifecycle = 4 then (c, x.fuse)
  else if pg.blk = .evt && off = 0x100 then (Chip.evtSignal x c r v, x.fuse)
  else if pg.blk = .evt && off = 0x104 then (Chip.evtReset x c r v, x.fuse)
  else if pg.blk = .foxglove && isMbox off then Chip.mboxWrite x c r off v
  else if pg.blk = .sorrel && off = 0x110 then (c.traceSel r v, x.fuse)
  else if off < 0x100 then (Chip.headerWrite x c r pg off v, x.fuse)
  else Chip.blockWrite x c r pg off v

/-- A write in the requester's control view (R26): of 32 bits, or of 64 as two, the lower first. -/
def Chip.controlWrite (x : Ctx) (c : Chip) (r : Requester) (off width v : Nat) : Chip × Fuses :=
  match Chip.target x c r off with
  | none => (c, x.fuse)
  | some (pg, o) =>
    if badWidth width o then (if c.fatal ≠ 0 || x.fuse.lifecycle = 4 then c else c.setBadWidth pg, x.fuse)
    else
      let a := Chip.write32 x c r pg o (v % 2 ^ 32)
      if width = 64 then
        (let x := { x with fuse := a.2 }
         match Chip.target x a.1 r (off + 4) with
         | some (pg, o) => Chip.write32 x a.1 r pg o (v / 2 ^ 32 % 2 ^ 32)
         | none => a)
      else a

/-! ### BAR2 (R341, R345, R346, R350, R351) -/

/-- A queue register of a submission queue written. -/
def Chip.sqRegWrite (x : Ctx) (c : Chip) (fn q o v : Nat) : Chip :=
  let key := 256 * fn + q
  let s := c.sq key
  if o = 0x00 then (if s.enable then c.putSq key { s with cause := 4 } else c.putSq key { s with base := s.base / 2 ^ 32 * 2 ^ 32 + v / 64 * 64 })
  else if o = 0x04 then (if s.enable then c.putSq key { s with cause := 4 } else c.putSq key { s with base := s.base % 2 ^ 32 + v * 2 ^ 32 })
  else if o = 0x08 then (if bitAt v 31 then c.sqEnable fn q v else Chip.sqDisable x c fn q v)
  else if o = 0x0C then c.putSq key { s with cause := (BitVec.ofNat 4 s.cause &&& ~~~ BitVec.ofNat 4 (v / 16)).toNat } else c

/-- A queue register of a completion queue written. -/
def Chip.cqRegWrite (c : Chip) (fn q o v : Nat) : Chip :=
  let key := 256 * fn + q
  let s := c.cq key
  if o = 0x00 then (if s.enable then c.putCq key { s with cause := 4 } else c.putCq key { s with base := s.base / 2 ^ 32 * 2 ^ 32 + v / 64 * 64 })
  else if o = 0x04 then (if s.enable then c.putCq key { s with cause := 4 } else c.putCq key { s with base := s.base % 2 ^ 32 + v * 2 ^ 32 })
  else if o = 0x08 then (if bitAt v 31 then c.cqEnable fn q v else c.cqDisable fn q v)
  else if o = 0x0C then c.putCq key { s with cause := (BitVec.ofNat 4 s.cause &&& ~~~ BitVec.ofNat 4 (v / 16)).toNat }
  else if o = 0x14 then c.putCq key { s with coalUs := v % 65536 } else c

/-- A word of a function's BAR2 written; what no register implements is ignored (R341). -/
def Chip.bar2Write (x : Ctx) (c : Chip) (fn off v : Nat) : Chip :=
  let r := c.fnRegs fn
  if off < 0x100000 then
    (if off % 0x1000 = 0 then c.sqTail fn (off / 0x1000) v else if off % 0x1000 = 4 then c.cqHead fn (off / 0x1000) v else c)
  else if off < 0x108000 then
    let i := (off - 0x100000) / 4
    if msixSize fn ≤ i / 4 then c
    else if i % 4 ≠ 3 then c.putFn fn { r with msix := tabSet r.msix i (BitVec.ofNat 32 v) }
    else if bitAt v 0 then c.putFn fn { r with unmasked := r.unmasked.filter (· ≠ i / 4) }
    else c.unmask fn (i / 4)
  else if off < 0x110000 then c
  else if off < 0x112000 then Chip.sqRegWrite x c fn ((off - 0x110000) / 32) ((off - 0x110000) % 32) v
  else if off < 0x114000 then c.cqRegWrite fn ((off - 0x112000) / 32) ((off - 0x112000) % 32) v
  else if off = 0x114004 then c.putFn fn { r with roEn := bitAt v 0 }
  else if off = 0x114008 then c.putFn fn { r with pageVec := BitVec.ofNat 32 (v &&& 0x800007FF) }
  else if off = 0x11400C then c.putFn fn { r with errVec := BitVec.ofNat 32 (v &&& 0x800007FF) }
  else if off = 0x114014 then c.putFn fn { r with win4 := v % 1024 } else c

/-- An aligned write of BAR2; a doorbell takes 32 bits alone (R346). -/
def Chip.bar2Row (x : Ctx) (c : Chip) (r : Requester) (off width v : Nat) : Chip :=
  match fnOf r with
  | none => c
  | some fn =>
    if !c.fnWrites fn || c.sec.recovery || badWidth width off || (off < 0x100000 && width ≠ 32) then c
    else
      let c := Chip.bar2Write x c fn off (v % 2 ^ 32)
      if width = 64 then Chip.bar2Write x c fn (off + 4) (v / 2 ^ 32 % 2 ^ 32) else c

/-! ### The configuration space (R336, R338, R341, R353) -/

/-- The power of two that a Resizable BAR control register names, 1 GiB to 1 TiB, or the present one. -/
def barLog (v now : Nat) : Nat := if 10 ≤ bitField v 13 8 && bitField v 13 8 ≤ 20 then bitField v 13 8 + 20 else now

/-- A 32-bit word of a function's configuration space written: what is only stored, and a function-level reset (R355); of a physical function VF
Enable, NumVFs while it is clear, the sizes of BAR4, and the abort that clears the DOE mailbox's error. -/
def Chip.configWrite (x : Ctx) (c : Chip) (fn o v : Nat) : Chip :=
  let c := c.cfgPut fn o v
  let r := c.fnRegs fn
  let n := fn / 32
  let p := c.port n
  if o = 0x078 then (if bitAt v 15 then Chip.flr x c fn else c)
  else if fn % 32 ≠ 0 then c
  else if o = 0x208 then (if bitAt v 0 = p.vfEnable then c else Chip.vfEnable x c n (bitAt v 0) p.numVfs)
  else if o = 0x210 then (if p.vfEnable then c else c.putPort n { p with numVfs := min (v % 65536) 31 })
  else if o = 0x248 then c.putFn fn { r with bar4Log := barLog v r.bar4Log }
  else if o = 0x288 then c.putFn fn { r with vfBar4Log := barLog v r.vfBar4Log }
  else if o = 0x2C8 then (if bitAt v 0 then c.putPort n { p with doeError := false } else c) else c

/-- An aligned 32-bit write of a function's configuration space. -/
def Chip.configRow (x : Ctx) (c : Chip) (r : Requester) (off width v : Nat) : Chip :=
  match fnOf r with
  | none => c
  | some fn => if !c.fnExists fn || width ≠ 32 || off % 4 ≠ 0 then c else Chip.configWrite x c fn off (v % 2 ^ 32)

/-! ### The event table's memory (R46) -/

/-- The bytes of an entry that a memory write may touch: THRESHOLD, the FLAGS byte, MSIX_VECTOR. -/
def eventByteOk (i : Nat) : Bool := (4 ≤ i && i < 8) || (9 ≤ i && i < 12)

/-- A memory write to the event table: refused whole, with ACCESS_ERROR to its sender, unless the entry is owned and every byte
may be written; of FLAGS only bits 1 and 0 are. -/
def Chip.eventWrite (x : Ctx) (c : Chip) (r : Requester) (off width v : Nat) : Chip :=
  let i := off / 16
  let o := off % 16
  let n := width / 8
  let e := c.event i
  let bytes := (List.range n).map (o + ·)
  let old := e.bytes
  let new := (List.range 16).map (fun j => if o ≤ j && j < o + n then BitVec.ofNat 8 (v / 256 ^ (j - o)) else old.getD j 0)
  let f (a k : Nat) : Nat := leNat ((new.drop a).take k)
  if 0x100000 ≤ off || n = 0 || c.fatal ≠ 0 || !c.reachesEvents x.fuse r then c
  else if !c.ownsEvent r i || !bytes.all eventByteOk || (bytes.contains 9 && 4 ≤ f 9 1) then c.send (.writeRefused r.code off 2)
  else
    let c := c.meetEvent x i
    c.putEvent i { c.event i with threshold := f 4 4, irqOn := bitAt (f 9 1) 0, fabric := bitAt (f 9 1) 1, vector := f 10 2 }

/-! ### The rows -/

/-- REG_WRITE (R33): a write in the control window, in BAR2, to the event table, to the configuration space, or of memory by a debug
holder (R396). -/
def Chip.regWrite (x : Ctx) (c : Chip) (r : Requester) (s : Space) (off width v : Nat) : Chip × Fuses :=
  match s with
  | .control => Chip.controlWrite x c r off width v
  | .bar2 => (Chip.bar2Row x c r off width v, x.fuse)
  | .event => (Chip.eventWrite x c r off width v, x.fuse)
  | .config => (Chip.configRow x c r off width v, x.fuse)
  | .memory => (Chip.debugWrite x c r off (leBytes (width / 8) v), x.fuse)

/-- QUIESCE of a page written (R29, R33, R396). -/
def Chip.quiesceRow (x : Ctx) (c : Chip) (r : Requester) (pg : Page) (on : Bool) : Chip :=
  if !Chip.sees x c r pg || c.fatal ≠ 0 || x.fuse.lifecycle = 4 then c
  else if !c.mayQuiesce r pg then c.deny pg else c.setQuiesce pg on

/-- A perturbation register written (R418). -/
def Chip.pertRow (x : Ctx) (c : Chip) (r : Requester) (pg : Page) (off v : Nat) : Chip :=
  if !Chip.sees x c r pg || c.fatal ≠ 0 || x.fuse.lifecycle = 4 || off < 0x084 || 0x0A8 < off || off % 4 ≠ 0 then c else c.writePert r pg off v

/-- REG_WRITE (R33). -/
def execRegWrite (r : Requester) (s : Space) (off width v : Nat) : State → Host.Outcome State Fault Refusal :=
  onFuse (fun x c => Chip.regWrite x c r s off width v)

/-- SOFT_RESET (R28). -/
def execSoftReset (r : Requester) (pg : Page) : State → Host.Outcome State Fault Refusal :=
  onChip (fun x c => Chip.guarded x c r pg 0x008 (fun c => Chip.softReset x c pg))

/-- SOFT_RESET_DONE (R28). -/
def execSoftResetDone (pg : Page) : State → Host.Outcome State Fault Refusal := onChip (fun _ c => c.softResetDone pg)

/-- CTR_CLR (R32). -/
def execCtrClr (r : Requester) (pg : Page) : State → Host.Outcome State Fault Refusal :=
  onChip (fun x c => Chip.guarded x c r pg 0x008 (fun c => c.clearCounters pg))

/-- QUIESCE (R29). -/
def execQuiesce (r : Requester) (pg : Page) (on : Bool) : State → Host.Outcome State Fault Refusal := onChip (fun x c => Chip.quiesceRow x c r pg on)

/-- IRQ_CLR (R30). -/
def execIrqClr (r : Requester) (pg : Page) (mask : Nat) : State → Host.Outcome State Fault Refusal :=
  onChip (fun x c => Chip.guarded x c r pg 0x01C (fun c => (c.rsvd pg mask (allBits - headerMask pg.blk 0x01C)).clearIrq pg mask))

/-- ELOG_CLEAR (R411). -/
def execElogClear (r : Requester) (pg : Page) : State → Host.Outcome State Fault Refusal :=
  onChip (fun x c => Chip.guarded x c r pg 0x03C (fun c => c.clearElog pg))

/-- PERT_ARM (R418). -/
def execPertArm (r : Requester) (pg : Page) (off v : Nat) : State → Host.Outcome State Fault Refusal := onChip (fun x c => Chip.pertRow x c r pg off v)

/-- SEG_OWNER_WRITE (R309). -/
def execSegOwnerWrite (r : Requester) (engine off v : Nat) : State → Host.Outcome State Fault Refusal :=
  onChip (fun x c => Chip.guarded x c r { blk := .cowslip, inst := engine } off (fun c =>
    if 0x130 ≤ off && off ≤ 0x154 && off % 4 = 0 then c.segWrite engine off (v % 2 ^ 32) else c))

/-- PORT_ENABLE (R250): ENABLE written, RETRAIN left 0. -/
def execPortEnable (r : Requester) (port : Nat) (on : Bool) : State → Host.Outcome State Fault Refusal :=
  onChip (fun x c => Chip.guarded x c r { blk := .vetch, inst := port } 0x100 (fun c => c.portCtrl port on false))

/-- RETRAIN (R250): ENABLE written as it stands. -/
def execRetrain (r : Requester) (port : Nat) : State → Host.Outcome State Fault Refusal :=
  onChip (fun x c => Chip.guarded x c r { blk := .vetch, inst := port } 0x100 (fun c => c.portCtrl port (c.link port).enable true))

/-- DEVICE_ID_WRITE (R251). -/
def execDeviceIdWrite (r : Requester) (v : Nat) : State → Host.Outcome State Fault Refusal :=
  onChip (fun x c => Chip.guarded x c r vetchFabPage 0x100 (fun c =>
    (c.rsvd vetchFabPage v (allBits - 0x80000FFF)).deviceIdWrite r (v &&& 0x80000FFF)))

/-- SQ_TAIL_DOORBELL (R346). -/
def execSqTailDoorbell (f q v : Nat) : State → Host.Outcome State Fault Refusal := onChip (fun _ c => c.sqTail f q v)

/-- BAR4_WRITE (R343). -/
def execBar4Write (f off : Nat) (d : List Byte) : State → Host.Outcome State Fault Refusal := onChip (fun x c => Chip.bar4Write x c f off d)

end Sys2Proof.Machine
end

