-- ==== Sys2Proof/Machine/Vector.lean ====
section
/-! DEFINITION. The vector commands (R199-R203): activation curves, their derivatives, and the maximum or minimum with
its index. -/

namespace Sys2Proof.Machine

/-- A binary32 polynomial of three fused steps (R200, R201). -/
def cubic (c0 c1 c2 c3 t : Nat) : Nat := ffma (ffma (ffma c3 t c2) t c1) t c0

/-- The last entry of a range of entries whose start is at or below `v`. -/
def curveEntry (im : Image) (lo n v : Nat) : Option Nat :=
  ((List.range n).map (lo + ·)).foldl (fun (b : Option Nat) i => if (ofF32 v).lt (ofF32 (curveFld im i 0 4)) then b else some i) none

/-- The value and region code of a forward curve (R200). -/
def curveAct (im : Image) (v : Nat) : Nat × Nat :=
  if ofF32 v = .nan then (f32.canonNan, 0)
  else
    let i := (curveEntry im 0 256 v).getD 0
    let f (o : Nat) : Nat := curveFld im i o 4
    let r := curveFld im i 24 1 % 16
    if (ofF32 v).finite then (cubic (f 8) (f 12) (f 16) (f 20) (fsub v (f 4)), r)
    else if [f 12, f 16, f 20].all (fun q => (ofF32 q).isZero) then (toF32 (ofF32 (f 8)), r)
    else (f32.canonNan, r)

/-- The slope from a saved output (R199, R201). -/
def curveSlope (fwd : Image) (der : Option Image) (y r : Nat) : Nat :=
  let one := toF32 (Val.ofInt 1)
  if ofF32 y = .nan then f32.canonNan
  else match curveFld fwd 0 25 1 with
    | 1 => fmul y (fsub one y)
    | 2 => ffma (toF32 (ofF32 y).negate) y one
    | 3 => y
    | _ => (match der with
      | none => f32.canonNan
      | some d =>
        let j := (curveEntry d (16 * r) 16 y).getD (16 * r)
        let f (o : Nat) : Nat := curveFld d j o 4
        cubic (f 8) (f 12) (f 16) (f 20) (fsub y (f 4)))

/-- A nibble of packed region codes (R65). -/
def segCode (rd : Nat → Byte) (base i : Nat) : Nat := elemBits rd base 4 i

/-- Beats of a vector command of `n` elements at 512 a beat (R202). -/
def vecBeats (n : Nat) : Nat := ceilDiv n 512

/-- VEC_ACT of a running command (R200). -/
def Chip.vecAct (x : Ctx) (env : Env) (c : Chip) (k : Cmd) : Chip :=
  let p := (c.cmdPart k).getD 16
  let c := c.meets x env k
  let x := x.upset env.upsets
  let len := k.fld 24 4
  let s := scratchAddr k.inst 0
  let i := vecOperand (c.fmt k p (k.fld 17 1 % 16)) (s + k.fld 28 4) len
  let o := vecOperand (c.fmt k p (k.fld 17 1 / 16)) (s + k.fld 32 4) len
  match c.imageFor k (tableKey 2 p (k.fld 16 1 % 32)) with
  | none => c.endCmd k 5 16
  | some im => c.afterIo x env k i.runs (o.runs ++ (if bitAt (k.fld 16 1) 7 then [(s + k.fld 36 4, (len + 1) / 2)] else [])) (fun c =>
    let xs := (List.range len).map (fun e => i.val (c.rd x) 0 e)
    let ins := xs.map (fun v => toF32 (v.scale (-(k.sfld 19))))
    let ys := ins.map (curveAct im)
    let inj := c.nfInject { blk := .meadow, inst := k.inst } k len
    let vals := ys.map (fun y => (ofF32 y.1).scale (k.sfld 20))
    let vals := match inj with
      | none => vals
      | some q => listSet vals q.1 q.2
    let enc := encodeRow o.fmt vals
    let c := (c.wr x o.base enc.1).wr x o.scales enc.2.1
    let c := if bitAt (k.fld 16 1) 7 then c.wr x (s + k.fld 36 4) (packBits 4 (ys.map Prod.snd)) else c
    let c := c.nfDone { blk := .meadow, inst := k.inst } inj
    let bytes := enc.1.length + enc.2.1.length + (if bitAt (k.fld 16 1) 7 then (len + 1) / 2 else 0)
    c.endCmd { k with acct := k.acct.plus { beats := vecBeats len + env.feed + env.drain, bytes64 := ceilDiv bytes 64, nf := enc.2.2 || xs.any (fun v => !v.finite) || (ins ++ ys.map Prod.fst).any (fun b => f32.nonFinite b) } } 0 0)

/-- VEC_DACT of a running command (R201). -/
def Chip.vecDact (x : Ctx) (env : Env) (c : Chip) (k : Cmd) : Chip :=
  let p := (c.cmdPart k).getD 16
  let c := c.meets x env k
  let x := x.upset env.upsets
  let len := k.fld 24 4
  let s := scratchAddr k.inst 0
  let inst := k.fld 16 1 % 32
  let y := vecOperand (c.fmt k p (k.fld 17 1 % 16)) (s + k.fld 28 4) len
  let o := vecOperand (c.fmt k p (k.fld 17 1 / 16)) (s + k.fld 32 4) len
  let g := vecOperand (c.fmt k p (k.fld 18 1 % 16)) (s + k.fld 40 4) len
  match c.imageFor k (tableKey 2 p inst) with
  | none => c.endCmd k 5 16
  | some im =>
    let seg := curveFld im 0 25 1 = 0
    let der := c.imageFor k (tableKey 2 p (inst + 1))
    c.afterIo x env k (y.runs ++ g.runs ++ (if seg then [(s + k.fld 36 4, (len + 1) / 2)] else [])) o.runs (fun c =>
      let rd := c.rd x
      let y32 (e : Nat) : Nat := toF32 ((y.val rd 0 e).scale (-(k.sfld 19)))
      let dy32 (e : Nat) : Nat := toF32 ((g.val rd 0 e).scale (-(k.sfld 21)))
      let seen := (List.range len).any (fun e => f32.nonFinite (y32 e) || f32.nonFinite (dy32 e))
      let vals := (List.range len).map (fun e =>
        let yv := y32 e
        let dy := dy32 e
        let sl := if ofF32 dy = .nan then f32.canonNan else curveSlope im der yv (if seg then segCode rd (s + k.fld 36 4) e else 0)
        (ofF32 (fmul sl dy)).scale (k.sfld 20))
      let inj := c.nfInject { blk := .meadow, inst := k.inst } k len
      let vals := match inj with
        | none => vals
        | some q => listSet vals q.1 q.2
      let enc := encodeRow o.fmt vals
      let c := (c.wr x o.base enc.1).wr x o.scales enc.2.1
      let c := c.nfDone { blk := .meadow, inst := k.inst } inj
      c.endCmd { k with acct := k.acct.plus { beats := vecBeats len + env.feed + env.drain, bytes64 := ceilDiv (enc.1.length + enc.2.1.length) 64, nf := enc.2.2 || seen } } 0 0)

/-- A record of R123 read from its bytes, by its FLAGS whatever VALUE is (log 105). -/
def argOfBytes (b : List Byte) : ArgBest :=
  let fl := (b.getD 4 0).toNat
  { bits := leNat (b.take 4), nan := bitAt fl 0, inf := bitAt fl 1, index := leNat ((b.drop 8).take 8) }

/-- VEC_ARGMAX of a running command (R121-R123, R203); an index above 2^48 - 1 is written as it comes (log 105). -/
def Chip.vecArgmax (x : Ctx) (env : Env) (c : Chip) (k : Cmd) : Chip :=
  let p := (c.cmdPart k).getD 16
  let c := c.meets x env k
  let x := x.upset env.upsets
  let len := k.fld 24 4
  let s := scratchAddr k.inst 0
  let op := k.fld 16 1
  let o := vecOperand (c.fmt k p (k.fld 17 1 % 16)) (s + k.fld 28 4) len
  let dst := s + k.fld 40 4
  let comb := bitAt op 1
  c.afterIo x env k (o.runs ++ (if comb then [(dst, 16)] else [])) [(dst, 16)] (fun c =>
    let max_ := !bitAt op 0
    let es := (List.range len).map (fun e => argOne (toF32 (o.val (c.rd x) 0 e)) (k.fld 32 8 + e))
    let all := if comb then argOfBytes (c.rdBytes x dst 16) :: es else es
    match argReduce max_ all with
    | none => c.endCmd k 5 24
    | some r =>
      let nf := all.any (fun e => e.nan || e.inf)
      (c.wr x dst r.bytes).endCmd { k with acct := k.acct.plus { beats := vecBeats len + env.feed + env.drain, bytes64 := 1, nf := nf } } 0 0)

/-- VEC_ACT (R200). -/
def execVecAct (cmd : Nat) (env : Env) : State → Host.Outcome State Fault Refusal :=
  onOp cmd 0x1A (fun x => Chip.vecAct x env)

/-- VEC_DACT (R201). -/
def execVecDact (cmd : Nat) (env : Env) : State → Host.Outcome State Fault Refusal :=
  onOp cmd 0x1B (fun x => Chip.vecDact x env)

/-- VEC_ARGMAX (R203). -/
def execVecArgmax (cmd : Nat) (env : Env) : State → Host.Outcome State Fault Refusal :=
  onOp cmd 0x1C (fun x => Chip.vecArgmax x env)

end Sys2Proof.Machine
end

