-- ==== Sys2Proof/Machine/Dispatch.lean ====
section
/-! DEFINITION. The dispatch: one arm per command, each one direct call of its meaning. -/

namespace Sys2Proof.Machine

def exec (i : Instr) (s : State) : Host.Outcome State Fault Refusal :=
  match i with
  | .regWrite requester space off width value => Sys2Proof.Machine.execRegWrite requester space off width value s
  | .counterLoRead requester space off width => Sys2Proof.Machine.execCounterLoRead requester space off width s
  | .softReset requester page => Sys2Proof.Machine.execSoftReset requester page s
  | .softResetDone page => Sys2Proof.Machine.execSoftResetDone page s
  | .ctrClr requester page => Sys2Proof.Machine.execCtrClr requester page s
  | .quiesce requester page on => Sys2Proof.Machine.execQuiesce requester page on s
  | .irqClr requester page mask => Sys2Proof.Machine.execIrqClr requester page mask s
  | .evtSignal requester value => Sys2Proof.Machine.execEvtSignal requester value s
  | .evtReset requester value => Sys2Proof.Machine.execEvtReset requester value s
  | .winEnable requester on => Sys2Proof.Machine.execWinEnable requester on s
  | .segOwnerWrite requester engine off value => Sys2Proof.Machine.execSegOwnerWrite requester engine off value s
  | .portEnable requester port on => Sys2Proof.Machine.execPortEnable requester port on s
  | .retrain requester port => Sys2Proof.Machine.execRetrain requester port s
  | .deviceIdWrite requester value => Sys2Proof.Machine.execDeviceIdWrite requester value s
  | .elogClear requester page => Sys2Proof.Machine.execElogClear requester page s
  | .selftestStart requester value => Sys2Proof.Machine.execSelftestStart requester value s
  | .selftestDone findings => Sys2Proof.Machine.execSelftestDone findings s
  | .standbyRequest requester => Sys2Proof.Machine.execStandbyRequest requester s
  | .runRequest requester findings => Sys2Proof.Machine.execRunRequest requester findings s
  | .offHotRequest requester => Sys2Proof.Machine.execOffHotRequest requester s
  | .devResetWrite requester value findings => Sys2Proof.Machine.execDevResetWrite requester value findings s
  | .wdtKick requester value => Sys2Proof.Machine.execWdtKick requester value s
  | .pertArm requester page off value => Sys2Proof.Machine.execPertArm requester page off value s
  | .sqTailDoorbell fn queue value => Sys2Proof.Machine.execSqTailDoorbell fn queue value s
  | .cqHeadDoorbell fn queue value => Sys2Proof.Machine.execCqHeadDoorbell fn queue value s
  | .sqEnable fn queue value => Sys2Proof.Machine.execSqEnable fn queue value s
  | .sqDisable fn queue value => Sys2Proof.Machine.execSqDisable fn queue value s
  | .cqEnable fn queue value => Sys2Proof.Machine.execCqEnable fn queue value s
  | .cqDisable fn queue value => Sys2Proof.Machine.execCqDisable fn queue value s
  | .msixUnmask fn vector => Sys2Proof.Machine.execMsixUnmask fn vector s
  | .bar4Read fn off len => Sys2Proof.Machine.execBar4Read fn off len s
  | .bar4Write fn off bytes => Sys2Proof.Machine.execBar4Write fn off bytes s
  | .descriptorFetch fn queue => Sys2Proof.Machine.execDescriptorFetch fn queue s
  | .descriptorReadDone fn queue result => Sys2Proof.Machine.execDescriptorReadDone fn queue result s
  | .commandStart cmd => Sys2Proof.Machine.execCommandStart cmd s
  | .commandCommit cmd written => Sys2Proof.Machine.execCommandCommit cmd written s
  | .pendingRecordWrite fn queue written => Sys2Proof.Machine.execPendingRecordWrite fn queue written s
  | .cqCoalTimer fn queue => Sys2Proof.Machine.execCqCoalTimer fn queue s
  | .nop cmd => Sys2Proof.Machine.execNop cmd s
  | .eventReset cmd => Sys2Proof.Machine.execEventReset cmd s
  | .arrayMm cmd env => Sys2Proof.Machine.execArrayMm cmd env s
  | .arrayEw cmd env => Sys2Proof.Machine.execArrayEw cmd env s
  | .bwdFused cmd env => Sys2Proof.Machine.execBwdFused cmd env s
  | .mmGrad cmd env => Sys2Proof.Machine.execMmGrad cmd env s
  | .vecAct cmd env => Sys2Proof.Machine.execVecAct cmd env s
  | .vecDact cmd env => Sys2Proof.Machine.execVecDact cmd env s
  | .vecArgmax cmd env => Sys2Proof.Machine.execVecArgmax cmd env s
  | .gradSumsq cmd env => Sys2Proof.Machine.execGradSumsq cmd env s
  | .optUpdate cmd env => Sys2Proof.Machine.execOptUpdate cmd env s
  | .gateCfg cmd => Sys2Proof.Machine.execGateCfg cmd s
  | .gateOpen cmd => Sys2Proof.Machine.execGateOpen cmd s
  | .gateSeal cmd => Sys2Proof.Machine.execGateSeal cmd s
  | .gateClose cmd env => Sys2Proof.Machine.execGateClose cmd env s
  | .dmaMove cmd env => Sys2Proof.Machine.execDmaMove cmd env s
  | .gradbufZero cmd => Sys2Proof.Machine.execGradbufZero cmd s
  | .residDrop cmd => Sys2Proof.Machine.execResidDrop cmd s
  | .ringOpen cmd => Sys2Proof.Machine.execRingOpen cmd s
  | .ringReset cmd => Sys2Proof.Machine.execRingReset cmd s
  | .headTeacher cmd env => Sys2Proof.Machine.execHeadTeacher cmd env s
  | .teacherHoldRelease cmd beats env => Sys2Proof.Machine.execTeacherHoldRelease cmd beats env s
  | .headPass1 cmd env => Sys2Proof.Machine.execHeadPass1 cmd env s
  | .headPass2 cmd env => Sys2Proof.Machine.execHeadPass2 cmd env s
  | .engMove cmd env => Sys2Proof.Machine.execEngMove cmd env s
  | .engKvAppend cmd env => Sys2Proof.Machine.execEngKvAppend cmd env s
  | .engAttend cmd env => Sys2Proof.Machine.execEngAttend cmd env s
  | .serveCfg cmd => Sys2Proof.Machine.execServeCfg cmd s
  | .reqJoin cmd => Sys2Proof.Machine.execReqJoin cmd s
  | .reqLeave cmd => Sys2Proof.Machine.execReqLeave cmd s
  | .roundBegin cmd env heads => Sys2Proof.Machine.execRoundBegin cmd env heads s
  | .roundCommit cmd env => Sys2Proof.Machine.execRoundCommit cmd env s
  | .specEnable cmd => Sys2Proof.Machine.execSpecEnable cmd s
  | .tokenVectorTimer part vector => Sys2Proof.Machine.execTokenVectorTimer part vector s
  | .collGroupSet cmd => Sys2Proof.Machine.execCollGroupSet cmd s
  | .collGroupFree cmd => Sys2Proof.Machine.execCollGroupFree cmd s
  | .collLaunch cmd => Sys2Proof.Machine.execCollLaunch cmd s
  | .collLocalPhase cmd env => Sys2Proof.Machine.execCollLocalPhase cmd env s
  | .collGather cmd env => Sys2Proof.Machine.execCollGather cmd env s
  | .gatherTake cmd env => Sys2Proof.Machine.execGatherTake cmd env s
  | .tableLoad cmd env => Sys2Proof.Machine.execTableLoad cmd env s
  | .tableLoadShadowTake cmd => Sys2Proof.Machine.execTableLoadShadowTake cmd s
  | .tableActivate cmd => Sys2Proof.Machine.execTableActivate cmd s
  | .partForm cmd => Sys2Proof.Machine.execPartForm cmd s
  | .partSet cmd => Sys2Proof.Machine.execPartSet cmd s
  | .partRegion cmd => Sys2Proof.Machine.execPartRegion cmd s
  | .partTeardown cmd => Sys2Proof.Machine.execPartTeardown cmd s
  | .partReset cmd => Sys2Proof.Machine.execPartReset cmd s
  | .partYield cmd => Sys2Proof.Machine.execPartYield cmd s
  | .progBind cmd => Sys2Proof.Machine.execProgBind cmd s
  | .grantEvaluate => Sys2Proof.Machine.execGrantEvaluate s
  | .spillBegin part => Sys2Proof.Machine.execSpillBegin part s
  | .spillDone part => Sys2Proof.Machine.execSpillDone part s
  | .preemptDeadlineExpire part => Sys2Proof.Machine.execPreemptDeadlineExpire part s
  | .restoreDone part => Sys2Proof.Machine.execRestoreDone part s
  | .commandWatchdogExpire cmd => Sys2Proof.Machine.execCommandWatchdogExpire cmd s
  | .regulatorRefill => Sys2Proof.Machine.execRegulatorRefill s
  | .portStateEval port view => Sys2Proof.Machine.execPortStateEval port view s
  | .trainStateTimeout port view => Sys2Proof.Machine.execTrainStateTimeout port view s
  | .flitReceive port bytes hit corrected uncorrected => Sys2Proof.Machine.execFlitReceive port bytes hit corrected uncorrected s
  | .replayTimeout port => Sys2Proof.Machine.execReplayTimeout port s
  | .fecWindowCheck port => Sys2Proof.Machine.execFecWindowCheck port s
  | .packetRoute inPort places => Sys2Proof.Machine.execPacketRoute inPort places s
  | .write index env => Sys2Proof.Machine.execWrite index env s
  | .read index env => Sys2Proof.Machine.execRead index env s
  | .atomic index env => Sys2Proof.Machine.execAtomic index env s
  | .reduceAdd index => Sys2Proof.Machine.execReduceAdd index s
  | .eventSignal index => Sys2Proof.Machine.execEventSignal index s
  | .response index => Sys2Proof.Machine.execResponse index s
  | .scalarRecord index => Sys2Proof.Machine.execScalarRecord index s
  | .scalarResult index => Sys2Proof.Machine.execScalarResult index s
  | .txnTimeout tag => Sys2Proof.Machine.execTxnTimeout tag s
  | .sealTimeout part => Sys2Proof.Machine.execSealTimeout part s
  | .foldWindowExpire part => Sys2Proof.Machine.execFoldWindowExpire part s
  | .resultTimeout part => Sys2Proof.Machine.execResultTimeout part s
  | .refreshDue tier bank pending hot ecs => Sys2Proof.Machine.execRefreshDue tier bank pending hot ecs s
  | .rowIdleClose tier bank => Sys2Proof.Machine.execRowIdleClose tier bank s
  | .patrolScrubRead tier upsets => Sys2Proof.Machine.execPatrolScrubRead tier upsets s
  | .sramScrub addr upsets => Sys2Proof.Machine.execSramScrub addr upsets s
  | .hbmInitDone failed => Sys2Proof.Machine.execHbmInitDone failed s
  | .ddrInitDone failed => Sys2Proof.Machine.execDdrInitDone failed s
  | .deviceReset pin findings => Sys2Proof.Machine.execDeviceReset pin findings s
  | .bootVerify dimms unwraps => Sys2Proof.Machine.execBootVerify dimms unwraps s
  | .powerUp millivolts smbAddr findings => Sys2Proof.Machine.execPowerUp millivolts smbAddr findings s
  | .powerDown => Sys2Proof.Machine.execPowerDown s
  | .lastMateBreak => Sys2Proof.Machine.execLastMateBreak s
  | .overcurrentTrip => Sys2Proof.Machine.execOvercurrentTrip s
  | .bulkUndervoltage => Sys2Proof.Machine.execBulkUndervoltage s
  | .inputFault => Sys2Proof.Machine.execInputFault s
  | .inputFaultClear => Sys2Proof.Machine.execInputFaultClear s
  | .inputBelow44v => Sys2Proof.Machine.execInputBelow44v s
  | .inputBelow40v => Sys2Proof.Machine.execInputBelow40v s
  | .inputAbove62v => Sys2Proof.Machine.execInputAbove62v s
  | .inputMeasure millivolts centiamps watts => Sys2Proof.Machine.execInputMeasure millivolts centiamps watts s
  | .paceGovernorTick => Sys2Proof.Machine.execPaceGovernorTick s
  | .sensorSample readings => Sys2Proof.Machine.execSensorSample readings s
  | .thermtrip sensor temp => Sys2Proof.Machine.execThermtrip sensor temp s
  | .paceMonitorUpdate readings => Sys2Proof.Machine.execPaceMonitorUpdate readings s
  | .energyMeterTick readings => Sys2Proof.Machine.execEnergyMeterTick readings s
  | .domainOffDelayExpire domain => Sys2Proof.Machine.execDomainOffDelayExpire domain s
  | .domainSwitchOn domain => Sys2Proof.Machine.execDomainSwitchOn domain s
  | .domainOnDone domain => Sys2Proof.Machine.execDomainOnDone domain s
  | .domainRampTimeout domain => Sys2Proof.Machine.execDomainRampTimeout domain s
  | .pllLockLoss pll => Sys2Proof.Machine.execPllLockLoss pll s
  | .pllRelock pll => Sys2Proof.Machine.execPllRelock pll s
  | .pciePortReset port perst => Sys2Proof.Machine.execPciePortReset port perst s
  | .pcieLinkTrained port rate width flit replays => Sys2Proof.Machine.execPcieLinkTrained port rate width flit replays s
  | .functionLevelReset fn => Sys2Proof.Machine.execFunctionLevelReset fn s
  | .hubFatal cause => Sys2Proof.Machine.execHubFatal cause s
  | .mgmtWdtExpire => Sys2Proof.Machine.execMgmtWdtExpire s
  | .idGenerate requester ok => Sys2Proof.Machine.execIdGenerate requester ok s
  | .idChain requester ok => Sys2Proof.Machine.execIdChain requester ok s
  | .lcToVendor requester ok => Sys2Proof.Machine.execLcToVendor requester ok s
  | .ownerEnrol requester ok => Sys2Proof.Machine.execOwnerEnrol requester ok s
  | .ownerRotate requester ok => Sys2Proof.Machine.execOwnerRotate requester ok s
  | .lcToRma requester ok => Sys2Proof.Machine.execLcToRma requester ok s
  | .lcScrap requester ok => Sys2Proof.Machine.execLcScrap requester ok s
  | .dbgUnlock requester => Sys2Proof.Machine.execDbgUnlock requester s
  | .dbgEnd requester => Sys2Proof.Machine.execDbgEnd requester s
  | .d3ZeroiseDone => Sys2Proof.Machine.execD3ZeroiseDone s
  | .fwUpdate requester => Sys2Proof.Machine.execFwUpdate requester s
  | .fwFlashWriteDone ok dimms unwraps => Sys2Proof.Machine.execFwFlashWriteDone ok dimms unwraps s
  | .svnCommit requester ok => Sys2Proof.Machine.execSvnCommit requester ok s
  | .recover requester => Sys2Proof.Machine.execRecover requester s
  | .forceRecovery requester => Sys2Proof.Machine.execForceRecovery requester s
  | .getVersion transport msg => Sys2Proof.Machine.execGetVersion transport msg s
  | .getCapabilities transport msg => Sys2Proof.Machine.execGetCapabilities transport msg s
  | .negotiateAlgorithms transport msg => Sys2Proof.Machine.execNegotiateAlgorithms transport msg s
  | .getDigests transport msg => Sys2Proof.Machine.execGetDigests transport msg s
  | .getCertificate transport msg => Sys2Proof.Machine.execGetCertificate transport msg s
  | .challenge transport msg => Sys2Proof.Machine.execChallenge transport msg s
  | .getMeasurements transport msg => Sys2Proof.Machine.execGetMeasurements transport msg s
  | .setCertificate transport msg => Sys2Proof.Machine.execSetCertificate transport msg s
  | .spdmUnsupportedRequest transport msg => Sys2Proof.Machine.execSpdmUnsupportedRequest transport msg s
  | .jtagInstruction code cells => Sys2Proof.Machine.execJtagInstruction code cells s
  | .bucketRefill => Sys2Proof.Machine.execBucketRefill s
  | .flitTransmit port => Sys2Proof.Machine.execFlitTransmit port s
  | .resetNRelease priSel => Sys2Proof.Machine.execResetNRelease priSel s
  | .perstNRelease port refclk => Sys2Proof.Machine.execPerstNRelease port refclk s
  | .glitchReject => Sys2Proof.Machine.execGlitchReject s
  | .doeDiscovery port index len => Sys2Proof.Machine.execDoeDiscovery port index len s
  | .mctpControl msg => Sys2Proof.Machine.execMctpControl msg s
  | .vfEnable port on count => Sys2Proof.Machine.execVfEnable port on count s
  | .lastMateContact millivolts smbAddr findings => Sys2Proof.Machine.execLastMateContact millivolts smbAddr findings s
  | .smbusAlertResponse => Sys2Proof.Machine.execSmbusAlertResponse s

end Sys2Proof.Machine
end

