-- ==== Sys2Proof/Machine/Step.lean ====
section
/-! DEFINITION. One step: the command at the front of the queue, or on an empty queue 40 ns of local time. -/

namespace Sys2Proof.Machine

/-- What passes while no command waits: the next 40 ns of local time, in which a lifecycle operation that runs commits. DESIGN
CHOICE (logs 17, 36): unsafe where a claim counts ticks. -/
def idle : State → Host.Outcome State Fault Refusal := onFuse (fun x c => c.pass.lcCommit x.fuse)

/-- The command at the front of the queue runs with the queue's rest. -/
def step (s : State) : Host.Outcome State Fault Refusal :=
  match s.pending with
  | [] => idle s
  | i :: rest => exec i { s with pending := rest }

/-- The command a table word spells, put at the front of the queue; no word spells one. -/
def State.withFetchWord (s : State) (nbits w : Nat) : State :=
  match Sys2Proof.decodeTableWord nbits w with
  | some i => { s with pending := i :: s.pending }
  | none => s

end Sys2Proof.Machine
end

