-- ==== Sys2Proof/Safety.lean ====
section
/-! DEFINITION. The terms claims are stated in: a sound state, fuses that only go one way, what reporting may change, and
which bytes of memory a set of runs covers. -/

namespace Sys2Proof.Machine

/-- A state between steps: memory in canonical form, nothing staged and no message counted, a lifecycle of R390 with any transition
begun leading to one. -/
def State.sound (s : State) : Prop :=
  s.mem.wf = true ∧ s.chip.between = s.chip ∧ s.fuse.lifecycle ≤ 4 ∧ ∀ i, s.fuse.intent = some i → i.dest ≤ 4

/-- Fuses only ever go one way (R390, R389): the lifecycle and SVN_MIN never fall, a revoked owner slot stays revoked. -/
def Fuses.after (old new : Fuses) : Prop :=
  old.lifecycle ≤ new.lifecycle ∧ old.svnMin ≤ new.svnMin ∧
    ∀ k, old.ownerRevoked.getD k false = true → k < new.ownerRevoked.length → new.ownerRevoked.getD k false = true

/-- An outcome that is a next state with a property. -/
def nextWith (o : Host.Outcome State Fault Refusal) (p : State → Prop) : Prop := ∃ t, o = .next t ∧ p t

/-- What a step of a state reads beside the chip. -/
def State.ctx (s : State) : Ctx := { mem := s.mem, fuse := s.fuse, ecc := s.chip.eccFrames }

/-- A page lies in a requester's view, and writes are served: neither fatal nor SCRAPPED (R33, R358, R400). -/
def State.reached (s : State) (r : Requester) (pg : Page) : Prop :=
  Chip.sees s.ctx s.chip r pg = true ∧ s.chip.fatal = 0 ∧ s.fuse.lifecycle ≠ 4

/-- A command whose step is `s` with its chip changed to exactly `c`. -/
def becomesJust (i : Instr) (s : State) (c : Chip) : Prop := exec i s = .next { s with chip := c.between }

/-! ### What reporting changes -/

/-- The chip without what reporting writes: page headers, the trace, what was sent, the functions' pending vectors, and the
step's own staging and messages. -/
def Chip.quiet (c : Chip) : Chip := { c with headers := [], trace := [], traceHead := 0, outbox := [], fns := [], staged := [], sentVecs := [], traced := 0 }

/-- A header without its counters, their SAT bits and IRQ_RAW. -/
def Header.kept (h : Header) : Header := { h with ctr := [], satMap := 0, irqRaw := 0 }

/-- A function's registers without its pending vectors. -/
def FnRegs.kept (r : FnRegs) : FnRegs := { r with pendingVecs := [] }

/-- `d` is `c` but for counters, interrupt requests, pending vectors, the trace and what was sent. -/
def Chip.reports (c d : Chip) : Prop :=
  d.quiet = c.quiet ∧ (∀ f, (d.hdr f).kept = (c.hdr f).kept) ∧ ∀ fn, (d.fnRegs fn).kept = (c.fnRegs fn).kept

/-- `d` is `c` but for what reporting changes and the error logs. -/
def Chip.logs (c d : Chip) : Prop :=
  d.quiet = c.quiet ∧ (∀ f, { (d.hdr f).kept with elog := {} } = { (c.hdr f).kept with elog := {} }) ∧
    ∀ fn, (d.fnRegs fn).kept = (c.fnRegs fn).kept

/-- A command that changes the chip to `c`, reports aside, and nothing else. -/
def becomes (i : Instr) (s : State) (c : Chip) : Prop :=
  nextWith (exec i s) (fun t => t.mem = s.mem ∧ t.fuse = s.fuse ∧ t.pending = s.pending ∧ Chip.reports c t.chip)

/-- The line of the event table that an entry lies in has no error (R408). -/
def State.entryGood (s : State) (i : Nat) : Prop := ∀ e ∈ s.mem.lines, e.1 ≠ evtLine i

/-- Counter `n` of a page has risen by `k`, within its 64 bits (R32, R413). -/
def Chip.counted (c d : Chip) (f n k : Nat) : Prop :=
  n < (c.hdr f).ctr.length → (d.hdr f).ctr.getD n 0 = min ((c.hdr f).ctr.getD n 0 + k) (2 ^ 64 - 1)

/-- Counter `n` of a page has risen by `k` at least: a message that cannot be sent may count beside (R351). -/
def Chip.countedMore (c d : Chip) (f n k : Nat) : Prop :=
  n < (c.hdr f).ctr.length → min ((c.hdr f).ctr.getD n 0 + k) (2 ^ 64 - 1) ≤ (d.hdr f).ctr.getD n 0

/-- A vector of a function was raised (R351): its message is out, or it is pending while its entry is masked. -/
def Chip.raised (c d : Chip) (fn vec : Nat) : Prop :=
  (c.port (fn / 32)).linkUp = true → vec < msixSize fn →
    if (c.fnRegs fn).unmasked.contains vec then (c.fnRegs fn).message fn vec ∈ d.outbox else (d.fnRegs fn).pendingVecs.contains vec = true

/-- ERR_VECTOR of a function was raised, if it is enabled (R351). -/
def Chip.errRaised (c d : Chip) (fn : Nat) : Prop :=
  (c.fnRegs fn).errVec.getLsbD 31 = true → c.raised d fn ((c.fnRegs fn).errVec.toNat % 2 ^ 11)

/-- A command that changes the chip to `c`, reports and error logs aside, and of the port of a function counts in CTR `n` and raises
ERR_VECTOR (R346, R349). -/
def hostError (i : Instr) (s : State) (fn n : Nat) (c : Chip) : Prop :=
  nextWith (exec i s) (fun t => t.mem = s.mem ∧ t.fuse = s.fuse ∧ t.pending = s.pending ∧ Chip.logs c t.chip ∧
    s.chip.countedMore t.chip (0x010 + fn / 32) n 1 ∧ s.chip.errRaised t.chip fn)

/-! ### Commands and events -/

/-- No waiter of an entry can move: none waits, or the entry is not poisoned and its oldest waiter is a command that has not
made its take and needs more than the count (R44). -/
def Chip.blocked (c : Chip) (i : Nat) : Prop :=
  (c.event i).waiters = [] ∨ ((c.event i).poisoned = false ∧ ∃ w k, (c.event i).waiters.head? = some w ∧ c.cmd? w = some k ∧
    k.phase = .waiting ∧ k.flag 2 = true ∧ k.taken = false ∧ k.fld 8 2 = i ∧ (c.event i).count < k.fld 12 2)

/-- A chip whose entry's oldest waiter has been looked at and goes on waiting: what has become ready by then is noted (R318). -/
def Chip.looked (c : Chip) (x : Ctx) (i : Nat) : Chip := if (c.event i).waiters = [] then c else c.noteAll x

/-- A command that waits starts when it is looked at (R36, R37, R318): the earlier ones of its queue are stuck, nothing holds it, it is its
turn, its checks pass, the generations its program requires are active, and it reads nothing first. -/
def Chip.starts (c : Chip) (x : Ctx) (k : Cmd) : Prop :=
  k.phase = .waiting ∧ c.inOrder x k = true ∧ c.canStart x k = true ∧ c.myTurn x k = true ∧ c.checkAll x k = none ∧ c.requiredBad k = false ∧
    k.startReads = [] ∧ (c.tiers.hbmFailed = true → 7 ≤ k.tclass ∨ k.opcode = 0)

/-- A command that runs an opcode. -/
def Chip.runs (c : Chip) (id op : Nat) (k : Cmd) : Prop := c.cmd? id = some k ∧ k.opcode = op ∧ k.phase = .running

/-- The command's record reaches its completion queue: enabled, in order, with a free slot and nothing waiting (R348), and the
regulator lets it (R352). -/
def Chip.cqOpen (c : Chip) (k : Cmd) : Prop :=
  let q := c.cq (256 * k.fn + (c.sq k.queue).cq)
  q.enable = true ∧ q.error = false ∧ q.full = false ∧ q.waiting = [] ∧ c.recordLets k.fn = true

/-- The record of a command as its queue writes it: the slot, the phase bit of R348, SQ_HEAD (R41). -/
def Chip.recordOut (c : Chip) (k : Cmd) (status detail : Nat) : Out :=
  let key := 256 * k.fn + (c.sq k.queue).cq
  let q := c.cq key
  .record (key / 256) (key % 256) (q.base + 32 * q.tail)
    (Record.bytes { k.record status detail with sqHead := (c.sq (256 * (key / 256) + k.sq)).head }
      ((q.written / ringSlots q.sizeLog2 + 1) % 2 = 1))

/-- `d` is `c` after the end of a command: it has left the list, its queue has one command fewer in flight, and its record is
out if its completion queue can take it (R38, R41, R348). -/
def Chip.ended (c d : Chip) (k : Cmd) (status detail : Nat) : Prop :=
  d.cmds = c.cmds.filter (fun j => j.id ≠ k.id) ∧ (d.sq k.queue).inFlight = (c.sq k.queue).inFlight - 1 ∧
    (∀ q, q ≠ k.queue → d.sq q = c.sq q) ∧ (c.cqOpen k → c.recordOut k status detail ∈ d.outbox)

/-! ### Running commands and memory -/

/-- The outcome of a command is settled with a status and DETAIL: its commit phase has begun, and no other command, event, queue
or table changed. -/
def Chip.settles (c d : Chip) (id status detail : Nat) : Prop :=
  (∃ k, d.cmd? id = some k ∧ k.phase = .ended ∧ k.status = status ∧ k.detail = detail) ∧
    d.cmds.filter (fun j => j.id ≠ id) = c.cmds.filter (fun j => j.id ≠ id) ∧ d.events = c.events ∧ d.sqs = c.sqs ∧ d.cqs = c.cqs ∧
    d.tables = c.tables

/-- A byte of memory lies in one of the runs of local addresses. -/
def Chip.covers (c : Chip) (fz : Fuses) (runs : List (Nat × Nat)) (key : Nat) : Prop := ∃ r ∈ runs, ∃ i < r.2, c.key fz (r.1 + i) = key

/-- No two bytes of the runs are one byte of memory. -/
def Chip.separate (c : Chip) (fz : Fuses) (runs : List (Nat × Nat)) : Prop :=
  runs.Pairwise (fun r q => ∀ i < r.2, ∀ j < q.2, c.key fz (r.1 + i) ≠ c.key fz (q.1 + j)) ∧
    ∀ r ∈ runs, ∀ i < r.2, ∀ j < r.2, c.key fz (r.1 + i) = c.key fz (r.1 + j) → i = j

/-- Bytes at local addresses, as runs. -/
def runsOf (outs : List (Nat × List Byte)) : List (Nat × Nat) := outs.map (fun o => (o.1, o.2.length))

/-- A run of bytes is stored memory at local addresses (R10, R11). -/
def Chip.stored (c : Chip) (a n : Nat) : Prop := ∃ r, c.store a n = some r ∧ r ≠ .event ∧ r ≠ .control

/-- Memory of `t` is memory of `s` with `outs` stored and the runs `open_` left open, all of them runs of stored memory: every byte
outside them reads as before, and the stored bytes read as stored where no two of them are one byte of memory. -/
def State.stores (s t : State) (outs : List (Nat × List Byte)) (open_ : List (Nat × Nat)) : Prop :=
  (∀ o ∈ open_ ++ runsOf outs, 0 < o.2 → s.chip.stored o.1 o.2) →
    (∀ k, ¬ s.chip.covers s.fuse (runsOf outs ++ open_) k → t.mem.byte k = s.mem.byte k) ∧
      (s.chip.separate s.fuse (open_ ++ runsOf outs) →
        ∀ o ∈ outs, ∀ i < o.2.length, t.mem.byte (s.chip.key s.fuse (o.1 + i)) = o.2.getD i 0)

/-- No perturbation is armed on any page (R417). -/
def Chip.unarmed (c : Chip) : Prop := ∀ e ∈ c.headers, e.2.pert.ctrl.getLsbD 31 = false

/-- Nothing of the outside world interferes: no bad line, and no perturbation armed (R408, R417). -/
def State.calm (s : State) : Prop := s.mem.lines = [] ∧ s.chip.unarmed

/-- The partition a running command acts for. -/
def Chip.own (c : Chip) (k : Cmd) : Nat := (c.cmdPart k).getD 16

/-- What one block of gradients adds to a gate's accumulator and flags (R212): a non-finite element sets NF, an infinite block sum
OVF, a finite sum is added exactly in 320 bits. -/
def gateAddBlock (a : Scalar) (gs : List Nat) : Scalar :=
  if gs.any (fun b => f32.nonFinite b) then { a with nf := true }
  else if f32.nonFinite (blockSum gs) then { a with ovf := true }
  else { a with acc := (a.acc + accUnits (blockSum gs)) % 2 ^ 320 }

/-- The resolution of R214, from the combined flags and sum: what the gate's state becomes. -/
def gateResolved (a : Scalar) (t : Gate) (g : Gate) : Prop :=
  (a.abandon = true → t.state = .abandoned) ∧
    (a.abandon = false → a.nf = true ∨ a.ovf = true → t.state = .skipped) ∧
    (a.abandon = false → a.nf = false → a.ovf = false →
      (f32.nonFinite (accF32 a.acc) = true → t.state = .skipped) ∧
      (f32.nonFinite (accF32 a.acc) = false →
        let norm := fmul (fsqrt (accF32 a.acc)) (toF32 (.num false 1 (-g.ls)))
        t.state = .ready ∧ t.norm = norm ∧
          t.clip = if (ofF32 g.maxNorm).lt (ofF32 norm) then fdiv g.maxNorm norm else toF32 (Val.ofInt 1)))

/-! ### Ranges zeroed, and the head of the bridge -/

/-- Memory and repair are as a run leaves them: listed bytes of HBM lie in its 12 stacks, those of bridge SRAM and DDR5 within them,
enabled windows lie in HBM, and no two logical cells are one physical cell (R10, R15, R149). -/
def State.placed (s : State) : Prop :=
  (∀ e ∈ s.mem.cells, e.1 < 12 * 2 ^ 37 ∨ (2 ^ 48 ≤ e.1 ∧ e.1 < 3 * 2 ^ 48 + 0xA000000) ∨ (2 ^ 50 ≤ e.1 ∧ e.1 < 2 ^ 50 + 2 ^ 43) ∨
      5 * 2 ^ 48 ≤ e.1) ∧
    (∀ e ∈ s.chip.tiers.windows, e.2.enable = true → e.2.base + 12 * e.2.size ≤ hbmPages) ∧
    (∀ a < 96, s.fuse.phys a < 104) ∧ ∀ a < 96, ∀ b < 96, s.fuse.phys a = s.fuse.phys b → a = b

/-- The rows a head command works on: the open row set of its stream, or, at FIRST, rows begun anew from the tokens' records, each
found within DEPTH tokens of NEXT_SEQ in the state its stream needs (R171, R178). -/
def State.headRows (s : State) (k : Cmd) (r : Ring) (rows : List HeadRow) (first : Bool) : Prop :=
  let st := k.stream
  match tabFind r.sets st with
  | some w => rows = w.rows ∧ first = false
  | none => first = true ∧
      (st ≠ 0 → ∀ q ∈ k.seqs,
        let w := s.chip.rdNat s.ctx (r.slotAddr q) 4
        let d := (r.nextSeq + 2 ^ 32 - q) % 2 ^ 32
        0 < d ∧ d ≤ r.depth ∧ w % 2 ^ 24 = q % 2 ^ 24 ∧ bitField w 25 24 = st) ∧
      rows = k.seqs.map (fun q => if st = 0 then {} else
        { record := s.chip.rdBytes s.ctx (r.slotAddr q) r.slotBytes, label := if st = 2 then s.chip.rdNat s.ctx (r.labelAddr + 4 * r.slot q) 4 else 0 })

/-- A window of a head command taken: its rows fold the logits of its tiles in the order of R181 (R182, R184, R185); pass two writes
its gradients; LAST closes the row set and writes records and loss records (R187); the row set otherwise stays open. -/
def State.headDone (s t : State) (id : Nat) (k : Cmd) (r : Ring) (rows : List HeadRow) (first : Bool) : Prop :=
  let p := s.chip.own k
  let st := k.stream
  let n := k.fld 22 2
  let m := 128 * k.fld 55 1
  let last := bitAt (k.fld 16 1) 7
  let order := headOrder r st k
  let outs := (r.cells st).map (s.chip.headOuts s.ctx p k)
  let z (i src col : Nat) : Nat := toF32 (((outs.getD src []).getD i []).map (fun q => q.val) |>.getD col Val.zero)
  let row (i : Nat) : HeadRow × List (List Val) :=
    if st = 0 then (rowTeacher r order (z i) (rows.getD i {}), [])
    else if st = 1 then (rowPass1 r order (z i) (rows.getD i {}), [])
    else rowPass2 r k order (z i) first (rows.getD i {})
  let rows' := (List.range n).map (fun i => (row i).1)
  let xf := s.chip.fmt k p (k.fld 17 1 / 16)
  let gp := k.gradPitch xf
  let grads := if st ≠ 2 then [] else (List.range (r.cells st).length).flatMap (fun src => (List.range n).flatMap (fun i =>
    let a := scratchAddr ((r.cells st).getD src 0) (k.fld 61 3)
    let e := encodeRow xf (((row i).2.getD src []).map (Val.scale (k.sfld 60)))
    (a + i * gp, e.1) :: (if xf.isMx then [(a + n * gp + i * (m / 32), e.2.1)] else [])))
  t.fuse = s.fuse ∧ t.pending = s.pending ∧ s.chip.settles t.chip id 0 0 ∧
    s.stores t (grads ++ (if last then headWrites r st k.seqs rows' else [])) [] ∧
    (∀ i, i ≠ k.ring → tabFind t.chip.bridge.rings i = tabFind s.chip.bridge.rings i) ∧
    ∃ r', tabFind t.chip.bridge.rings k.ring = some r' ∧ { r' with sets := [], held := none, nextSeq := 0, live := 0 } =
        { r with sets := [], held := none, nextSeq := 0, live := 0 } ∧ r'.held = none ∧
      tabFind r'.sets st = (if last then none else some { base := k.fld 24 4, last := k.fld 52 3 + m, rows := rows' }) ∧
      (∀ j, j ≠ st → tabFind r'.sets j = tabFind r.sets j) ∧
      r'.nextSeq = (if last ∧ st = 0 then (k.fld 24 4 + n) % 2 ^ 32 else r.nextSeq) ∧
      r'.live = (if last ∧ st = 0 then r.live + n else if last ∧ st = 2 then r.live - n else r.live)

/-! ### The fabric -/

/-- The links when the packet at a place of the inbox is consumed: it leaves the inbox, and the receive buffer it occupied is free, which
its port's cumulative return count shows (R236). -/
def Chip.freeing (c : Chip) (i : Nat) (p : Packet) : Links :=
  let l := { c.links with inbox := c.links.inbox.eraseIdx i }
  match p.origin with
  | none => l
  | some (n, vc, k) =>
    let q := c.link n
    { l with ports := tabSet l.ports n { q with crTotal := listSet q.crTotal vc ((q.crTotal.getD vc 0 + k) % 8192) } }

/-- A delivered request consumed and answered: it leaves the inbox, its RESPONSE with a status, a detail and data is queued for its
sender, and nothing else of the links changes but the receive buffer it frees (R236, R243, R244). -/
def Chip.reply (c : Chip) (i : Nat) (p : Packet) (status detail : Nat) (data : List Byte) : Links :=
  let r : PacketSpec := { type := 8, vc := 2, dst := p.src, op := status, tag := p.tag, domain := p.domain, flow := p.flow, len := data.length, count := detail, data := data }
  { c.freeing i p with out := c.links.out ++ [(PacketSpec.make r c.myId, none)] }

/-- A packet of a type is delivered at a place of the inbox, with no request before it that it must follow (R248). -/
def Chip.holdsPacket (c : Chip) (i type : Nat) (p : Packet) : Prop :=
  c.links.inbox[i]? = some p ∧ p.type = type ∧ ∀ q ∈ c.links.inbox.take i, q.before p = false

/-! ### Domains, power and resets -/

/-- The bytes of a switched domain's memories read 0, and no other byte of memory changed (R364). -/
def State.domainZeroed (s t : State) (d : Nat) : Prop :=
  (∀ r ∈ domainRanges d, ∀ i < r.2, t.mem.byte (s.chip.key s.fuse (r.1 + i)) = 0) ∧
    ∀ k, ¬ s.chip.covers s.fuse (domainRanges d) k → t.mem.byte k = s.mem.byte k

/-- What a line holds once a scrub has read it: a correctable line is written back good, an uncorrectable one stays poisoned (R153,
R154, R408). -/
def scrubbed : Health → Health
  | .good => .good
  | .ce _ => .good
  | .ue => .poison
  | .poison => .poison

/-- Every memory but the flash reads as memory that nothing has written, and the flash stands (R357, R363). -/
def State.memoryLost (s t : State) : Prop :=
  (∀ k < 6 * 2 ^ 48, t.mem.byte k = 0) ∧ ∀ k, 6 * 2 ^ 48 ≤ k → t.mem.byte k = s.mem.byte k

/-- Everything volatile outside the always-on part is at its reset value: commands, partitions, events, queues, tables, tiers, gates,
rings, links, serving, keeps and perturbed state. -/
def Chip.wiped (c : Chip) : Prop :=
  { c with time := 0, free := 1, nextCmd := 0, instant := 0, outbox := [], primary := 0, pins := State.reset.chip.pins, headers := [], regs := []
           sel := [], latch := [], trace := [], traceHead := 0, traced := 0, fatal := 0, sorrel := {}, power := {}, sec := {}, regAt := 0, serve.refillAt := 0 } =
    { ({} : Chip) with pins := State.reset.chip.pins }

/-- A device reset took place (R357, R424): everything volatile is at its reset value, every page header but FOXGLOVE's, whose counters
stand, at its own; memory is lost but for the flash; pins and fuses stand; no image runs yet; a debug session ended with cause 3. -/
def State.deviceWasReset (s t : State) : Prop :=
  t.fuse = s.fuse ∧ t.pending = s.pending ∧ s.memoryLost t ∧ t.chip.wiped ∧ (∀ f, f ≠ 0 → t.chip.hdr f = Header.reset f) ∧
    (t.chip.hdr 0).ctr = (s.chip.hdr 0).ctr ∧ t.chip.pins = s.chip.pins ∧ t.chip.primary = s.chip.primary ∧ t.chip.fatal = 0 ∧
    t.chip.power.off = false ∧ t.chip.power.pstate = 0 ∧ t.chip.sec.verified = false ∧ t.chip.sec.recovery = false ∧ t.chip.sec.dbgLevel = 0 ∧
    t.chip.sec.endCause = (if s.chip.sec.dbgLevel = 0 then 0 else 3) ∧ t.chip.sec.d3Entries = s.chip.sec.d3Entries ∧
    t.chip.time = s.chip.time

/-- P4 was entered (R367, R369): everything but the always-on part is lost, and the flash stands. -/
def State.wentOff (s t : State) : Prop :=
  t.fuse = s.fuse ∧ t.pending = s.pending ∧ s.memoryLost t ∧ t.chip.wiped ∧ t.chip.power.pstate = 4 ∧ t.chip.time = s.chip.time ∧
    (∀ e ∈ t.chip.power.domains, e.2.on = false) ∧ t.chip.pins = s.chip.pins

/-- All power went at once (R363, R430): only fuses, flash and pins stand. -/
def State.lostPower (s t : State) : Prop :=
  t.fuse = s.fuse ∧ t.pending = s.pending ∧ s.memoryLost t ∧ t.chip.wiped ∧ t.chip.power.off = true ∧ t.chip.headers = [] ∧
    t.chip.sec.dbgLevel = 0

/-- The fuses once a transition whose intent is fused has completed (R390, R391): RMA and SCRAPPED lose the identity area, SCRAPPED the
device secret; leaving OWNED, or enrolling within it, revokes the current owner slot; an enrolment fuses its slot, the first one
VENDOR_ACCEPT too. -/
def Fuses.committed (fz : Fuses) (i : Intent) : Fuses :=
  { fz with
    lifecycle := i.dest, intent := none
    ident := if i.dest = 3 ∨ i.dest = 4 then {} else fz.ident
    secret := if i.dest = 4 then 2 ^ 256 - 1 else fz.secret
    ownerRevoked := if (i.dest = 2 ∨ i.dest = 3) ∧ fz.lifecycle = 2 then listSet fz.ownerRevoked fz.ownerSlot true else fz.ownerRevoked
    ownerSlots := if i.dest = 2 then listSet fz.ownerSlots (if fz.lifecycle = 2 then fz.ownerSlot + 1 else 0) (some i.key) else fz.ownerSlots
    vendorAccept := if i.dest = 2 ∧ fz.lifecycle ≠ 2 then i.accept else fz.vendorAccept }

/-- A mailbox operation is accepted from a requester that may submit it (R402). -/
def State.mailboxFree (s : State) (r : Requester) : Prop :=
  s.chip.mboxReach s.fuse r = true ∧ s.chip.mboxMay r = true ∧ s.chip.sec.op = 0

/-- A mailbox operation ended with a result: DONE, and source 6 of FOXGLOVE (R402). -/
def State.mailboxEnds (t : State) (result : Nat) : Prop :=
  t.chip.sec.done = true ∧ t.chip.sec.result = result ∧ t.chip.sec.op = 0 ∧ (t.chip.hdr 0).irqRaw.getLsbD 6 = true

end Sys2Proof.Machine

namespace Sys2Proof

/-- The commands whose rows may program fuses or the identity area (R387, R389-R392, R393, R404, R406, R33). -/
def Instr.mayProgram : Instr → Bool
  | .regWrite _ _ _ _ _ => true
  | .devResetWrite _ _ _ => true
  | .deviceReset _ _ => true
  | .runRequest _ _ => true
  | .selftestDone _ => true
  | .powerUp _ _ _ => true
  | .lastMateContact _ _ _ => true
  | .idGenerate _ _ => true
  | .idChain _ _ => true
  | .lcToVendor _ _ => true
  | .ownerEnrol _ _ => true
  | .ownerRotate _ _ => true
  | .lcToRma _ _ => true
  | .lcScrap _ _ => true
  | .fwUpdate _ => true
  | .svnCommit _ _ => true
  | .recover _ => true
  | .forceRecovery _ => true
  | .setCertificate _ _ => true
  | _ => false

/-- The rows that are one write of a register of a page, with the page and the offset written. -/
def Instr.writeOf : Instr → Option (Requester × Page × Nat)
  | .softReset r pg => some (r, pg, 0x008)
  | .ctrClr r pg => some (r, pg, 0x008)
  | .irqClr r pg _ => some (r, pg, 0x01C)
  | .elogClear r pg => some (r, pg, 0x03C)
  | .segOwnerWrite r e off _ => some (r, { blk := .cowslip, inst := e }, off)
  | .portEnable r p _ => some (r, { blk := .vetch, inst := p }, 0x100)
  | .retrain r p => some (r, { blk := .vetch, inst := p }, 0x100)
  | .deviceIdWrite r _ => some (r, { blk := .vetchFab, inst := 0 }, 0x100)
  | _ => none

end Sys2Proof
end

