-- ==== Sys2Proof/Certificates/Slice0/Obligations.lean ====
section
/-! DEFINITION. The statements for the provers. Each docstring names the rules of spec/ it formalises. A statement about a step
takes the state as `sound`: what every step keeps (Obligations.StepKeepsSound) and reset has (Obligations.ResetState). -/

open Sys2Proof Sys2Proof.Machine

/-! ### The step -/

/-- The block takes the command at the front of its queue and runs it with the queue's rest. -/
def Obligations.StepRunsFront : Prop :=
  ∀ (i : Instr) (rest : List Instr) (s : State), step { s with pending := i :: rest } = exec i { s with pending := rest }

/-- What a device reset leaves (R424, R43, R350, R390): sound, no command, page headers 0 but IRQ_MASK, which has every
implemented bit, no partition, event entries at their defaults, queues disabled, lifecycle MFG. The model's choices in it: logs 2,
9, 15. -/
def Obligations.ResetState : Prop :=
  State.reset.sound ∧ State.reset.pending = [] ∧ State.reset.chip.cmds = [] ∧ State.reset.chip.parts = [] ∧
    State.reset.chip.fatal = 0 ∧ State.reset.fuse.lifecycle = 0 ∧
    (∀ pg : Page, pg.ok = true →
      State.reset.chip.hdr pg.frame = { irqMask := BitVec.ofNat 32 (2 ^ pg.blk.nIrq - 1) } ∧ State.reset.chip.pageTag pg = none) ∧
    (∀ i, State.reset.chip.event i = {}) ∧
    (∀ q, (State.reset.chip.sq q).enable = false ∧ (State.reset.chip.sq q).state = 0 ∧ (State.reset.chip.cq q).enable = false) ∧
    ∀ k, State.reset.mem.byte k = 0

/-- Every step keeps memory in canonical form, leaves nothing staged, and keeps the lifecycle one of R390. The model's choices in
it: logs 2, 5. -/
def Obligations.StepKeepsSound : Prop := ∀ s t : State, s.sound → step s = .next t → t.sound

/-- Fuses go one way (R389, R390): no step lowers the lifecycle or SVN_MIN or takes back a revocation, and a command outside
`Instr.mayProgram` leaves every fuse and the identity area as they are. -/
def Obligations.FusesOneWay : Prop :=
  (∀ s t : State, step s = .next t → s.fuse.after t.fuse) ∧
    ∀ (i : Instr) (s t : State), i.mayProgram = false → exec i s = .next t → t.fuse = s.fuse

/-- Every command has an effect: none ends in a fault or a refusal, and none changes the queue. -/
def Obligations.EveryCommandCompletes : Prop := ∀ (i : Instr) (s : State), nextWith (exec i s) (fun t => t.pending = s.pending)

/-! ### Registers and pages -/

/-- CTR_CLR zeroes every counter of the page with its SAT bit (R32), QUIESCE takes the written value (R29), IRQ_CLR clears the
bits written 1 of IRQ_RAW (R30, R31), ELOG_CLEAR empties the log with COUNT and OVERFLOW (R411): nothing else changes.

COUNTER_LO_READ (R32): a read of CTRn_LO returns bits 31 to 0 and latches bits 63 to 32 with n for this requester alone; a
read of CTRn_HI returns the latched value if the requester's latch holds n, else the live bits, and leaves the latch. -/
def Obligations.PageControlsAndCounters : Prop :=
  (∀ (s : State) (r : Requester) (pg : Page), s.sound → s.reached r pg →
     (s.chip.mayWrite r pg 0x008 = true →
       becomesJust (.ctrClr r pg) s (s.chip.putHdr pg.frame { s.chip.hdr pg.frame with ctr := List.replicate 8 0, satMap := 0 })) ∧
     (s.chip.mayQuiesce r pg = true → ∀ on,
       becomesJust (.quiesce r pg on) s (s.chip.putHdr pg.frame { s.chip.hdr pg.frame with quiesce := on })) ∧
     (s.chip.mayWrite r pg 0x01C = true → ∀ mask,
       becomesJust (.irqClr r pg mask) s (s.chip.putHdr pg.frame
         { s.chip.hdr pg.frame with
           irqRaw := (s.chip.hdr pg.frame).irqRaw &&& ~~~ BitVec.ofNat 32 mask
           rsvdWr := (s.chip.hdr pg.frame).rsvdWr || mask &&& (0xFFFFFFFF - (2 ^ pg.blk.nIrq - 1)) != 0 })) ∧
     (s.chip.mayWrite r pg 0x03C = true →
       becomesJust (.elogClear r pg) s (s.chip.putHdr pg.frame { s.chip.hdr pg.frame with elog := {} }))) ∧
  (∀ (s : State) (r : Requester) (pg : Page) (off n : Nat), s.sound → n < 8 →
     (Chip.target s.ctx s.chip r off = some (pg, 0x040 + 8 * n) →
       becomesJust (.counterLoRead r .control off 32) s
         (({ s.chip with
             latch := tabSet s.chip.latch (2 ^ 14 * r.code + pg.frame) (n, (s.chip.hdr pg.frame).ctr.getD n 0 / 2 ^ 32) } : Chip).send
           (.readData r.code off ((s.chip.hdr pg.frame).ctr.getD n 0 % 2 ^ 32)))) ∧
     (Chip.target s.ctx s.chip r off = some (pg, 0x044 + 8 * n) →
       (s.chip.hdr pg.frame).ctr.getD n 0 < 2 ^ 64 → (∀ m h, tabFind s.chip.latch (2 ^ 14 * r.code + pg.frame) = some (m, h) → h < 2 ^ 32) →
       becomesJust (.counterLoRead r .control off 32) s
         (s.chip.send (.readData r.code off (match tabFind s.chip.latch (2 ^ 14 * r.code + pg.frame) with
           | some (m, h) => if m = n then h else (s.chip.hdr pg.frame).ctr.getD n 0 / 2 ^ 32
           | none => (s.chip.hdr pg.frame).ctr.getD n 0 / 2 ^ 32)))))

/-- SOFT_RESET of a page that no fetched command acts on (R28): the block-specific registers and IRQ_RAW return to reset, READY
reads 0, perturbation is disarmed (R419); VF_WRITE, the counters, the error log, the tables and every other page stand. READY
returns when the block is up. The model's choices in it: log 55. -/
def Obligations.SoftReset : Prop :=
  (∀ (s : State) (r : Requester) (pg : Page), s.sound → s.reached r pg → s.chip.mayWrite r pg 0x008 = true →
    (∀ k ∈ s.chip.cmds, (s.chip.pagesOf k).contains pg = false) →
    nextWith (exec (.softReset r pg) s) (fun t =>
      t.mem = s.mem ∧ t.fuse = s.fuse ∧
      t.chip.hdr pg.frame =
        { s.chip.hdr pg.frame with
          ready := false, irqRaw := 0
          pert := { (s.chip.hdr pg.frame).pert with ctrl := (s.chip.hdr pg.frame).pert.ctrl &&& ~~~ (1#32 <<< 31) } } ∧
      (∀ f, f ≠ pg.frame → t.chip.hdr f = s.chip.hdr f) ∧
      (∀ off d, 0x100 ≤ off → off < 0x1000 → t.chip.reg pg.frame off d = d) ∧
      (∀ f off d, f ≠ pg.frame → off < 0x1000 → t.chip.reg f off d = s.chip.reg f off d) ∧
      t.chip.cmds = s.chip.cmds ∧ t.chip.events = s.chip.events ∧ t.chip.sqs = s.chip.sqs ∧ t.chip.cqs = s.chip.cqs ∧
      t.chip.fns = s.chip.fns ∧ t.chip.tables = s.chip.tables ∧ t.chip.parts.map Prod.fst = s.chip.parts.map Prod.fst ∧
      t.chip.bridge = s.chip.bridge ∧ t.chip.gates = s.chip.gates ∧ t.chip.serve = s.chip.serve ∧
      t.chip.coll = (if pg.blk = .coll then {} else s.chip.coll))) ∧
  ∀ (s : State) (pg : Page), s.sound → pg.ok = true → s.chip.blockUp pg = true →
    becomesJust (.softResetDone pg) s (s.chip.putHdr pg.frame { s.chip.hdr pg.frame with ready := true })

/-- A refused write changes nothing and sets ACCESS_DENIED (R33); in the fatal state and in SCRAPPED no register write has an
effect (R358, R400). -/
def Obligations.RefusedWrites : Prop :=
  ∀ (i : Instr) (s : State) (r : Requester) (pg : Page) (off : Nat), s.sound → i.writeOf = some (r, pg, off) →
    (s.reached r pg → s.chip.mayWrite r pg off = false →
      becomesJust i s (s.chip.putHdr pg.frame { s.chip.hdr pg.frame with accessDenied := true })) ∧
    (s.chip.fatal ≠ 0 ∨ s.fuse.lifecycle = 4 → exec i s = .next s)

/-- REG_WRITE of a stored read-write register (R8, R9, R33): the writable bits read back as written, a reserved bit written 1 sets
RSVD_WR, every other register and all else stands; a write of another width or alignment sets BAD_WIDTH alone (R26). REG_WRITE of the
event table's memory (R46): of an entry its requester owns it takes THRESHOLD, FLAGS[1:0] and MSIX_VECTOR; one that touches any other
byte, or an entry of another, is refused whole with ACCESS_ERROR. Of a function's BAR2 (R341, R346, R350): the rows of the doorbells and
of queue configuration, the bases, COAL_US, and the function's own registers; the pending bits take nothing. Of its configuration space
(R336, R338, R355): the bits that are stored, within the payload and request sizes of R336; bit 15 of the device control resets the
function; VF Enable and NumVFs. The places in the configuration space are the model's, log 79. The model's choices in it: log 79. -/
def Obligations.StoredRegisterWrite : Prop :=
  (∀ (s : State) (r : Requester) (pg : Page) (off o v : Nat), s.sound → s.chip.fatal = 0 → s.fuse.lifecycle ≠ 4 →
    Chip.target s.ctx s.chip r off = some (pg, o) →
    (∀ mask reset, 0x100 ≤ o → o % 4 = 0 → regKind pg.blk o = .rw mask reset → s.chip.mayWrite r pg o = true → v < 2 ^ 32 →
      nextWith (exec (.regWrite r .control off 32 v) s) (fun t =>
        t.mem = s.mem ∧ t.fuse = s.fuse ∧ t.pending = s.pending ∧
        t.chip.reg pg.frame o reset = v &&& regDefined pg.blk o &&& mask ∧
        (∀ f q d, regKey f q ≠ regKey pg.frame o → t.chip.reg f q d = s.chip.reg f q d) ∧
        t.chip.hdr pg.frame =
          { s.chip.hdr pg.frame with
            rsvdWr := (s.chip.hdr pg.frame).rsvdWr || v &&& (0xFFFFFFFF - regDefined pg.blk o) != 0 } ∧
        (∀ f, f ≠ pg.frame → t.chip.hdr f = s.chip.hdr f) ∧
        { t.chip with regs := [], headers := [] } = { s.chip with regs := [], headers := [] })) ∧
    ∀ width, (width ≠ 32 ∧ width ≠ 64) ∨ o % (width / 8) ≠ 0 →
      becomesJust (.regWrite r .control off width v) s (s.chip.putHdr pg.frame { s.chip.hdr pg.frame with badWidth := true })) ∧
  (∀ (s : State) (r : Requester) (i v : Nat), s.sound → s.chip.fatal = 0 → i < 2 ^ 16 → s.chip.reachesEvents s.fuse r = true →
    let e := s.chip.event i
    (s.chip.ownsEvent r i = true → s.entryGood i → e.threshold < 2 ^ 32 → e.vector < 2 ^ 16 → (∀ p, e.owner = some p → p < 16) →
      (v < 2 ^ 32 → becomesJust (.regWrite r .event (16 * i + 4) 32 v) s (s.chip.putEvent i { e with threshold := v })) ∧
      (v < 2 ^ 16 → becomesJust (.regWrite r .event (16 * i + 10) 16 v) s (s.chip.putEvent i { e with vector := v })) ∧
      (v < 4 → becomesJust (.regWrite r .event (16 * i + 9) 8 v) s
        (s.chip.putEvent i { e with irqOn := v % 2 = 1, fabric := 2 ≤ v })) ∧
      (4 ≤ v → v < 256 → becomesJust (.regWrite r .event (16 * i + 9) 8 v) s (s.chip.send (.writeRefused r.code (16 * i + 9) 2)))) ∧
    ∀ o n, o < 16 → 0 < n → s.chip.ownsEvent r i = false ∨ (∃ j < n, o + j < 4 ∨ o + j = 8 ∨ 12 ≤ o + j) →
      becomesJust (.regWrite r .event (16 * i + o) (8 * n) v) s (s.chip.send (.writeRefused r.code (16 * i + o) 2))) ∧
  (∀ (s : State) (r : Requester) (fn q v : Nat), s.sound → fnOf r = some fn → s.chip.fnWrites fn = true → s.chip.sec.recovery = false →
    q < 256 → v < 2 ^ 32 →
    let f := s.chip.fnRegs fn
    let u := s.chip.sq (256 * fn + q)
    let w := s.chip.cq (256 * fn + q)
    let write (off : Nat) : Instr := .regWrite r .bar2 off 32 v
    exec (write (4096 * q)) s = exec (.sqTailDoorbell fn q v) s ∧
    exec (write (4096 * q + 4)) s = exec (.cqHeadDoorbell fn q v) s ∧
    (2 ^ 31 ≤ v → exec (write (0x110008 + 32 * q)) s = exec (.sqEnable fn q v) s ∧ exec (write (0x112008 + 32 * q)) s = exec (.cqEnable fn q v) s) ∧
    (v < 2 ^ 31 → exec (write (0x112008 + 32 * q)) s = exec (.cqDisable fn q v) s) ∧
    becomesJust (write (0x110000 + 32 * q)) s (s.chip.putSq (256 * fn + q)
      (if u.enable then { u with cause := 4 } else { u with base := u.base / 2 ^ 32 * 2 ^ 32 + v / 64 * 64 })) ∧
    becomesJust (write (0x112000 + 32 * q)) s (s.chip.putCq (256 * fn + q)
      (if w.enable then { w with cause := 4 } else { w with base := w.base / 2 ^ 32 * 2 ^ 32 + v / 64 * 64 })) ∧
    becomesJust (write (0x112014 + 32 * q)) s (s.chip.putCq (256 * fn + q) { w with coalUs := v % 65536 }) ∧
    becomesJust (write 0x114004) s (s.chip.putFn fn { f with roEn := v % 2 = 1 }) ∧
    becomesJust (write 0x114008) s (s.chip.putFn fn { f with pageVec := BitVec.ofNat 32 (v &&& 0x800007FF) }) ∧
    becomesJust (write 0x11400C) s (s.chip.putFn fn { f with errVec := BitVec.ofNat 32 (v &&& 0x800007FF) }) ∧
    becomesJust (write 0x114014) s (s.chip.putFn fn { f with win4 := v % 1024 }) ∧
    (∀ off, 0x108000 ≤ off → off < 0x110000 → exec (write off) s = .next s)) ∧
  ∀ (s : State) (r : Requester) (fn o v : Nat), s.sound → fnOf r = some fn → s.chip.fnExists fn = true → v < 2 ^ 32 → o % 4 = 0 →
    let d := s.chip.cfgPut fn o v
    ((o < 0x200 → o ≠ 0x078 → becomesJust (.regWrite r .config o 32 v) s d ∧ d.cfgBits fn o = v &&& (s.chip.fnRegs fn).cfgMask (fn % 32 = 0) o) ∧
     (o = 0x078 → bitAt v 15 = false → becomesJust (.regWrite r .config o 32 v) s d ∧
       (bitField v 7 5 ≤ 2 → bitField v 14 12 ≤ 5 → d.cfgBits fn o = v &&& 0x71FF)) ∧
     (o = 0x078 → bitAt v 15 = true → s.chip.unarmed →
       exec (.regWrite r .config o 32 v) s = exec (.functionLevelReset fn) { s with chip := d }) ∧
     (o = 0x208 → fn % 32 = 0 → bitAt v 0 ≠ (s.chip.port (fn / 32)).vfEnable → s.chip.unarmed →
       exec (.regWrite r .config o 32 v) s = exec (.vfEnable (fn / 32) (bitAt v 0) (s.chip.port (fn / 32)).numVfs) { s with chip := d }) ∧
     (o = 0x210 → fn % 32 = 0 → (s.chip.port (fn / 32)).vfEnable = false →
       becomesJust (.regWrite r .config o 32 v) s (s.chip.putPort (fn / 32) { s.chip.port (fn / 32) with numVfs := min (v % 65536) 31 })))

/-- Rows that write link and segment registers, by a requester that may (R250, R251, R309): PORT_ENABLE sets ENABLE, RETRAIN sets
RETRAIN, DEVICE_ID_WRITE takes effect while no port has LINK_UP and is else refused, SEG_OWNER_WRITE takes effect while no
command runs. -/
def Obligations.LinkAndSegmentWrites : Prop :=
  (∀ (s : State) (r : Requester) (n : Nat), s.sound → s.reached r { blk := .vetch, inst := n } →
    s.chip.mayWrite r { blk := .vetch, inst := n } 0x100 = true →
    (∀ on, becomesJust (.portEnable r n on) s (s.chip.putLink n { s.chip.link n with enable := on })) ∧
    becomesJust (.retrain r n) s (s.chip.putLink n { s.chip.link n with retrain := true })) ∧
  (∀ (s : State) (v : Nat), s.sound → s.reached .mgmt { blk := .vetchFab, inst := 0 } → v &&& 0x7FFFF000 = 0 → v < 2 ^ 32 →
    ((∀ n < 24, s.chip.linkUp n = false) → becomesJust (.deviceIdWrite .mgmt v) s { s.chip with links.deviceId := v }) ∧
    ((∃ n < 24, s.chip.linkUp n = true) →
      becomesJust (.deviceIdWrite .mgmt v) s
        (s.chip.putHdr 0x00A { s.chip.hdr 0x00A with accessDenied := true }))) ∧
  ∀ (s : State) (r : Requester) (e off v : Nat), s.sound → s.reached r { blk := .cowslip, inst := e } →
    s.chip.mayWrite r { blk := .cowslip, inst := e } off = true → 0x130 ≤ off → off ≤ 0x154 → off % 4 = 0 → v < 2 ^ 32 →
    (∀ k ∈ s.chip.cmds, k.phase = .waiting) →
    nextWith (exec (.segOwnerWrite r e off v) s) (fun t =>
      t.mem = s.mem ∧ t.fuse = s.fuse ∧ t.pending = s.pending ∧ t.chip.reg (0x080 + e) off 0 = v ∧
      (∀ f q d, regKey f q ≠ regKey (0x080 + e) off → t.chip.reg f q d = s.chip.reg f q d) ∧
      { t.chip with regs := [], power.domains := [] } = { s.chip with regs := [], power.domains := [] })

/-- WIN_ENABLE (R149, R164): an ENABLE of 1 succeeds if BASE is a multiple of 12 and SIZE at least 1, the range lies inside HBM,
overlaps no other enabled window and no command of the owning partition runs; else ENABLE stays and ERR records the cause, 1 to 4 in that
order.

PERT_ARM by the holder of a D3 session (R417, R418): the register's defined bits read back as written, with the kinds the
page does not have at 0; nothing but the page's perturbation and RSVD_WR changes. Without a session the write is refused.

A one-shot ECC injection of two bits of a word, armed on a CDMA page for a line of its wide buffer (R417, R419): the GRADBUF_ZERO that next
writes the line stores it with an error its code cannot correct, FIRED and EXPIRED are set and ARM clears; the scrub that reads it poisons
it and logs MEM_UE with INJECTED set (R408, R410). The model's choices in it: logs 65, 88, 89. -/
def Obligations.WindowsAndPerturbation : Prop :=
  (∀ (s : State) (r : Requester), s.sound → s.chip.writeReaches s.fuse r { blk := .hbmmap, inst := 0 } = true →
     s.chip.mayWrite r { blk := .hbmmap, inst := 0 } 0x10C = true →
     let i := s.chip.selOf r.code 0x007 0x100 % 64
     let w := s.chip.window i
     let clear := ∀ e ∈ s.chip.tiers.windows, e.1 ≠ i → e.2.enable = true →
       w.base + 12 * w.size ≤ e.2.base ∨ e.2.base + 12 * e.2.size ≤ w.base ∨ e.2.size = 0
     let shaped := w.base % 12 = 0 ∧ 0 < w.size
     let inside := w.base + 12 * w.size ≤ 226492416
     let refused (err : Nat) := becomesJust (.winEnable r true) s (s.chip.putWindow i { w with err := err })
     (w.enable = true → exec (.winEnable r true) s = .next s) ∧
     (w.enable = false → shaped → inside → clear → s.chip.partRunning (i / 4) = false →
       becomesJust (.winEnable r true) s (s.chip.putWindow i { w with enable := true })) ∧
     (w.enable = false → ¬ shaped → refused 1) ∧
     (w.enable = false → shaped → ¬ inside → refused 2) ∧
     (w.enable = false → shaped → inside → ¬ clear → refused 3) ∧
     (w.enable = false → shaped → inside → clear → s.chip.partRunning (i / 4) = true → refused 4) ∧
     (s.chip.partRunning (i / 4) = false → becomesJust (.winEnable r false) s (s.chip.putWindow i { w with enable := false })) ∧
     (s.chip.partRunning (i / 4) = true → becomesJust (.winEnable r false) s (s.chip.putWindow i { w with err := 4 }))) ∧
  (∀ (s : State) (r : Requester) (pg : Page) (off v : Nat), s.sound → s.reached r pg → 0x084 ≤ off → off ≤ 0x0A8 → off % 4 = 0 →
     (s.chip.session r 3 = true → v < 2 ^ 32 →
       nextWith (exec (.pertArm r pg off v) s) (fun t =>
         t.mem = s.mem ∧ t.fuse = s.fuse ∧ t.pending = s.pending ∧
         t.chip.readHeader r.code pg off =
           (if off = 0x084 then v &&& headerMask pg.blk off &&& (0xFFFFFFFF - (127 - (127 &&& pg.blk.pertCap))) else v &&& headerMask pg.blk off) ∧
         (∀ q, 0x084 ≤ q → q ≤ 0x0A8 → q % 4 = 0 → q ≠ off → t.chip.readHeader r.code pg q = s.chip.readHeader r.code pg q) ∧
         { t.chip.hdr pg.frame with pert := {}, rsvdWr := false } = { s.chip.hdr pg.frame with pert := {}, rsvdWr := false } ∧
         (∀ f, f ≠ pg.frame → t.chip.hdr f = s.chip.hdr f) ∧
         { t.chip with headers := [] } = { s.chip with headers := [] })) ∧
     (s.chip.sec.dbgLevel = 0 →
       becomesJust (.pertArm r pg off v) s (s.chip.putHdr pg.frame { s.chip.hdr pg.frame with accessDenied := true }))) ∧
  ∀ (s : State) (id a : Nat) (k : Cmd), s.sound → s.placed → s.chip.runs id 0x41 k → s.chip.accumHeld k k.inst = false → k.inst < 96 →
    let f := 0x200 + k.inst
    let h := s.chip.hdr f
    let p := h.pert
    let off := k.fld 16 4
    let b0 := bitField p.ecc.toNat 8 0
    let b1 := bitField p.ecc.toNat 24 16
    let line := s.chip.key s.fuse a / 64
    off + k.fld 20 4 ≤ 0x200000 → wideAddr k.inst off ≤ a → a + 64 ≤ wideAddr k.inst (off + k.fld 20 4) → a % 64 = 0 →
    (f, h) ∈ s.chip.headers → (∀ e ∈ s.chip.headers, e.1 ≠ f → e.2.pert.ctrl.getLsbD 31 = false) → p.ctrl = 0x80000008#32 → p.used = [] →
    bitField p.ecc.toNat 31 29 = 2 → b0 ≠ b1 → b0 / 32 = b1 / 32 → p.addrLo.toNat + 2 ^ 32 * p.addrHi.toNat = a →
    nextWith (exec (.gradbufZero id) s) (fun t =>
      let q := (t.chip.hdr f).pert
      t.mem.health line = .ue ∧ t.mem.isInjected line = true ∧ q.fired = true ∧ q.expired = true ∧ q.ctrl.getLsbD 31 = false ∧
      (h.elog.valid = false → s.chip.sramOn a = true → s.chip.power.off = false → nextWith (exec (.sramScrub a []) t) (fun u =>
        let e := (u.chip.hdr f).elog
        u.mem.health line = .poison ∧ e.valid = true ∧ e.injected = true ∧ e.cls = 2 ∧ e.severity = 1 ∧ e.detail = 3 ∧ e.addr = some a)))

/-- WDT_KICK (R415): the key restarts the watchdog, another value is ignored, another requester is refused. SELFTEST_START (R405):
a test starts, or is refused with RESULT 4 where a partition claims the pair or the engine has a segment owner; a PART_FORM that runs
claims its pairs (log 68). The model's choices in it: logs 38, 68. -/
def Obligations.ControllerWrites : Prop :=
  (∀ (s : State) (v : Nat), s.sound → s.chip.writeReaches s.fuse .mgmt { blk := .sorrel, inst := 0 } = true →
    becomesJust (.wdtKick .mgmt v) s (if v = 0x0000C1C1 then { s.chip with sorrel.lastKick := s.chip.time } else s.chip)) ∧
  (∀ (s : State) (r : Requester) (v : Nat), s.sound → r ≠ .mgmt → s.chip.writeReaches s.fuse r { blk := .sorrel, inst := 0 } = true →
    becomesJust (.wdtKick r v) s (s.chip.putHdr 0x001 { s.chip.hdr 0x001 with accessDenied := true })) ∧
  ∀ (s : State) (r : Requester) (i : Nat), s.sound → s.chip.writeReaches s.fuse r { blk := .spare, inst := 0 } = true →
    s.chip.mayWrite r { blk := .spare, inst := 0 } 0x118 = true → s.chip.selftest.busy = false →
    (i < 48 → s.chip.pairClaimed i = false →
      becomesJust (.selftestStart r (2 ^ 31 + i)) s { s.chip with selftest := { busy := true, engine := false, index := i, result := 0 } }) ∧
    (i < 48 → (∃ e ∈ s.chip.parts, bitAt e.2.pairs i = true) ∨ s.chip.pairClaimed i = true →
      becomesJust (.selftestStart r (2 ^ 31 + i)) s { s.chip with selftest := { busy := false, engine := false, index := i, result := 4 } }) ∧
    (i < 12 → s.chip.reg (0x080 + i) 0x150 0 = 0 → s.chip.reg (0x080 + i) 0x154 0 = 0 →
      becomesJust (.selftestStart r (2 ^ 31 + 256 + i)) s { s.chip with selftest := { busy := true, engine := true, index := i, result := 0 } }) ∧
    (i < 12 → s.chip.reg (0x080 + i) 0x150 0 ≠ 0 ∨ s.chip.reg (0x080 + i) 0x154 0 ≠ 0 →
      becomesJust (.selftestStart r (2 ^ 31 + 256 + i)) s { s.chip with selftest := { busy := false, engine := true, index := i, result := 4 } })

/-- Frames that no page has (R422): they read as 0 at every offset, and writes to them change nothing, no status bit anywhere; no
page shares a frame with another, and SPAN reads 1 in every page. -/
def Obligations.UnassignedFrames : Prop :=
  (∀ (s : State) (r : Requester) (off width v : Nat), s.sound → (∀ a b, r ≠ .vf a b) → Page.ofFrame (off / 4096) = none →
    becomesJust (.counterLoRead r .control off width) s (s.chip.send (.readData r.code off 0)) ∧
    exec (.regWrite r .control off width v) s = .next s) ∧
  (∀ p q : Page, p.ok = true → q.ok = true → p.frame = q.frame → p = q) ∧
  ∀ (s : State) (r : Requester) (p : Page), s.chip.readHeader r.code p 0x004 % 256 = 1

/-! ### Events and the life of a command -/

/-- EVT_SIGNAL sets COUNT to the smaller of COUNT + n and 0xFFFF_FFFF and sets OVERFLOW at that maximum; EVT_RESET sets COUNT to 0
and clears POISONED and OVERFLOW, and waiting commands stay waiting; an entry the requester may not touch sets ACCESS_DENIED and
changes nothing (R44, R46). An entry whose oldest waiter needs more than its count keeps all its waiters, whatever the younger need; a
signal that moves COUNT from below THRESHOLD to it or above raises MSIX_VECTOR of the owner's function (R44). A signal that lets the
oldest waiter take starts it with what is left of COUNT, and the next waiter stands (R44, R45).

NOP does nothing and commits (R35); EVENT_RESET resets its entry and commits, the reset before its own signal (R45, R47). -/
def Obligations.EventCommands : Prop :=
  (∀ (s : State) (r : Requester) (i n : Nat), s.sound → s.chip.writeReaches s.fuse r { blk := .evt, inst := 0 } = true →
     (∀ a b, r ≠ .vf a b) → i < 2 ^ 16 → n < 2 ^ 16 → s.entryGood i →
     let e := s.chip.event i
     let v := min (e.count + n) 0xFFFFFFFF
     let up := s.chip.putEvent i { e with count := v, overflow := e.overflow || v = 0xFFFFFFFF }
     (s.chip.mayEvent r i = true →
       (up.blocked i →
         becomes (.evtSignal r (2 ^ 16 * i + n)) s (up.looked s.ctx i) ∧
         ∀ p pt, e.irqOn = true → e.count < e.threshold → e.threshold ≤ v → e.owner = some p → s.chip.part? p = some pt →
           nextWith (exec (.evtSignal r (2 ^ 16 * i + n)) s) (fun t => s.chip.raised t.chip pt.fn e.vector)) ∧
       (let c := s.chip.putEvent i { e with count := 0, poisoned := false, overflow := false }
        c.blocked i → becomesJust (.evtReset r i) s (c.looked s.ctx i)) ∧
       ∀ w k rest, e.waiters = w :: rest → w ∉ rest → e.poisoned = false → e.irqOn = false → s.chip.cmd? w = some k →
         k.flag 2 = true → k.taken = false → k.fld 8 2 = i → k.fld 12 2 ≤ v → (up.noteAll s.ctx).starts s.ctx k →
         (rest = [] ∨ ∃ w' k', rest.head? = some w' ∧ s.chip.cmd? w' = some k' ∧ k'.phase = .waiting ∧ k'.flag 2 = true ∧
           k'.taken = false ∧ k'.fld 8 2 = i ∧ v - k.fld 12 2 < k'.fld 12 2) →
         nextWith (exec (.evtSignal r (2 ^ 16 * i + n)) s) (fun t =>
           t.mem = s.mem ∧ t.fuse = s.fuse ∧ t.pending = s.pending ∧
           (∃ j, t.chip.cmd? w = some j ∧ j.phase = .running ∧ j.taken = true ∧ j.startNs = s.chip.time ∧ j.desc = k.desc) ∧
           t.chip.cmds.filter (fun j => j.id ≠ w) = s.chip.cmds.filter (fun j => j.id ≠ w) ∧
           (t.chip.event i).count = v - k.fld 12 2 ∧ (t.chip.event i).waiters = rest ∧ ∀ j, j ≠ i → t.chip.event j = s.chip.event j)) ∧
     (s.chip.mayEvent r i = false →
       becomesJust (.evtSignal r (2 ^ 16 * i + n)) s (s.chip.deny { blk := .evt, inst := 0 }) ∧
       becomesJust (.evtReset r i) s (s.chip.deny { blk := .evt, inst := 0 }))) ∧
  (∀ (s : State) (id : Nat) (k : Cmd), s.sound → (∀ i, (s.chip.event i).waiters = []) →
     let j := s.chip.accounted { k with phase := .ended }
     let reset (e : Event) : Event := { e with count := 0, poisoned := false, overflow := false }
     (s.chip.runs id 0x00 k → k.flag 3 = false → nextWith (exec (.nop id) s) (fun t =>
       t.mem = s.mem ∧ t.fuse = s.fuse ∧ s.chip.ended t.chip j 0 0 ∧ ∀ i, t.chip.event i = s.chip.event i)) ∧
     (s.chip.runs id 0x01 k → s.entryGood (k.fld 16 2) → k.flag 3 = false → nextWith (exec (.eventReset id) s) (fun t =>
       t.mem = s.mem ∧ t.fuse = s.fuse ∧ s.chip.ended t.chip j 0 0 ∧
       t.chip.event (k.fld 16 2) = reset (s.chip.event (k.fld 16 2)) ∧
       ∀ i, i ≠ k.fld 16 2 → t.chip.event i = s.chip.event i)) ∧
     (s.chip.runs id 0x01 k → s.entryGood (k.fld 16 2) → k.flag 3 = true → s.entryGood (k.fld 10 2) →
       nextWith (exec (.eventReset id) s) (fun t =>
         let i := k.fld 10 2
         let e := if i = k.fld 16 2 then reset (s.chip.event i) else s.chip.event i
         let v := min (e.count + k.fld 14 2) 0xFFFFFFFF
         t.mem = s.mem ∧ t.fuse = s.fuse ∧ t.chip.cmds = s.chip.cmds.filter (fun j => j.id ≠ id) ∧
         t.chip.event i = { e with count := v, overflow := e.overflow || v = 0xFFFFFFFF } ∧
         (i ≠ k.fld 16 2 → t.chip.event (k.fld 16 2) = reset (s.chip.event (k.fld 16 2))) ∧
         ∀ j, j ≠ i → j ≠ k.fld 16 2 → t.chip.event j = s.chip.event j)))

/-- COMMAND_START of a command that may start, whose turn it is and whose checks pass (R36, R37, R44, R318): it runs from now, its
WAIT_EN take is made, no other command and no memory changes; the start of a GATE_SEAL is the time of the seal (R216). What has become
ready on a shared engine by then has its turn by R318 (log 98). The model's choices in it: log 98. -/
def Obligations.CommandStarts : Prop :=
  ∀ (s : State) (id : Nat) (k : Cmd), s.sound → s.chip.cmd? id = some k → k.phase = .waiting →
    let w := k.fld 8 2
    let e := s.chip.event w
    (e.waiters = [] ∨ (k.flag 2 = true ∧ k.taken = false ∧ e.waiters = [id])) → e.poisoned = false → s.entryGood w →
    (s.chip.noteAll s.ctx).starts s.ctx k →
    nextWith (exec (.commandStart id) s) (fun t =>
      t.mem = s.mem ∧ t.fuse = s.fuse ∧
      (∃ j, t.chip.cmd? id = some j ∧ j.phase = .running ∧ j.startNs = s.chip.time ∧ j.taken = true ∧ j.desc = k.desc ∧ j.acct = k.acct) ∧
      t.chip.cmds.filter (fun j => j.id ≠ id) = s.chip.cmds.filter (fun j => j.id ≠ id) ∧
      (t.chip.event w).count = (if k.flag 2 && !k.taken then e.count - k.fld 12 2 else e.count) ∧
      (k.flag 2 = true → k.taken = false → (t.chip.event w).waiters = []) ∧
      (∀ i, i ≠ w → t.chip.event i = s.chip.event i) ∧
      (∀ p, s.chip.cmdPart k = some p → (t.chip.gate p).sealAt =
        if k.tclass = 0 ∧ k.opcode = 0x21 then some ((s.chip.gate p).sealAt.getD s.chip.time) else (s.chip.gate p).sealAt) ∧
      t.chip.headers = s.chip.headers ∧ t.chip.sqs = s.chip.sqs ∧ t.chip.cqs = s.chip.cqs ∧ t.chip.outbox = s.chip.outbox ∧
      t.chip.regs = s.chip.regs ∧ t.chip.tables = s.chip.tables ∧ t.chip.tiers = s.chip.tiers)

/-- A command that waits on a poisoned entry completes with EVENT_POISONED without running and without taking; with SIGNAL_EN
its own entry is poisoned (R40). -/
def Obligations.PoisonedWait : Prop :=
  ∀ (s : State) (id : Nat) (k : Cmd), s.sound → s.chip.cmd? id = some k → k.phase = .waiting → k.flag 2 = true →
    k.taken = false → (s.chip.event (k.fld 8 2)).poisoned = true → s.chip.orderOk k = true → (s.chip.noteAll s.ctx).inOrder s.ctx k = true →
    s.entryGood (k.fld 8 2) →
    ((s.chip.event (k.fld 8 2)).waiters = [] ∨ (s.chip.event (k.fld 8 2)).waiters = [id]) →
    (∀ i, i ≠ k.fld 8 2 → (s.chip.event i).waiters = []) →
    nextWith (exec (.commandStart id) s) (fun t =>
      t.mem = s.mem ∧ s.chip.ended t.chip k 9 0 ∧
      (∀ i, (t.chip.event i).count = (s.chip.event i).count) ∧
      (k.flag 3 = true → (t.chip.event (k.fld 10 2)).poisoned = true) ∧
      ∀ i, i ≠ k.fld 8 2 → (k.flag 3 = false ∨ i ≠ k.fld 10 2) → t.chip.event i = s.chip.event i)

/-- COMMAND_COMMIT of a command in its commit phase (R38, R40, R41, R332): it leaves with its record, its time and energy added; with
SIGNAL_EN and SUCCESS its event is signalled, with any other status its event is poisoned instead; memory stands. A record write that
fails is lost and puts the CQ in ERROR with CAUSE 2 (R349). The model's choices in it: logs 27, 99. -/
def Obligations.CommandCommits : Prop :=
  ∀ (s : State) (id : Nat) (k : Cmd), s.sound → s.chip.cmd? id = some k → k.phase = .ended →
    (∀ i, (s.chip.event i).waiters = []) → s.entryGood (k.fld 10 2) →
    let i := k.fld 10 2
    let v := min ((s.chip.event i).count + k.fld 14 2) 0xFFFFFFFF
    let full := k.flag 3 && k.status = 0 && v = 0xFFFFFFFF
    let a := { (s.chip.accounted k).acct with evtOverflow := k.acct.evtOverflow || full }
    let events (t : State) : Prop :=
      (t.chip.event i).count = (if k.flag 3 && k.status = 0 then v else (s.chip.event i).count) ∧
      (t.chip.event i).overflow = ((s.chip.event i).overflow || full) ∧
      (t.chip.event i).poisoned = ((s.chip.event i).poisoned || k.flag 3 && k.status ≠ 0) ∧
      ∀ j, j ≠ i → t.chip.event j = s.chip.event j
    nextWith (exec (.commandCommit id true) s) (fun t =>
      t.mem = s.mem ∧ t.fuse = s.fuse ∧ s.chip.ended t.chip { k with acct := a } k.status k.detail ∧ events t) ∧
    (s.chip.cqOpen k → nextWith (exec (.commandCommit id false) s) (fun t =>
      t.mem = s.mem ∧ t.fuse = s.fuse ∧ t.chip.cmds = s.chip.cmds.filter (fun j => j.id ≠ id) ∧ events t ∧
      let q := t.chip.cq (256 * k.fn + (s.chip.sq k.queue).cq)
      q.error = true ∧ q.cause = 2 ∧ q.waiting = [] ∧ q.written = (s.chip.cq (256 * k.fn + (s.chip.sq k.queue).cq)).written))

/-! ### The host interface -/

/-- Doorbells outside P3 (R346): a tail of an enabled queue inside its ring and a head that does not pass the tail are taken, and
CTR0 of the port counts them (R359). A tail of a queue that is not enabled (CAUSE 2), a tail outside its ring and a head beyond the tail
(CAUSE 1) are ignored: CTR7 of the port counts them and ERR_VECTOR is raised. -/
def Obligations.Doorbells : Prop :=
  ∀ (s : State) (fn q v : Nat), s.sound → s.chip.fnWrites fn = true → s.chip.power.pstate ≠ 3 →
    (let u := s.chip.sq (256 * fn + q)
     (u.enable = true → v < ringSlots u.sizeLog2 →
       becomes (.sqTailDoorbell fn q v) s (s.chip.putSq (256 * fn + q) { u with tail := v }) ∧
       nextWith (exec (.sqTailDoorbell fn q v) s) (fun t => s.chip.counted t.chip (0x010 + fn / 32) 0 1)) ∧
     (u.enable = false → hostError (.sqTailDoorbell fn q v) s fn 7 (s.chip.putSq (256 * fn + q) { u with cause := 2 })) ∧
     (u.enable = true → ringSlots u.sizeLog2 ≤ v → hostError (.sqTailDoorbell fn q v) s fn 7 (s.chip.putSq (256 * fn + q) { u with cause := 1 }))) ∧
    (let u := s.chip.cq (256 * fn + q)
     let n := ringSlots u.sizeLog2
     let far := (u.tail + n - u.head) % n < (v + n - u.head) % n
     (v < n → ¬ far →
       becomes (.cqHeadDoorbell fn q v) s (s.chip.putCq (256 * fn + q) { u with head := v }) ∧
       nextWith (exec (.cqHeadDoorbell fn q v) s) (fun t => s.chip.counted t.chip (0x010 + fn / 32) 0 1)) ∧
     (n ≤ v ∨ far → hostError (.cqHeadDoorbell fn q v) s fn 7 (s.chip.putCq (256 * fn + q) { u with cause := 1 })))

/-- Queue configuration (R345, R349): a disabled SQ whose CQ is enabled starts empty, ENABLED, or, with ENABLE 1, DRAINING until what is left
of it has ended (log 99); without such a CQ CAUSE 5; a disabled CQ starts empty with its vector, and records that wait for it go on waiting,
since every command has one (R41, log 99); an enabled queue refuses with CAUSE 4; a CQ that an enabled SQ feeds refuses to be disabled with
CAUSE 3; disabling an SQ ends an unstarted command of it CANCELLED, with its record; an SQ with nothing left is DISABLED at once; a write
with ENABLE 0 of a queue that is not enabled writes its configuration. The model's choices in it: log 99. -/
def Obligations.QueueConfiguration : Prop :=
  ∀ (s : State) (fn q v : Nat), s.sound → s.chip.fnWrites fn = true → q < 256 →
    let u := s.chip.sq (256 * fn + q)
    let w := s.chip.cq (256 * fn + q)
    let cfg := { u with cq := bitField v 23 16, sizeLog2 := v % 32 }
    let left (n : Nat) : Prop := u.inFlight ≠ 0 ∨ u.reading ≠ none ∨ ∃ r ∈ (s.chip.cq (256 * fn + n)).waiting, r.sq = q
    (u.enable = false → (s.chip.cq (256 * fn + cfg.cq)).enable = true → u.state = 0 ∨ ¬ left cfg.cq →
      becomesJust (.sqEnable fn q v) s (s.chip.putSq (256 * fn + q) { cfg with enable := true, state := 1, head := 0, tail := 0 })) ∧
    (u.enable = false → (s.chip.cq (256 * fn + cfg.cq)).enable = true → u.state ≠ 0 → left cfg.cq →
      becomesJust (.sqEnable fn q v) s (s.chip.putSq (256 * fn + q) { cfg with enable := true, state := 2, head := 0, tail := 0 })) ∧
    (u.enable = false → (s.chip.cq (256 * fn + cfg.cq)).enable = false →
      becomesJust (.sqEnable fn q v) s (s.chip.putSq (256 * fn + q) { cfg with cause := 5 })) ∧
    (u.enable = true → becomesJust (.sqEnable fn q v) s (s.chip.putSq (256 * fn + q) { u with cause := 4 })) ∧
    (u.enable = false → becomesJust (.sqDisable fn q v) s (s.chip.putSq (256 * fn + q) cfg)) ∧
    (∀ k, u.enable = true → s.chip.cmds.filter (fun j => j.queue = 256 * fn + q ∧ j.phase = .waiting) = [k] → s.chip.cmd? k.id = some k →
      (∀ i, (s.chip.event i).waiters = []) →
      nextWith (exec (.sqDisable fn q v) s) (fun t =>
        let d := t.chip.sq (256 * fn + q)
        t.mem = s.mem ∧ t.fuse = s.fuse ∧ t.pending = s.pending ∧ s.chip.ended t.chip k 0x13 0 ∧ d.enable = false ∧ d.head = u.head ∧
        (k.flag 3 = true → (t.chip.event (k.fld 10 2)).poisoned = true) ∧
        (s.chip.cqOpen k → d.state = if u.inFlight ≤ 1 ∧ u.reading = none then 0 else 2))) ∧
    (u.enable = true → (∀ k ∈ s.chip.cmds, k.queue ≠ 256 * fn + q) → left u.cq →
      becomesJust (.sqDisable fn q v) s (s.chip.putSq (256 * fn + q) { u with enable := false, state := 2 })) ∧
    (u.enable = true → (∀ k ∈ s.chip.cmds, k.queue ≠ 256 * fn + q) → ¬ left u.cq →
      becomesJust (.sqDisable fn q v) s (s.chip.putSq (256 * fn + q) { u with enable := false, state := 0 })) ∧
    (w.enable = false →
      becomesJust (.cqEnable fn q v) s (s.chip.putCq (256 * fn + q)
        { w with enable := true, irqEn := bitAt v 30, vector := bitField v 26 16, sizeLog2 := v % 32, head := 0, written := 0
                 due := false, lastMsg := none, masked := false })) ∧
    (w.enable = true → becomesJust (.cqEnable fn q v) s (s.chip.putCq (256 * fn + q) { w with cause := 4 })) ∧
    (w.enable = false →
      becomesJust (.cqDisable fn q v) s (s.chip.putCq (256 * fn + q)
        { w with irqEn := bitAt v 30, vector := bitField v 26 16, sizeLog2 := v % 32 })) ∧
    (w.enable = true → (∀ i < 256, (s.chip.sq (256 * fn + i)).enable = true → (s.chip.sq (256 * fn + i)).cq ≠ q) →
      becomesJust (.cqDisable fn q v) s (s.chip.putCq (256 * fn + q) { w with enable := false })) ∧
    (w.enable = true → (∃ i < 256, (s.chip.sq (256 * fn + i)).enable = true ∧ (s.chip.sq (256 * fn + i)).cq = q) →
      becomesJust (.cqDisable fn q v) s (s.chip.putCq (256 * fn + q) { w with cause := 3 }))

/-- DESCRIPTOR_FETCH by the queue whose turn it is reads up to 16 descriptors from the head, not past the tail, the ring's end or 64
unstarted commands (R347); a queue whose turn it is not reads none; DESCRIPTOR_READ_DONE appends the descriptors to the fetched
commands in ring order, waiting. A read that fails puts the queue in ERROR with CAUSE 3, counts in CTR6 of the port and raises ERR_VECTOR
(R349). Whose turn it is: log 80; that one read ends at the ring's end, and is cut so that no more than 64 commands wait: log 100. -/
def Obligations.DescriptorReads : Prop :=
  (∀ (s : State) (fn q : Nat), s.sound → q < 256 →
    let u := s.chip.sq (256 * fn + q)
    let size := ringSlots u.sizeLog2
    let n := min (min 16 ((u.tail + size - u.head) % size)) (min (size - u.head) (64 - s.chip.unstarted (256 * fn + q)))
    (s.chip.fetchTurn fn q = true → s.chip.fnReach fn = true → s.chip.fatal = 0 → u.state = 1 → u.reading = none → n ≠ 0 →
      becomesJust (.descriptorFetch fn q) s
        ((((s.chip.putFn fn { s.chip.fnRegs fn with turn := q + 1 }).putPort (fn / 32) { s.chip.port (fn / 32) with turn := fn % 32 + 1 }).putSq
          (256 * fn + q) { u with reading := some (u.head, n), head := (u.head + n) % size }).send (.descRead fn q u.head n))) ∧
    (s.chip.fetchTurn fn q = false → exec (.descriptorFetch fn q) s = .next s)) ∧
  (∀ (s : State) (fn q a n : Nat) (r : HostRead), s.sound → (s.chip.sq (256 * fn + q)).reading = some (a, n) → (∀ b, r ≠ .data b) →
    hostError (.descriptorReadDone fn q r) s fn 6
      (s.chip.putSq (256 * fn + q) { s.chip.sq (256 * fn + q) with reading := none, state := 3, cause := 3 })) ∧
  ∀ (s : State) (fn q a n : Nat) (b : List Byte), s.sound → (s.chip.sq (256 * fn + q)).reading = some (a, n) →
    (s.chip.sq (256 * fn + q)).state = 1 →
    nextWith (exec (.descriptorReadDone fn q (.data b)) s) (fun t =>
      t.mem = s.mem ∧ t.fuse = s.fuse ∧ (t.chip.sq (256 * fn + q)).reading = none ∧
      (t.chip.sq (256 * fn + q)).inFlight = (s.chip.sq (256 * fn + q)).inFlight + n ∧
      t.chip.cmds.map (fun k => k.desc) = s.chip.cmds.map (fun k => k.desc) ++ descsOf n b ∧
      t.chip.cmds.take s.chip.cmds.length = s.chip.cmds ∧
      (∀ k ∈ t.chip.cmds.drop s.chip.cmds.length, k.phase = .waiting ∧ k.queue = 256 * fn + q ∧ s.chip.nextCmd ≤ k.id) ∧
      ∀ i, t.chip.event i = s.chip.event i)

/-- PENDING_RECORD_WRITE writes the oldest waiting record as 32 bytes once its slot is free and the regulator lets it (R7, R348, R352),
else it waits on; a write that fails puts the CQ in ERROR with CAUSE 2 and loses what waits (R349); with none waiting the row with a failure
is the host's late report of a record already sent (log 99).

MSIX_UNMASK opens an entry and sends its pending message; CQ_COAL_TIMER makes a vector held back by COAL_US due once the interval has
passed since its last message, sent or, while masked, pending (R348, R351). -/
def Obligations.RecordsAndVectors : Prop :=
  (∀ (s : State) (fn q : Nat), s.sound → q < 256 →
    let u := s.chip.cq (256 * fn + q)
    (∀ r rs, u.waiting = r :: rs → u.enable = true → u.full = false → s.chip.recordLets fn = true →
      nextWith (exec (.pendingRecordWrite fn q true) s) (fun t =>
        t.mem = s.mem ∧ t.fuse = s.fuse ∧ t.pending = s.pending ∧ t.chip.cmds = s.chip.cmds ∧ t.chip.events = s.chip.events ∧
        (t.chip.cq (256 * fn + q)).waiting = rs ∧ (t.chip.cq (256 * fn + q)).written = u.written + 1 ∧
        (∀ j, j ≠ 256 * fn + q → t.chip.cq j = s.chip.cq j) ∧ (∀ j, j ≠ 256 * fn + r.sq → t.chip.sq j = s.chip.sq j) ∧
        Out.record fn q (u.base + 32 * u.tail)
          (Record.bytes { r with sqHead := (s.chip.sq (256 * fn + r.sq)).head } ((u.written / ringSlots u.sizeLog2 + 1) % 2 = 1)) ∈ t.chip.outbox) ∧
      nextWith (exec (.pendingRecordWrite fn q false) s) (fun t =>
        t.mem = s.mem ∧ t.fuse = s.fuse ∧ t.pending = s.pending ∧ t.chip.cmds = s.chip.cmds ∧ t.chip.events = s.chip.events ∧
        t.chip.cq (256 * fn + q) = { u with error := true, cause := 2, waiting := [] } ∧
        ∀ j, j ≠ 256 * fn + q → t.chip.cq j = s.chip.cq j)) ∧
    (u.waiting ≠ [] → u.enable = false ∨ u.full = true ∨ s.chip.recordLets fn = false → ∀ ok, exec (.pendingRecordWrite fn q ok) s = .next s) ∧
    (u.waiting = [] → exec (.pendingRecordWrite fn q true) s = .next s) ∧
    (u.waiting = [] → u.enable = true → u.error = false → u.written ≠ 0 →
      nextWith (exec (.pendingRecordWrite fn q false) s) (fun t =>
        t.mem = s.mem ∧ t.fuse = s.fuse ∧ t.pending = s.pending ∧ t.chip.cmds = s.chip.cmds ∧ t.chip.events = s.chip.events ∧
        t.chip.cq (256 * fn + q) = { u with error := true, cause := 2 } ∧ s.chip.countedMore t.chip (0x010 + fn / 32) 6 1 ∧
        s.chip.errRaised t.chip fn))) ∧
  (∀ (s : State) (fn v : Nat), s.sound →
    let u := s.chip.fnRegs fn
    let c := s.chip.putFn fn { u with unmasked := u.unmasked.filter (· ≠ v) ++ [v], pendingVecs := u.pendingVecs.filter (· ≠ v) }
    (u.pendingVecs.contains v = false → becomesJust (.msixUnmask fn v) s c) ∧
    (u.pendingVecs.contains v = true →
      nextWith (exec (.msixUnmask fn v) s) (fun t =>
        t.mem = s.mem ∧ t.fuse = s.fuse ∧ t.pending = s.pending ∧
        Chip.reports { c with cqs := c.cqs.map (fun e =>
          if e.1 / 256 = fn ∧ e.2.masked = true ∧ e.2.vector = v then (e.1, { e.2 with masked := false, lastMsg := some c.time }) else e) } t.chip ∧
        (t.chip.fnRegs fn).pendingVecs.contains v = false ∧
        ((s.chip.port (fn / 32)).linkUp = true → v < msixSize fn → u.message fn v ∈ t.chip.outbox)))) ∧
  ∀ (s : State) (fn q : Nat), s.sound → q < 256 →
    let u := s.chip.cq (256 * fn + q)
    let passed := u.coalUs = 0 ∨ ∀ last, u.lastMsg = some last → last + 1000 * u.coalUs ≤ s.chip.time
    let open_ := (s.chip.port (fn / 32)).linkUp = true ∧ u.vector < msixSize fn
    let masked := open_ ∧ (s.chip.fnRegs fn).unmasked.contains u.vector = false
    (u.due = true → passed → ¬ masked →
      nextWith (exec (.cqCoalTimer fn q) s) (fun t =>
        t.mem = s.mem ∧ t.fuse = s.fuse ∧ t.pending = s.pending ∧
        Chip.reports (s.chip.putCq (256 * fn + q) { u with due := false, lastMsg := some s.chip.time }) t.chip ∧
        (open_ → (s.chip.fnRegs fn).message fn u.vector ∈ t.chip.outbox))) ∧
    (u.due = true → passed → masked →
      nextWith (exec (.cqCoalTimer fn q) s) (fun t =>
        t.mem = s.mem ∧ t.fuse = s.fuse ∧ t.pending = s.pending ∧
        Chip.reports (s.chip.putCq (256 * fn + q) { u with due := false, masked := true }) t.chip ∧
        (t.chip.fnRegs fn).pendingVecs.contains u.vector = true)) ∧
    (u.due = false ∨ ¬ passed → exec (.cqCoalTimer fn q) s = .next s)

/-- BAR4 (R343): a write inside the window of bytes the function may reach is stored and read back by a BAR4 read of the same function;
every other byte of memory stands. Shown for memory without bad lines and no perturbation armed. A read in any state (R343, R388, R409):
a function that is not reachable, and a read beyond BAR4 or beyond HBM, get Unsupported Request; bytes the function may not read
Completer Abort, both refusals of the window counted in CTR7; what may be read is data, poisoned where a line of it is; in recovery mode
the window shows the 64 MiB of the bridge, as it stands. The model's choices in it: logs 54, 55, 79, 109. -/
def Obligations.WindowFour : Prop :=
  (∀ (s : State) (fn off : Nat) (d : List Byte), s.sound → s.chip.fnWrites fn = true → s.chip.sec.recovery = false →
    s.chip.bar4Held fn = false → s.calm → d ≠ [] → off + d.length ≤ s.chip.bar4Size fn →
    let a := (s.chip.fnRegs fn).win4 * 2 ^ 30 + off
    a + d.length ≤ 0xD800000000 → s.chip.bar4May fn a d.length true = true → s.chip.bar4May fn a d.length false = true →
    (∀ i < d.length, ∀ j < d.length, s.chip.key s.fuse (a + i) = s.chip.key s.fuse (a + j) → i = j) →
    nextWith (exec (.bar4Write fn off d) s) (fun t =>
      t.fuse = s.fuse ∧ t.chip.cmds = s.chip.cmds ∧
      (∀ i < d.length, t.mem.byte (s.chip.key s.fuse (a + i)) = d.getD i 0) ∧
      (∀ k, (∀ i < d.length, s.chip.key s.fuse (a + i) ≠ k) → t.mem.byte k = s.mem.byte k) ∧
      (t.chip.bar4Held fn = false → nextWith (exec (.bar4Read fn off d.length) t) (fun u =>
        u.mem = t.mem ∧ Out.readBytes fn d false ∈ u.chip.outbox)))) ∧
  ∀ (s : State) (fn off n : Nat), s.sound →
    let a := (s.chip.fnRegs fn).win4 * 2 ^ 30 + off
    let open_ := s.chip.fnReach fn = true ∧ off + n ≤ s.chip.bar4Size fn
    let counts (o : Out) : Prop := becomes (.bar4Read fn off n) s s.chip ∧ nextWith (exec (.bar4Read fn off n) s) (fun t =>
      o ∈ t.chip.outbox ∧ s.chip.counted t.chip (0x010 + fn / 32) 7 1)
    (¬ open_ → becomesJust (.bar4Read fn off n) s (s.chip.send (.readUR fn))) ∧
    (open_ → s.chip.sec.recovery = true → off + n ≤ 0x4000000 →
      becomesJust (.bar4Read fn off n) s (s.chip.send (.readBytes fn (s.chip.rdBytes s.ctx (bridgeAddr off) n) false))) ∧
    (open_ → s.chip.sec.recovery = true → 0x4000000 < off + n → counts (.readUR fn)) ∧
    (open_ → s.chip.sec.recovery = false → 0xD800000000 < a + n → counts (.readUR fn)) ∧
    (open_ → s.chip.sec.recovery = false → a + n ≤ 0xD800000000 → s.chip.bar4May fn a n false = false → counts (.readCA fn)) ∧
    (open_ → s.chip.sec.recovery = false → a + n ≤ 0xD800000000 → s.chip.bar4May fn a n false = true →
      (s.chip.bar4Held fn = true → exec (.bar4Read fn off n) s = .next s) ∧
      (s.chip.bar4Held fn = false → s.chip.unarmed →
        nextWith (exec (.bar4Read fn off n) s) (fun t =>
          t.fuse = s.fuse ∧ t.pending = s.pending ∧ t.chip.cmds = s.chip.cmds ∧ t.chip.events = s.chip.events ∧ t.chip.sqs = s.chip.sqs ∧
          t.chip.cqs = s.chip.cqs ∧ t.mem.cells = s.mem.cells ∧
          ((∀ l ∈ linesOf a n, s.chip.lineHealth s.ctx l = .good) →
            t.mem = s.mem ∧ Out.readBytes fn (s.chip.rdBytes s.ctx a n) false ∈ t.chip.outbox) ∧
          ((∃ l ∈ linesOf a n, s.chip.lineHealth s.ctx l = .ue ∨ s.chip.lineHealth s.ctx l = .poison) →
            Out.readBytes fn (s.chip.rdBytes s.ctx a n) true ∈ t.chip.outbox))))

/-! ### Arrays and vector units -/

/-- ARRAY_MM (R85-R88, R114-R116): every row of C, with its scales for an MX format, is written as the outputs encode, and no
other byte of memory changes; the command succeeds.

ARRAY_EW (R94, R95): D = A ∘ B, or A ∘ B + C, with one rounding, is written in each unit; it takes ⌈LEN / (128 · v · arrays)⌉ +
255 + B_c beats in a unit beside the freezes it meets. On a pair each cell works on a vector of its own, and the beats of both are added
(log 78). The model's choices in it: logs 21, 78. -/
def Obligations.ArrayCommands : Prop :=
  (∀ (s : State) (id : Nat) (env : Env) (k : Cmd), s.sound → s.calm → env.upsets = [] → s.chip.runs id 0x10 k →
     let p := s.chip.own k
     let o := s.chip.fmt k p (k.fld 18 1 % 16)
     let rows (sh : MmShare) : List (Nat × List Byte) := (List.range sh.nc).flatMap (fun n =>
       let row := (s.chip.mmOuts s.ctx p k sh).getD n []
       let e := encodeRow o (row.map (fun q => q.val))
       let data := if o.code = 11 then (row.map (fun q => leBytes 4 q.word)).flatten else e.1
       let scales := if o.code = 11 then [] else e.2.1
       (storeBase sh.unit + k.fld 40 4 + 64 * k.fld 60 2 * n, data) ::
         (if o.isMx then [(storeBase sh.unit + k.fld 52 4 + n * (sh.mc / 32), scales)] else []))
     nextWith (exec (.arrayMm id env) s) (fun t =>
       t.fuse = s.fuse ∧ t.pending = s.pending ∧ s.chip.settles t.chip id 0 0 ∧
       s.stores t ((s.chip.mmShares s.ctx p k).flatMap rows) [] ∧ t.chip.regs = s.chip.regs ∧ t.chip.gates = s.chip.gates ∧
       { t.chip.tiers with resid := [], units := [] } = { s.chip.tiers with resid := [], units := [] })) ∧
  (∀ (s : State) (id : Nat) (env : Env) (k : Cmd), s.sound → s.calm → env.upsets = [] → s.chip.runs id 0x11 k →
     let p := s.chip.own k
     let len := k.fld 24 4
     let a := s.chip.fmt k p (k.fld 17 1 % 16)
     let b := s.chip.fmt k p (k.fld 17 1 / 16)
     let cf := s.chip.fmt k p (k.fld 18 1 / 16)
     let o := s.chip.fmt k p (k.fld 18 1 % 16)
     let elem (f : Fmt) (u off scale i : Nat) : Val := rowElem f (s.chip.rd s.ctx) (storeBase u + k.fld off 4) (storeBase u + k.fld scale 4) i
     let value (u i : Nat) : Val :=
       let ab := (elem a u 28 44 i).mul (elem b u 32 48 i)
       (if k.fld 16 1 = 1 then ab.add (elem cf u 36 52 i) else ab).scale (k.sfld 20)
     let e (u : Nat) := encodeRow o ((List.range len).map (value u))
     let outs (u : Nat) : List (Nat × List Byte) :=
       (storeBase u + k.fld 40 4, (e u).1) :: (if o.isMx then [(storeBase u + k.fld 56 4, (e u).2.1)] else [])
     nextWith (exec (.arrayEw id env) s) (fun t =>
       t.fuse = s.fuse ∧ t.pending = s.pending ∧ s.chip.settles t.chip id 0 0 ∧ s.stores t (k.units.flatMap outs) [] ∧
       t.chip.regs = s.chip.regs ∧ t.chip.keeps = s.chip.keeps ∧ { t.chip.tiers with resid := [], units := [] } = { s.chip.tiers with resid := [], units := [] } ∧ t.chip.parts = s.chip.parts ∧
       ∀ j, t.chip.cmd? id = some j →
         j.acct.beats = k.acct.beats + (k.units.map (fun u =>
           ceilDiv (2 * len) (128 * (if k.fld 19 1 = 2 then 2 else 1) * vHalves a b) + 255 +
             ceilDiv ((e u).1.length + (if o.isMx then (e u).2.1.length else 0)) 4096 + (k.unitEnv env u).feed + (k.unitEnv env u).drain)).sum))

/-- BWD_FUSED and MM_GRAD (R128, R129, R193, R194, R197): dX is written as its outputs encode, and each weight gradient is added
in binary32 into its word of the wide buffer; no other byte changes. -/
def Obligations.BackwardProducts : Prop :=
  (∀ (s : State) (id : Nat) (env : Env) (k : Cmd), s.sound → s.calm → env.upsets = [] → s.chip.runs id 0x18 k →
    let p := s.chip.own k
    let dw := bitAt (k.fld 16 1) 0
    let d := (s.chip.bwdOperands p k (scratchAddr k.inst 0)).2.2.2
    let added (i : Nat) (row : List MmOut) : Nat × List Byte :=
      let a := wideAddr k.inst (4 * ((k.fld 48 4 + 512 * i) / 4))
      (a, ((List.range row.length).map (fun j =>
        leBytes 4 (fadd (s.chip.rdNat s.ctx (a + 4 * j) 4) ((row.map MmOut.bufferWord).getD j 0)))).flatten)
    let dx := (List.range (k.fld 30 2)).flatMap (fun i =>
      let e := encodeRow d.fmt (((s.chip.bwdDx s.ctx p k).getD i []).map (fun q => q.val))
      [(d.base + i * d.pitch, e.1), (d.scales + i * (k.fld 28 2 / 32), e.2.1)])
    (dw = true → s.chip.accumHeld k k.inst = false) →
    nextWith (exec (.bwdFused id env) s) (fun t =>
      t.fuse = s.fuse ∧ t.pending = s.pending ∧ s.chip.settles t.chip id 0 0 ∧ t.chip.regs = s.chip.regs ∧
      s.stores t (dx ++ (if dw then (List.range (k.fld 27 1)).map (fun i => added i ((s.chip.bwdDw s.ctx p k).getD i [])) else [])) [])) ∧
  ∀ (s : State) (id : Nat) (env : Env) (k : Cmd), s.sound → s.calm → env.upsets = [] → s.chip.runs id 0x19 k →
    s.chip.accumHeld k k.inst = false →
    let p := s.chip.own k
    let outs := s.chip.mmOuts s.ctx p k { unit := k.inst, mc := k.fld 22 2, nc := k.fld 24 2 }
    let added (i : Nat) : Nat × List Byte :=
      let a := wideAddr k.inst (4 * ((k.fld 40 4 + 64 * k.fld 60 2 * i) / 4))
      let row := (outs.getD i []).map (fun q => toF32 q.val)
      (a, ((List.range row.length).map (fun j => leBytes 4 (fadd (s.chip.rdNat s.ctx (a + 4 * j) 4) (row.getD j 0)))).flatten)
    nextWith (exec (.mmGrad id env) s) (fun t =>
      t.fuse = s.fuse ∧ t.pending = s.pending ∧ s.chip.settles t.chip id 0 0 ∧ t.chip.regs = s.chip.regs ∧
      s.stores t ((List.range (k.fld 24 2)).map added) [])

/-- The vector commands (R121-R123, R199-R203): VEC_ACT writes the curve's values and, with SEG, their region codes; VEC_DACT
writes slope times gradient; VEC_ARGMAX writes the record of the maximum or minimum. Nothing else in memory changes. -/
def Obligations.VectorCommands : Prop :=
  ∀ (s : State) (id : Nat) (env : Env) (k : Cmd), s.sound → s.calm → env.upsets = [] →
    let p := s.chip.own k
    let len := k.fld 24 4
    let base := scratchAddr k.inst 0
    let first := vecOperand (s.chip.fmt k p (k.fld 17 1 % 16)) (base + k.fld 28 4) len
    let out := vecOperand (s.chip.fmt k p (k.fld 17 1 / 16)) (base + k.fld 32 4) len
    let grad := vecOperand (s.chip.fmt k p (k.fld 18 1 % 16)) (base + k.fld 40 4) len
    let rd := s.chip.rd s.ctx
    let done (t : State) (outs : List (Nat × List Byte)) : Prop :=
      t.fuse = s.fuse ∧ t.pending = s.pending ∧ s.chip.settles t.chip id 0 0 ∧ s.stores t outs [] ∧ t.chip.regs = s.chip.regs ∧
        t.chip.keeps = s.chip.keeps ∧ { t.chip.tiers with resid := [], units := [] } = { s.chip.tiers with resid := [], units := [] } ∧ t.chip.parts = s.chip.parts
    (∀ im, s.chip.runs id 0x1A k → s.chip.imageFor k (tableKey 2 p (k.fld 16 1 % 32)) = some im →
      let ys := (List.range len).map (fun e => curveAct im (toF32 ((first.val rd 0 e).scale (-(k.sfld 19)))))
      let enc := encodeRow out.fmt (ys.map (fun y => (ofF32 y.1).scale (k.sfld 20)))
      nextWith (exec (.vecAct id env) s) (fun t =>
        done t ([(out.base, enc.1), (out.scales, enc.2.1)] ++
          (if bitAt (k.fld 16 1) 7 then [(base + k.fld 36 4, packBits 4 (ys.map Prod.snd))] else [])))) ∧
    (∀ im, s.chip.runs id 0x1B k → s.chip.imageFor k (tableKey 2 p (k.fld 16 1 % 32)) = some im →
      let der := s.chip.imageFor k (tableKey 2 p (k.fld 16 1 % 32 + 1))
      let value (e : Nat) : Val :=
        let dy := toF32 ((grad.val rd 0 e).scale (-(k.sfld 21)))
        let slope := curveSlope im der (toF32 ((first.val rd 0 e).scale (-(k.sfld 19))))
          (if curveFld im 0 25 1 = 0 then segCode rd (base + k.fld 36 4) e else 0)
        (ofF32 (fmul (if ofF32 dy = .nan then f32.canonNan else slope) dy)).scale (k.sfld 20)
      let enc := encodeRow out.fmt ((List.range len).map value)
      nextWith (exec (.vecDact id env) s) (fun t => done t [(out.base, enc.1), (out.scales, enc.2.1)])) ∧
    ∀ r, s.chip.runs id 0x1C k →
      let dst := base + k.fld 40 4
      argReduce (!bitAt (k.fld 16 1) 0)
        ((if bitAt (k.fld 16 1) 1 then [argOfBytes (s.chip.rdBytes s.ctx dst 16)] else []) ++
          (List.range len).map (fun e => argOne (toF32 (first.val rd 0 e)) (k.fld 32 8 + e))) = some r →
      nextWith (exec (.vecArgmax id env) s) (fun t => done t [(dst, r.bytes)])

/-- Promotion (R111): a narrow value n at scale S becomes n · 2^S exactly while |n · 2^S| < 2^128, an infinity of its sign
beyond, and +0 for 0; one promotion makes one block, and an infinity sets NF_SEEN. -/
def Obligations.Promotion : Prop :=
  (∀ n S : Int, -2097152 ≤ n → n ≤ 2097152 → -128 ≤ S →
    promote 0 S = 0 ∧
    (∀ m e, n ≠ 0 → (n.natAbs : Int) * 2 ^ (S + 128).toNat < 2 ^ 256 → ofF32 (promote n S) = .num (n < 0) m e →
      (m : Int) * 2 ^ (e + 149).toNat = (n.natAbs : Int) * 2 ^ (S + 149).toNat ∧ -149 ≤ e) ∧
    (n ≠ 0 → (n.natAbs : Int) * 2 ^ (S + 128).toNat < 2 ^ 256 → ∃ m e, ofF32 (promote n S) = .num (n < 0) m e) ∧
    ((2 : Int) ^ 256 ≤ (n.natAbs : Int) * 2 ^ (S + 128).toNat → ofF32 (promote n S) = .inf (n < 0))) ∧
  ∀ (acc : Int) (p : Nat) (ps : List Val) (st : AccState), 0 < p → st.pall = false → st.blocks < 2 ^ 24 → st.r = 0 →
    (groupSum acc [ps] st.nf).2.1 = false →
    (accumulate acc p [ps] st).st.blocks = st.blocks + 1 ∧ (accumulate acc p [ps] st).log = [] ∧
    (f32.nonFinite (promote (groupSum acc [ps] st.nf).1 acc) = true → (accumulate acc p [ps] st).nfSeen = true)

/-! ### Training: the step gate and the optimiser -/

/-- GRAD_SUMSQ (R212, R215): its words, cut into blocks of 65,536, reach the partition's gate in order; memory stands.

OPT_UPDATE (R205-R209, R217): with the gate SKIPPED it completes NONFINITE_SKIP and with the gate ABANDONED STEP_ABANDONED, and
writes nothing; with the gate READY masters, states and the working copy become what the program makes of them, the working
scratch range is left open, and nothing else in memory changes. -/
def Obligations.GradientsAndOptimiser : Prop :=
  (∀ (s : State) (id : Nat) (env : Env) (k : Cmd), s.sound → s.calm → env.upsets = [] → s.chip.runs id 0x1D k →
     let p := s.chip.own k
     let n := k.fld 24 4
     s.chip.dramLets p [(k.fld 32 8, 4 * n)] = true →
     let ws := (List.range n).map (fun i => s.chip.rdNat s.ctx (k.fld 32 8 + 4 * i) 4)
     nextWith (exec (.gradSumsq id env) s) (fun t =>
       t.mem = s.mem ∧ t.fuse = s.fuse ∧ s.chip.settles t.chip id 0 0 ∧
       (t.chip.gate p).loc = (chunks 65536 (n + 1) ws).foldl gateAddBlock (s.chip.gate p).loc ∧
       { t.chip.gate p with loc := {} } = { s.chip.gate p with loc := {} } ∧ ∀ q, q ≠ p → t.chip.gate q = s.chip.gate q)) ∧
  (∀ (s : State) (id : Nat) (env : Env) (k : Cmd) (im : Image), s.sound → s.calm → env.upsets = [] → s.chip.runs id 0x1E k →
     let p := s.chip.own k
     let t := TensorCtx.ofBytes k.ctx
     let off := k.fld 24 4
     let n := k.fld 28 4
     let wcf := s.chip.fmt k p (t.wcFmt % 16)
     let st := optStates im
     let x := t.masterFmt == 0xC
     let es := s.chip.optElements s.ctx p k im t
     let enc := encodeRow wcf (es.map (fun o => Val.scale t.tWc o.val))
     let words (n : Nat) (f : OptOut → Nat) : List Byte := (es.map (fun o => leBytes n (f o))).flatten
     let outs := [(t.master + 4 * off, words 4 (fun o => if x then o.bits / 2 ^ 16 else o.bits))] ++
       (if x then [(t.tail + 2 * off, words 2 (fun o => o.bits))] else []) ++
       (if 1 ≤ st then [(t.m + 4 * off, words 4 (fun o => o.m))] else []) ++
       (if st = 2 then [(t.v + 4 * off, words 4 (fun o => o.v))] else []) ++ [(t.wc + wcf.rowBytes off, enc.1)] ++
       (if wcf.isMx then [(t.wcScale + off / 32, enc.2.1)] else [])
     let runs := (t.runs wcf st off n).map Prod.snd
     ((s.chip.gate p).state = .skipped → nextWith (exec (.optUpdate id env) s) (fun u => u.mem = s.mem ∧ s.chip.settles u.chip id 0x0F 0)) ∧
     ((s.chip.gate p).state = .abandoned → nextWith (exec (.optUpdate id env) s) (fun u => u.mem = s.mem ∧ s.chip.settles u.chip id 0x10 0)) ∧
     ((s.chip.gate p).state = .ready → s.chip.imageFor k (tableKey 4 p (k.fld 16 1 % 16)) = some im →
       (∀ rs, (∀ r ∈ rs, r ∈ runs) → s.chip.dramLets p rs = true) →
       nextWith (exec (.optUpdate id env) s) (fun u =>
         u.fuse = s.fuse ∧ s.chip.settles u.chip id 0 0 ∧
         s.stores u outs [(scratchAddr k.inst (k.fld 56 4), 64 * ceilDiv (17 * n) 64)] ∧
         { u.chip.gate p with slots := [] } = { s.chip.gate p with slots := [] } ∧ ∀ q, q ≠ p → u.chip.gate q = s.chip.gate q)))

/-- GATE_CFG takes the context of R211 into an UNCONFIGURED or IDLE gate and sets the epoch to 0; GATE_OPEN moves an IDLE gate to
COLLECTING, zeroes the accumulator, flags and slot sums, adds 1 to the epoch, and latches the loss scale in the partition's group
slots (R210, R256, R257). In another state each completes with BAD_OPERAND, DETAIL 16, and changes no gate (R210). -/
def Obligations.GateConfigureAndOpen : Prop :=
  ∀ (s : State) (id : Nat) (k : Cmd), s.sound →
    let p := s.chip.own k
    let g := s.chip.gate p
    let f := ctxFld k.ctx
    (s.chip.runs id 0x1F k → g.state = .unconfigured ∨ g.state = .idle →
      nextWith (exec (.gateCfg id) s) (fun t =>
        let h := t.chip.gate p
        t.mem = s.mem ∧ t.fuse = s.fuse ∧ s.chip.settles t.chip id 0 0 ∧ (∀ q, q ≠ p → t.chip.gate q = s.chip.gate q) ∧
        h.state = .idle ∧ h.epoch = 0 ∧ h.clean = 0 ∧ h.maxNorm = f 0 4 ∧ h.step = f 4 4 ∧ h.ls = signedOf 8 (f 8 1) ∧
        h.lsMin = signedOf 8 (f 9 1) ∧ h.lsMax = signedOf 8 (f 10 1) ∧ h.lateFold = bitAt (f 11 1) 0 ∧ h.growth = f 12 2 ∧
        h.group = f 14 2 ∧ h.timeoutMs = f 16 2 ∧ h.windowUs = f 18 2 ∧ h.slotAddr = f 24 8 ∧ h.loc = {} ∧ h.slots = [] ∧
        { t.chip with gates := [], cmds := [] } = { s.chip with gates := [], cmds := [] })) ∧
    (s.chip.runs id 0x1F k → g.state ≠ .unconfigured → g.state ≠ .idle →
      nextWith (exec (.gateCfg id) s) (fun t => t.mem = s.mem ∧ s.chip.settles t.chip id 5 16 ∧ t.chip.gates = s.chip.gates)) ∧
    (s.chip.runs id 0x20 k → g.state = .idle →
      nextWith (exec (.gateOpen id) s) (fun t =>
        let h := t.chip.gate p
        t.mem = s.mem ∧ t.fuse = s.fuse ∧ s.chip.settles t.chip id 0 0 ∧ (∀ q, q ≠ p → t.chip.gate q = s.chip.gate q) ∧
        h.state = .collecting ∧ h.epoch = (g.epoch + 1) % 2 ^ 32 ∧ h.loc = {} ∧ h.slots = [] ∧ h.ls = g.ls ∧ h.step = g.step ∧
        (∀ e ∈ t.chip.coll.groups, e.2.part = p → e.2.ls = some g.ls) ∧
        t.chip.coll.groups.filter (fun e => e.2.part ≠ p) = s.chip.coll.groups.filter (fun e => e.2.part ≠ p) ∧
        ((∀ r, g.result = some r → r.1 ≠ (g.epoch + 1) % 2 ^ 32) →
          { t.chip with gates := [], cmds := [], coll := {} } = { s.chip with gates := [], cmds := [], coll := {} }))) ∧
    (s.chip.runs id 0x20 k → g.state ≠ .idle →
      nextWith (exec (.gateOpen id) s) (fun t => t.mem = s.mem ∧ s.chip.settles t.chip id 5 16 ∧ t.chip.gates = s.chip.gates))

/-- GATE_SEAL of a partition in no group (R214, R216, R269): a DIRTY buffer of its cells sets ABANDON, the scalar reduction over
the one member resolves the step by R214, and the command succeeds as the gate leaves REDUCING.

GATE_CLOSE without ratio slots (R217): a READY step adds 1 to the step count and to the clean count, and LS rises when the clean
count reaches GROWTH; a SKIPPED one lowers LS, at least to LS_MIN, and zeroes the clean count; an ABANDONED one changes neither.
The gate is IDLE. The model's choices in it: log 47. -/
def Obligations.GateSealAndClose : Prop :=
  (∀ (s : State) (id p : Nat) (k : Cmd) (pt : Part), s.sound → s.chip.runs id 0x21 k → k.stage = 0 → s.chip.cmdPart k = some p →
     s.chip.part? p = some pt → (s.chip.gate p).state = .collecting → s.chip.gateGroup p = none → (s.chip.gate p).kids = [] →
     (s.chip.gate p).sent = false → (s.chip.gate p).expired = false → (s.chip.gate p).result = none →
     (∀ j ∈ s.chip.cmds, j.phase = .running → j.opcode = 0x1D ∨ j.opcode = 0x21 ∨ j.opcode = 0x71 → j.id = id) →
     let dirty := pt.cells.any (fun n => (tabGet (false, false) s.chip.tiers.gradStat n).1)
     let loc := { (s.chip.gate p).loc with abandon := (s.chip.gate p).loc.abandon || dirty }
     nextWith (exec (.gateSeal id) s) (fun t =>
       t.mem = s.mem ∧ t.fuse = s.fuse ∧ s.chip.settles t.chip id 0 0 ∧ gateResolved loc (t.chip.gate p) (s.chip.gate p) ∧
       (t.chip.gate p).step = (s.chip.gate p).step ∧ (t.chip.gate p).ls = (s.chip.gate p).ls ∧
       ∀ q, q ≠ p → t.chip.gate q = s.chip.gate q)) ∧
  (∀ (s : State) (id : Nat) (env : Env) (k : Cmd), s.sound → s.chip.runs id 0x22 k →
     let p := s.chip.own k
     let g := s.chip.gate p
     g.slotAddr = 0 → (∀ j ∈ s.chip.cmds, j.opcode = 0x1E → j.phase = .waiting) →
     g.state = .ready ∨ g.state = .skipped ∨ g.state = .abandoned →
     nextWith (exec (.gateClose id env) s) (fun t =>
       let h := t.chip.gate p
       let grown := g.growth ≠ 0 ∧ g.growth ≤ g.clean + 1
       t.mem = s.mem ∧ t.fuse = s.fuse ∧ s.chip.settles t.chip id 0 0 ∧ h.state = .idle ∧
       (∀ q, q ≠ p → t.chip.gate q = s.chip.gate q) ∧
       (g.state = .ready → h.step = (g.step + 1) % 2 ^ 32 ∧ (grown → h.ls = min (g.ls + 1) g.lsMax ∧ h.clean = 0) ∧
         (¬ grown → h.ls = g.ls ∧ h.clean = min (g.clean + 1) 0xFFFF)) ∧
       (g.state = .skipped → h.step = g.step ∧ h.ls = max (g.ls - 1) g.lsMin ∧ h.clean = 0) ∧
       (g.state = .abandoned → h.step = g.step ∧ h.ls = g.ls ∧ h.clean = g.clean) ∧
       t.chip.bridge = s.chip.bridge ∧ t.chip.regs = s.chip.regs))

/-- The gate's timers (R218, R269, R271), for a partition in no group: at TIMEOUT_MS a step still COLLECTING or REDUCING is
abandoned, and at four times that a sent record without a result abandons the step locally and fires COLL source 5; before its
time neither changes anything.

Buckets and token vectors on their timers (R304, R307): every 16 µs a level rises by its RATE up to its depth; a vector whose
oldest pending record has waited COAL_US is raised and its count cleared. Before their time neither does anything.

The command watchdog and the regulators (R319, R330): a running command past the WATCHDOG_US in force at its start (R313, log 101), the waits
of R260 left out, ends TIMEOUT with its record, and before that it goes on; a COLL_LAUNCH that ends so abandons its step (R267, log 101);
each 64 ns adds RATE lines to a regulator's level, up to its cap, and a RATE of 0 leaves it. The model's choices
in it: logs 17, 39. -/
def Obligations.Timers : Prop :=
  (∀ (s : State) (p t0 : Nat), s.sound → (s.chip.gate p).sealAt = some t0 →
     let g := s.chip.gate p
     (s.chip.time < t0 + 1000000 * g.timeoutMs → becomesJust (.sealTimeout p) s s.chip) ∧
     (t0 + 1000000 * g.timeoutMs ≤ s.chip.time → g.sent = false → g.state = .collecting ∨ g.state = .reducing →
       s.chip.gateGroup p = none → g.result = none →
       nextWith (exec (.sealTimeout p) s) (fun t =>
         t.mem = s.mem ∧ t.fuse = s.fuse ∧ (t.chip.gate p).state = .abandoned ∧ ∀ q, q ≠ p → t.chip.gate q = s.chip.gate q)) ∧
     (s.chip.time < t0 + 4000000 * g.timeoutMs → becomesJust (.resultTimeout p) s s.chip) ∧
     (t0 + 4000000 * g.timeoutMs ≤ s.chip.time → g.sent = true → g.state = .reducing →
       nextWith (exec (.resultTimeout p) s) (fun t =>
         t.mem = s.mem ∧ t.fuse = s.fuse ∧ (t.chip.gate p).state = .abandoned ∧ (t.chip.hdr 0x009).irqRaw.getLsbD 5 = true ∧
         ∀ q, q ≠ p → t.chip.gate q = s.chip.gate q))) ∧
  ((∀ s : State, s.sound →
     (s.chip.time < s.chip.serve.refillAt + 16000 → becomesJust .bucketRefill s s.chip) ∧
     (s.chip.serve.refillAt + 16000 ≤ s.chip.time →
       becomesJust .bucketRefill s { s.chip with
         serve.refillAt := s.chip.serve.refillAt + 16000
         serve.buckets := s.chip.serve.buckets.map (fun (b : Nat × Int) =>
           let e := weightEntry (s.chip.active (tableKey 8 16 0)) b.1
           (b.1, max b.2 (min (b.2 + (ctxFld e 4 2 : Nat)) (2 ^ ctxFld e 6 1 : Nat)))) })) ∧
   ∀ (s : State) (p v : Nat) (sv : Serve) (pt : Part), s.sound → s.chip.serveOf p = some sv → s.chip.part? p = some pt →
     let due (e : Nat × Nat × Nat × Bool) : Bool := e.1 = v && e.2.2.1 + 1000 * sv.f 58 2 ≤ s.chip.time
     becomes (.tokenVectorTimer p v) s
       { s.chip with serve.parts := tabSet s.chip.serve.parts p { sv with vecs := sv.vecs.filter (fun e => !due e) } } ∧
       ((∃ e ∈ sv.vecs, due e = true) → (s.chip.port (pt.fn / 32)).linkUp = true → v < (if pt.fn % 32 = 0 then 2048 else 64) →
         (s.chip.fnRegs pt.fn).unmasked.contains v = true →
         nextWith (exec (.tokenVectorTimer p v) s) (fun t => (s.chip.fnRegs pt.fn).message pt.fn v ∈ t.chip.outbox))) ∧
  ((∀ (s : State) (id p : Nat) (k : Cmd) (pt : Part), s.sound → s.chip.cmd? id = some k → k.phase = .running →
     s.chip.cmdPart k = some p → s.chip.part? p = some pt →
     let due := k.startNs + k.untimed + 1000 * k.watchdogUs
     (s.chip.time ≤ due → becomesJust (.commandWatchdogExpire id) s s.chip) ∧
     (due < s.chip.time → k.tclass = 6 → k.opcode = 0x71 → (k.flag 3 = true → (s.chip.event (k.fld 10 2)).waiters = []) →
       nextWith (exec (.commandWatchdogExpire id) s) (fun t =>
         t.mem = s.mem ∧ t.fuse = s.fuse ∧ t.chip.cmd? id = none ∧ tabFind t.chip.coll.launches id = none ∧
         (t.chip.gate p).loc.abandon = true ∧ (t.chip.hdr 0x009).irqRaw.getLsbD 2 = true ∧
         (k.flag 3 = true → (t.chip.event (k.fld 10 2)).poisoned = true))) ∧
     (due < s.chip.time → k.opcode ≠ 0x71 → tabFind s.chip.coll.launches id = none →
       (k.flag 3 = true → (s.chip.event (k.fld 10 2)).waiters = []) →
       nextWith (exec (.commandWatchdogExpire id) s) (fun t =>
         (k.opcode ≠ 0x40 → t.mem = s.mem) ∧ t.fuse = s.fuse ∧ (k.flag 3 = true → (t.chip.event (k.fld 10 2)).poisoned = true) ∧
         ∃ beats bytes, s.chip.ended t.chip (s.chip.accounted { k with acct := k.acct.plus { beats := beats, bytes64 := bytes } }) 0x0C 0))) ∧
   ∀ s : State, s.sound →
     let n := (s.chip.time - s.chip.regAt) / 64
     nextWith (exec .regulatorRefill s) (fun t =>
       t.mem = s.mem ∧ t.fuse = s.fuse ∧ t.pending = s.pending ∧ t.chip.regAt = s.chip.regAt + 64 * n ∧
       { t.chip with parts := [], regAt := 0 } = { s.chip with parts := [], regAt := 0 } ∧
       ∀ p pt, s.chip.part? p = some pt → pt.levels.length = pt.regs.length → ∃ u, t.chip.part? p = some u ∧
         { u with levels := pt.levels } = pt ∧ u.levels.length = pt.levels.length ∧
         ∀ (i : Nat) (r : Nat × Nat) (l : Int), pt.regs[i]? = some r → pt.levels[i]? = some l →
           u.levels[i]? = some (if r.1 = 0 then l else min (16 * r.2 : Int) (l + (r.1 * n : Nat)))))

/-! ### Moves -/

/-- DMA_MOVE between local memories, neither accumulating nor with a delta (R133-R136): a copy writes the source's bytes, another
move each row converted; nothing else in memory changes. With ACCUM each value is added in binary32 into its word of the wide
buffer (R128, R129). -/
def Obligations.LocalMoves : Prop :=
  ∀ (s : State) (id : Nat) (env : Env) (k : Cmd), s.sound → s.calm → env.upsets = [] → s.chip.runs id 0x40 k →
    let p := s.chip.own k
    let mode := k.fld 16 1
    let src := s.chip.moveSrc p k
    let dst := s.chip.moveDst p k
    let rd := s.chip.rd s.ctx
    src.host = false → dst.host = false → bitAt mode 1 = false → bitAt mode 3 = false → bitAt mode 4 = false →
    s.chip.dramLets p src.runs = true → s.chip.dramLets p dst.runs = true → (k.tclass = 5 → s.chip.regLets p (3 + k.inst) = true) →
    let row (i : Nat) := moveRow src dst rd (bitAt mode 0) (k.sfld 18) (k.sfld 19) none i
    let copy := src.fmt = dst.fmt ∧ k.sfld 18 = k.sfld 19 ∧ bitAt mode 0 = false
    let bytes (i : Nat) : List Byte := if copy then s.chip.rdBytes s.ctx (src.row i) src.rowBytes else (row i).1
    let aux (i : Nat) : List Byte := if copy then s.chip.rdBytes s.ctx (src.aux + i * src.auxRow) src.auxRow else (row i).2.1
    (bitAt mode 2 = false →
      nextWith (exec (.dmaMove id env) s) (fun t =>
        t.fuse = s.fuse ∧ t.pending = s.pending ∧ s.chip.settles t.chip id 0 0 ∧ t.chip.gates = s.chip.gates ∧
        s.stores t ((List.range dst.rows).flatMap (fun i => [(dst.row i, bytes i), (dst.aux + i * dst.auxRow, aux i)])) [])) ∧
    (bitAt mode 2 = true → s.chip.accumHeld k k.inst = false →
      nextWith (exec (.dmaMove id env) s) (fun t =>
        t.fuse = s.fuse ∧ t.pending = s.pending ∧ s.chip.settles t.chip id 0 0 ∧ t.chip.gates = s.chip.gates ∧
        s.stores t ((List.range dst.rows).map (fun i =>
          let a := wideAddr k.inst (4 * ((dst.row i - wideAddr k.inst 0) / 4))
          let vs := (chunks 4 (4 * dst.rowLen + 1) (row i).1).map leNat
          (a, ((List.range vs.length).map (fun j => leBytes 4 (fadd (s.chip.rdNat s.ctx (a + 4 * j) 4) (vs.getD j 0)))).flatten))) []))

/-- A move that finds its destination resident (R142): with SKIP_IF_RESIDENT and an entry of the same partition with the same tag,
offset and length, it reads and writes nothing, completes SUCCESS, moves no bytes and counts a hit in CTR4 of its CDMA page. -/
def Obligations.ResidentMove : Prop :=
  ∀ (s : State) (id : Nat) (env : Env) (k : Cmd), s.sound → env.upsets = [] → s.chip.runs id 0x40 k →
    let p := s.chip.own k
    let src := s.chip.moveSrc p k
    let dst := s.chip.moveDst p k
    let f := 0x200 + k.inst
    bitAt (k.fld 16 1) 4 = true → k.tclass = 4 → k.inst < 96 →
    (bitAt (k.fld 16 1) 2 = true ∨ bitAt (k.fld 16 1) 3 = true → s.chip.accumHeld k k.inst = false) →
    (∀ e ∈ [src, dst], e.host = false → s.chip.dramLets p e.runs = true) →
    (∃ r ∈ tabGet [] s.chip.tiers.resid k.inst,
      r.part = p ∧ r.tag = k.fld 30 2 ∧ r.off = dst.hull.1 % 0x1000000 ∧ r.len = dst.hull.2) →
    nextWith (exec (.dmaMove id env) s) (fun t =>
      t.mem = s.mem ∧ t.fuse = s.fuse ∧ s.chip.settles t.chip id 0 0 ∧ (∀ j, t.chip.cmd? id = some j → j.acct = k.acct) ∧
      ((s.chip.hdr f).ctr.length = 8 → (t.chip.hdr f).ctr.getD 4 0 = satAdd 64 ((s.chip.hdr f).ctr.getD 4 0) 1))

/-- GRADBUF_ZERO writes zeros over its range, and over a whole buffer clears DIRTY and NF; RESID_DROP drops the entries of its
partition with its tag, or all of them for tag 0 (R131, R141, R143). The model's choices in it: log 64. -/
def Obligations.ZeroAndDrop : Prop :=
  (∀ (s : State) (id : Nat) (k : Cmd), s.sound → s.placed → s.chip.unarmed → s.chip.runs id 0x41 k → s.chip.accumHeld k k.inst = false →
    nextWith (exec (.gradbufZero id) s) (fun t =>
      t.fuse = s.fuse ∧ t.pending = s.pending ∧ s.chip.settles t.chip id 0 0 ∧
      s.stores t [(wideAddr k.inst (k.fld 16 4), List.replicate (k.fld 20 4) 0)] [] ∧
      (k.fld 16 4 = 0 → k.fld 20 4 = 0x200000 → tabGet (false, false) t.chip.tiers.gradStat k.inst = (false, false)) ∧
      { t.chip with cmds := [], tiers := {} } = { s.chip with cmds := [], tiers := {} })) ∧
  ∀ (s : State) (id : Nat) (k : Cmd), s.sound → s.chip.runs id 0x42 k →
    nextWith (exec (.residDrop id) s) (fun t =>
      let old := tabGet [] s.chip.tiers.resid k.inst
      t.mem = s.mem ∧ t.fuse = s.fuse ∧ s.chip.settles t.chip id 0 0 ∧
      (∀ r, r ∈ tabGet [] t.chip.tiers.resid k.inst ↔
        r ∈ old ∧ ¬ (r.part = s.chip.own k ∧ (k.fld 16 2 = 0 ∨ r.tag = k.fld 16 2))) ∧
      (∀ n, n ≠ k.inst → tabGet [] t.chip.tiers.resid n = tabGet [] s.chip.tiers.resid n) ∧
      { t.chip with cmds := [], tiers := {} } = { s.chip with cmds := [], tiers := {} })

/-! ### The soft-target bridge and the stack engines -/

/-- RING_OPEN sets up the ring of its context with every slot FREE, the temperature entry copied in, NEXT_SEQ at SEQ_START;
RING_RESET zeroes the region and discards the row sets, and with CLOSE frees the ring, else NEXT_SEQ stands (R166, R170, R173).
The model's choices in it: log 44. -/
def Obligations.RingCommands : Prop :=
  ∀ (s : State) (id : Nat) (k : Cmd), s.sound → s.placed → s.chip.unarmed →
    (s.chip.runs id 0x50 k →
      let temp := (s.chip.imageFor k (tableKey 3 (s.chip.own k) 0)).elim [] (fun im => im.entry 8 (ctxFld k.ctx 10 1))
      let r := { ringFrom k.ctx temp with openedAt := s.chip.instant }
      nextWith (exec (.ringOpen id) s) (fun t =>
        t.fuse = s.fuse ∧ t.pending = s.pending ∧ s.chip.settles t.chip id 0 0 ∧ tabFind t.chip.bridge.rings k.ring = some r ∧
        r.nextSeq = ctxFld k.ctx 32 4 ∧ r.sets = [] ∧ r.live = 0 ∧
        s.stores t [(bridgeAddr r.base, List.replicate r.regionBytes 0)] [] ∧
        { t.chip with bridge := {}, cmds := [], instant := 0 } = { s.chip with bridge := {}, cmds := [], instant := 0 })) ∧
    ∀ r, s.chip.runs id 0x51 k → s.chip.ringOf k = some r →
      nextWith (exec (.ringReset id) s) (fun t =>
        t.fuse = s.fuse ∧ t.pending = s.pending ∧ s.chip.settles t.chip id 0 0 ∧
        s.stores t [(bridgeAddr r.base, List.replicate r.regionBytes 0)] [] ∧
        tabFind t.chip.bridge.rings k.ring =
          (if bitAt (k.fld 16 1) 7 then none else some { r with sets := [], live := 0, held := none }) ∧
        ∀ i, i ≠ k.ring → tabFind t.chip.bridge.rings i = tabFind s.chip.bridge.rings i)

/-- A head command takes its window (R171, R177-R189): teacher, pass one and pass two; a teacher LAST command whose slots are not
all FREE is held and fires TEASEL source 4, and completes as soon as they are, when TEACHER_HOLD_RELEASE finds every one FREE. The
model's choices in it: log 44. -/
def Obligations.HeadWindows : Prop :=
  ∀ (s : State) (id beats : Nat) (env : Env) (k : Cmd) (r : Ring) (rows : List HeadRow) (first : Bool), s.sound → s.calm →
    env.upsets = [] → s.chip.ringOf k = some r → r.openedAt ≤ k.startAt → s.headRows k r rows first →
    let blocked := k.seqs.any (s.chip.slotTaken s.ctx r)
    let last := bitAt (k.fld 16 1) 7
    (s.chip.runs id 0x52 k → k.stage = 0 → ¬ (last = true ∧ blocked = true) →
      nextWith (exec (.headTeacher id env) s) (fun t => s.headDone t id k r rows first)) ∧
    (s.chip.runs id 0x52 k → k.stage = 0 → last = true → blocked = true →
      nextWith (exec (.headTeacher id env) s) (fun t =>
        t.mem = s.mem ∧ t.fuse = s.fuse ∧ t.chip.cmd? id = some { k with stage := 1 } ∧
        tabFind t.chip.bridge.rings k.ring = some { r with held := some id } ∧ (t.chip.hdr 0x008).irqRaw.getLsbD 4 = true)) ∧
    (s.chip.runs id 0x52 k → k.stage = 1 → r.held = some id → blocked = false →
      nextWith (exec (.teacherHoldRelease id beats env) s) (fun t => s.headDone t id k r rows first)) ∧
    (s.chip.runs id 0x52 k → k.stage = 1 → blocked = true → becomesJust (.teacherHoldRelease id beats env) s s.chip) ∧
    (s.chip.runs id 0x53 k → k.stage = 0 →
      nextWith (exec (.headPass1 id env) s) (fun t => s.headDone t id k r rows first)) ∧
    (s.chip.runs id 0x54 k → k.stage = 0 →
      s.chip.dramLets (s.chip.own k) (k.seqs.map (fun q => (r.lossAddr + 16 * r.slot q, 16)) ++
        (if first then k.seqs.map (fun q => (r.labelAddr + 4 * r.slot q, 4)) else [])) = true →
      nextWith (exec (.headPass2 id env) s) (fun t => s.headDone t id k r rows first))

/-- The stack engines' commands (R281, R288-R291): ENG_MOVE without a delta writes each row as a move converts it; ENG_KV_APPEND
tags each position of its pages with the open round and copies its K and V rows there; ENG_ATTEND writes nothing outside its
output, and with FOLD_ONLY writes there the fold of its members' partial records in ascending member. The model's choices in it:
log 46. -/
def Obligations.EngineCommands : Prop :=
  ∀ (s : State) (id : Nat) (env : Env) (k : Cmd), s.sound → s.calm → env.upsets = [] →
    let p := s.chip.own k
    (s.chip.runs id 0x60 k → bitAt (k.fld 16 1) 1 = false →
      let src := s.chip.engSrc p k
      let dst := s.chip.engDst p k
      let row (i : Nat) := moveRow src dst (s.chip.rd s.ctx) (bitAt (k.fld 16 1) 0) (k.sfld 18) (k.sfld 19) none i
      s.chip.dramLets p src.runs = true → s.chip.dramLets p dst.runs = true →
      nextWith (exec (.engMove id env) s) (fun t =>
        t.fuse = s.fuse ∧ t.pending = s.pending ∧ s.chip.settles t.chip id 0 0 ∧ t.chip.gates = s.chip.gates ∧
        s.stores t ((List.range dst.rows).flatMap (fun i => [(dst.row i, (row i).1), (dst.aux + i * dst.auxRow, (row i).2.1)])) [])) ∧
    (∀ sv, s.chip.serveOf p = some sv → sv.plan.isSome = true → s.chip.runs id 0x61 k → k.fld 32 4 = sv.round →
      let f := s.chip.fmt k p sv.fmtCode
      let n := k.fld 25 1
      let h := k.fld 23 1
      let pos := k.fld 28 4
      let rb := sv.rowBytes f
      let sb := f.scaleBytes (sv.f 8 2)
      let src (kv : Nat) : Nat := engAddr k.inst (k.fld (40 + 4 * kv) 4)
      let page (i : Nat) : Nat :=
        s.chip.setAddr p sv f (((sv.localPage ((pos + i) / 256)).bind (fun j => tabFind (sv.req (k.fld 16 2)).pages j)).getD 0) +
          k.fld 18 1 * sv.pageBytes f
      let outs := (List.range n).flatMap (fun i => (page i + 4 * ((pos + i) % 256), leBytes 4 sv.round) ::
        (List.range h).flatMap (fun q => [0, 1].flatMap (fun kv =>
          let b := page i + sv.planeOff f (k.fld 19 1) (k.fld 22 1 + q) kv
          [(b + (pos + i) % 256 * rb, s.chip.rdBytes s.ctx (src kv + (i * h + q) * rb) rb),
            (b + 256 * rb + (pos + i) % 256 * sb, s.chip.rdBytes s.ctx (src kv + n * h * rb + (i * h + q) * sb) sb)])))
      s.chip.dramLets p (runsOf outs) = true →
      nextWith (exec (.engKvAppend id env) s) (fun t =>
        t.fuse = s.fuse ∧ s.chip.settles t.chip id 0 0 ∧ t.chip.serve = s.chip.serve ∧ s.stores t outs [])) ∧
    (∀ sv, s.chip.serveOf p = some sv → sv.plan.isSome = true → s.chip.runs id 0x62 k → k.fld 36 4 = sv.round →
      let out := engAddr k.inst (k.fld 44 4)
      let hd := sv.f 8 2
      let rows := k.queryRows
      let fmt := s.chip.fmt k p (k.fld 20 1 / 16)
      (∀ rs, s.chip.dramLets p rs = true) →
      nextWith (exec (.engAttend id env) s) (fun t =>
        t.fuse = s.fuse ∧ s.chip.settles t.chip id 0 0 ∧ t.chip.serve = s.chip.serve ∧
        (bitAt (k.fld 28 1) 3 = true → bitAt (k.fld 28 1) 2 = false → s.stores t ((List.range rows).flatMap (fun r =>
          let parts := (List.range (sv.f 11 1)).map (fun m =>
            attOfBytes hd (s.chip.rdBytes s.ctx (engAddr k.inst (k.fld 40 4 + (m * rows + r) * sv.partBytes)) sv.partBytes))
          let e := encodeRow fmt ((attOut hd (parts.foldl attFold none)).map (Val.scale (k.sfld 29)))
          [(out + r * fmt.rowBytes hd, e.1), (out + rows * fmt.rowBytes hd + r * fmt.scaleBytes hd, e.2.1)])) []) ∧
        (hd % 32 = 0 → s.stores t [] [(out, (s.chip.attendBytes p k sv).2)])))

/-! ### Serving -/

/-- SERVE_CFG binds its context with round 1; REQ_JOIN makes its slot QUEUED with the descriptor it read as it started; SPEC_ENABLE sets
SPEC and REJ_RUN, at once or, with a round open, at the next ROUND_BEGIN; REQ_LEAVE frees its slot, or waits while the open plan has it
(R283, R292, R293, R298, R301). The model's choices in it: log 116. -/
def Obligations.RequestCommands : Prop :=
  ∀ (s : State) (id : Nat) (k : Cmd), s.sound → s.calm →
    let p := s.chip.own k
    let slot := k.fld 16 2
    let rest (t : State) := t.fuse = s.fuse ∧ t.pending = s.pending ∧ s.chip.settles t.chip id 0 0 ∧
      (∀ q, q ≠ p → t.chip.serveOf q = s.chip.serveOf q) ∧ t.chip.serve.buckets = s.chip.serve.buckets
    (s.chip.runs id 0x68 k → nextWith (exec (.serveCfg id) s) (fun t =>
      t.mem = s.mem ∧ rest t ∧ t.chip.serveOf p = some { ctx := k.ctx, round := 1, plan := none, reqs := [] })) ∧
    ∀ sv, s.chip.serveOf p = some sv →
      (s.chip.runs id 0x69 k → nextWith (exec (.reqJoin id) s) (fun t =>
        ∃ u, t.mem = s.mem ∧ rest t ∧ t.chip.serveOf p = some u ∧ (∀ j, j ≠ slot → u.req j = sv.req j) ∧
          u.plan = sv.plan ∧ u.round = sv.round ∧ (u.req slot).desc = k.ctx ∧
          (u.req slot).state = .queued ∧ (u.req slot).tokenLen = ctxFld k.ctx 0 4 ∧ (u.req slot).kvLen = 0 ∧
          (u.req slot).dkvLen = 0 ∧ (u.req slot).seq = sv.joins ∧ u.joins = sv.joins + 1)) ∧
      (s.chip.runs id 0x6D k → (sv.req slot).state ≠ .free → nextWith (exec (.specEnable id) s) (fun t =>
        t.mem = s.mem ∧ rest t ∧ ∃ u, t.chip.serveOf p = some u ∧ (∀ j, j ≠ slot → u.req j = sv.req j) ∧
          (sv.plan = none → u.req slot = { sv.req slot with spec := k.fld 18 1, rejRun := 0, specNext := none }) ∧
          (sv.plan ≠ none → u.req slot = { sv.req slot with specNext := some (k.fld 18 1) }))) ∧
      (s.chip.runs id 0x6A k → k.stage = 0 → sv.reqs.Pairwise (fun a b => a.1 < b.1) →
        let planned := ∃ e ∈ sv.plan.getD [], e.slot = slot
        (planned → (sv.req slot).state ≠ .free → nextWith (exec (.reqLeave id) s) (fun t =>
          t.mem = s.mem ∧ t.fuse = s.fuse ∧ t.chip.cmd? id = some { k with stage := 1 } ∧
          ∃ u, t.chip.serveOf p = some u ∧ u.req slot = { sv.req slot with state := .leaving } ∧ ∀ j, j ≠ slot → u.req j = sv.req j)) ∧
        (¬ planned → (∀ rs, s.chip.dramLets p rs = true) → nextWith (exec (.reqLeave id) s) (fun t =>
          rest t ∧ (∃ u, t.chip.serveOf p = some u ∧ u.req slot = { state := .free } ∧ ∀ j, j ≠ slot → u.req j = sv.req j) ∧
          s.stores t ((sv.req slot).pages.filterMap (fun e => if e.2 = 0 then none else some (sv.entryAddr slot e.1, leBytes 4 0))) [])))

/-- ROUND_BEGIN with no round open opens the partition's round with a plan of at most PLAN_MAX entries (R294-R296, R306): the requests
it plans are RUNNING, every entry's request had a free slot in its token ring, its drafts fit SPEC and the ring beside one token, decode
entries come first, and the plan stands at PLAN_ADDR. With a round open it is refused. The model's choices in it: logs 48, 116. -/
def Obligations.RoundBegins : Prop :=
  ∀ (s : State) (id : Nat) (env : Env) (heads : List (Nat × HostRead)) (k : Cmd) (sv : Serve) (pt : Part), s.sound → s.calm →
    env.upsets = [] → s.chip.runs id 0x6B k → s.chip.serveOf (s.chip.own k) = some sv → s.chip.part? (s.chip.own k) = some pt →
    sv.reqs.Pairwise (fun a b => a.1 < b.1) →
    (sv.plan ≠ none → nextWith (exec (.roundBegin id env heads) s) (fun t =>
      t.mem = s.mem ∧ s.chip.settles t.chip id 5 16 ∧ t.chip.serve = s.chip.serve)) ∧
    (sv.plan = none → (∀ rs, s.chip.dramLets (s.chip.own k) rs = true) → nextWith (exec (.roundBegin id env heads) s) (fun t =>
      t.fuse = s.fuse ∧ s.chip.settles t.chip id 0 0 ∧ (∀ q, q ≠ s.chip.own k → t.chip.serveOf q = s.chip.serveOf q) ∧
      ∃ (u : Serve) (pl : List PlanEntry), t.chip.serveOf (s.chip.own k) = some u ∧ u.plan = some pl ∧ u.round = sv.round ∧
        pl.length ≤ k.fld 16 2 ∧ pl.Pairwise (fun a b => a.prefill = true → b.prefill = true) ∧
        (∀ e ∈ pl, (u.req e.slot).state = .running ∧ (e.prefill = true → e.nDraft = 0) ∧ e.nDraft ≤ (u.req e.slot).spec ∧
          ∃ f : Int, (sv.req e.slot).space e.slot heads = some f ∧ 0 < f ∧ (e.nDraft : Int) < f) ∧
        (s.chip.stored (k.fld 24 8) (64 + 32 * pl.length) → s.chip.separate s.fuse [(k.fld 24 8, 64 + 32 * pl.length)] →
          s.chip.rdNat t.ctx (k.fld 24 8) 4 = sv.round % 2 ^ 32 ∧
          ∀ i e, pl[i]? = some e → s.chip.rdBytes t.ctx (k.fld 24 8 + 64 + 32 * i) 32 = e.bytes (u.req e.slot))))

/-- ROUND_COMMIT closes the round (R297, R299-R301, R305): the round number rises, 0xFFFFFFFE to 1, no request is LEAVING any more. An
entry of a decode whose record is good commits the drafts that agree with the teacher and one token more, each with its record in the
token ring at its place; REJ_RUN counts rounds with no draft accepted, at 4, 8 and 12 SPEC is halved by HALVE, at 16 it becomes 0. The
model's choices in it: logs 48, 116. -/
def Obligations.RoundCommits : Prop :=
  ∀ (s : State) (id : Nat) (env : Env) (k : Cmd) (sv : Serve) (pt : Part) (pl : List PlanEntry), s.sound → s.calm →
    env.upsets = [] → s.chip.runs id 0x6C k → s.chip.serveOf (s.chip.own k) = some sv → s.chip.part? (s.chip.own k) = some pt →
    sv.plan = some pl → (pl.map (fun e => e.slot)).Nodup → sv.reqs.Pairwise (fun a b => a.1 < b.1) →
    (∀ j ∈ s.chip.cmds, j.opcode = 0x6A → j.stage ≠ 1) → (∀ rs, s.chip.dramLets (s.chip.own k) rs = true) →
    nextWith (exec (.roundCommit id env) s) (fun t =>
      t.fuse = s.fuse ∧ s.chip.settles t.chip id 0 0 ∧
      ∃ u, t.chip.serveOf (s.chip.own k) = some u ∧ u.plan = none ∧ u.round = (if sv.round = 0xFFFFFFFE then 1 else sv.round + 1) ∧
        (∀ j, (u.req j).state ≠ .leaving) ∧
        (∀ j, (∀ e ∈ pl, e.slot ≠ j) → (sv.req j).state ≠ .leaving → u.req j = sv.req j) ∧
        ∀ i e a, pl[i]? = some e →
          let b := s.chip.rdBytes s.ctx (k.fld 24 8 + 128 * i) 128
          let q := sv.req e.slot
          let n := ctxFld b 104 1
          let eos (j : Nat) : Prop := bitAt (q.f 16 4) 31 = true ∧ vrecWord b j = q.f 16 4 % 2 ^ 20
          let q' := u.req e.slot
          e.prefill = false → vrecBad e b = false → ctxFld b 105 1 = 0 → a ≤ n → (∀ j < a, vrecWord b (18 + j) = vrecWord b j) →
          (a < n → vrecWord b (18 + a) ≠ vrecWord b a) → (∀ j ≤ a, ¬ eos j) → q.tokenLen + a + 1 < q.f 0 4 + q.f 4 4 →
          q.state = .running → q.recs < 2 ^ 32 →
          q'.state = .running ∧ q'.tokenLen = q.tokenLen + a + 1 ∧ q'.kvLen = q.kvLen + a + 1 ∧ q'.pages = q.pages ∧
            (1 ≤ n → q'.dkvLen = e.kvLen + min (a + 1) n ∧ q'.rejRun = (if 0 < a then 0 else q.rejRun + 1) ∧
              q'.spec = (if 0 < a then q.spec
                else if q.rejRun + 1 = 16 then 0
                else if q.rejRun + 1 = 4 ∨ q.rejRun + 1 = 8 ∨ q.rejRun + 1 = 12 then sv.f 52 4 / 16 ^ (q.spec - 1) % 16 else q.spec)) ∧
            (n = 0 → q'.spec = q.spec ∧ q'.rejRun = q.rejRun ∧ q'.dkvLen = q.dkvLen) ∧
            ((s.chip.port (pt.fn / 32)).linkUp = true → ∀ j ≤ a, Out.tokenRecord pt.fn (q.f 24 8 + 16 * ((q.recs + j) % 2 ^ 32 % q.f 20 4))
              (tokenBytes (vrecWord b j) (q.tokenLen + j) (((q.recs + j) % 2 ^ 32 / q.f 20 4 + 1) % 2 = 1) (vrecWord b (9 + j))
                (2 * flagNat (j < a) + 8 * flagNat (j = a && 1 ≤ n && a = 0 && q.rejRun + 1 = 16) + sv.round % 2 ^ 16 * 2 ^ 16)) ∈
                t.chip.outbox))

/-! ### The fabric and collectives -/

/-- Requests of the fabric (R244-R246): WRITE stores its data, poisoned where the packet is; READ answers the bytes; ATOMIC stores
the new word of its operation and answers the old one; EVENT_SIGNAL adds COUNT to its entry; each is answered SUCCESS. What no
partition of the packet's domain owns is answered ACCESS_ERROR, what does not exist ADDRESS_ERROR, and nothing is stored. The
model's choices in it: log 63. -/
def Obligations.FabricRequests : Prop :=
  ∀ (s : State) (i : Nat) (env : Env) (p : Packet), s.sound → s.calm → env.upsets = [] →
    let c := s.chip
    let okLen := 0 < p.len ∧ p.len ≤ 4096 ∧ p.rsvdBad false false = false
    (∀ q, c.holdsPacket i 1 p → okLen → p.data.length = p.len → c.judge p p.len true false = .inl q → c.dramLets q [(p.addr, p.len)] = true →
      nextWith (exec (.write i env) s) (fun t =>
        t.fuse = s.fuse ∧ t.pending = s.pending ∧ t.chip.links = c.reply i p 0 0 [] ∧ s.stores t [(p.addr, p.data)] [] ∧
        t.chip.cmds = c.cmds ∧ t.chip.events = c.events ∧
        (p.poison = true → ∀ l ∈ linesOf p.addr p.len, t.mem.health (c.key s.fuse l / 64) = .poison))) ∧
    (∀ q, c.holdsPacket i 2 p → okLen → c.judge p p.len false false = .inl q → c.dramLets q [(p.addr, p.len)] = true →
      nextWith (exec (.read i env) s) (fun t =>
        t.mem = s.mem ∧ t.fuse = s.fuse ∧ t.chip.links = c.reply i p 0 0 (c.rdBytes s.ctx p.addr p.len) ∧ t.chip.cmds = c.cmds ∧
        t.chip.events = c.events)) ∧
    (∀ q, c.holdsPacket i 3 p → p.len = 16 → p.data.length = 16 → p.fld 7 1 < 4 → p.addr % 8 = 0 → p.rsvdBad false false = false →
      c.judge p 8 true true = .inl q → c.dramLets q [(p.addr, 8)] = true →
      let old := c.rdNat s.ctx p.addr 8
      let operand := leNat (p.data.take 8)
      let new := if p.fld 7 1 = 0 then (old + operand) % 2 ^ 64 else if p.fld 7 1 = 1 then operand
        else if p.fld 7 1 = 2 then (if old = leNat (p.data.drop 8) then operand else old) else max old operand
      nextWith (exec (.atomic i env) s) (fun t =>
        t.fuse = s.fuse ∧ t.chip.links = c.reply i p 0 0 (leBytes 8 old) ∧ s.stores t [(p.addr, leBytes 8 new)] [] ∧
        t.chip.cmds = c.cmds ∧ t.chip.events = c.events)) ∧
    (∀ q pt, c.holdsPacket i 5 p → p.addr < 2 ^ 16 → p.count ≠ 0 → p.len = 0 → p.rsvdBad true false = false →
      (c.event p.addr).owner = some q → c.part? q = some pt → p.domain ≠ 0 → pt.domain = p.domain → (c.event p.addr).fabric = true →
      let e := c.event p.addr
      let v := min (e.count + p.count) 0xFFFFFFFF
      let e' := { e with count := v, overflow := e.overflow || v = 0xFFFFFFFF }
      (c.putEvent p.addr e').blocked p.addr →
      nextWith (exec (.eventSignal i) s) (fun t =>
        t.mem = s.mem ∧ t.fuse = s.fuse ∧ t.chip.links = c.reply i p 0 0 [] ∧ t.chip.event p.addr = e' ∧
        (∀ j, j ≠ p.addr → t.chip.event j = c.event j) ∧ t.chip.cmds = c.cmds)) ∧
    (∀ why, c.holdsPacket i 1 p → okLen → p.data.length = p.len → c.judge p p.len true false = .inr why →
      nextWith (exec (.write i env) s) (fun t =>
        t.mem = s.mem ∧ t.chip.links = c.reply i p why.1 0 [] ∧ (c.region p.addr p.len = none → why.1 = 1) ∧
        (c.region p.addr p.len ≠ none → why.1 = 2)))

/-- Collective packets at their stage slots and gates (R265, R268, R269, R273): a partial of this or the next epoch is stored in
the slot whose incoming area is empty, a repeat is answered alike and stored no second time, one that finds the area full or its tile
closed is dropped, one whose residue is wrong is answered CHECK_MISMATCH and not stored; a child's record of the next epoch is held;
the parent's result resolves the gate by R214, and one that comes before the gate is REDUCING is held. The model's choices in it: logs
63, 74. -/
def Obligations.CollectivePackets : Prop :=
  ∀ (s : State) (i : Nat) (r : Packet), s.sound → s.calm →
    let c := s.chip
    (∀ p q, c.holdsPacket i 4 r → 0 < r.len → r.len % 34 = 0 → r.len ≤ 2176 → r.data.length = r.len → r.rsvdBad false true = false →
      r.coll < 2 ^ 28 → c.region r.addr r.len ≠ none → c.reducePart r r.len = some p → c.slotMine p (r.coll % 256) = some q →
      q.holds r.addr = true → (r.addr - q.stageBase) % 16384 = 0 → (c.gate p).lateFold = false → c.tileAt r.addr = none →
      let e := bitField r.coll 27 20
      let now := (c.gate p).epoch % 256
      let next := (now + 1) % 256
      let slot := c.stageAt r.addr
      let good := ((chunks 34 (r.len / 34 + 1) r.data).map pb8OfBytes).all (fun b => !b.mismatch)
      let empty := ∀ j, slot.inc = some j → (j ≠ now ∧ j ≠ next) ∨ slot.closed = some j
      e = now ∨ e = next → c.dramLets p [(r.addr, r.len)] = true →
      (slot.inc ≠ some e → empty → slot.closed ≠ some e → good = true → nextWith (exec (.reduceAdd i) s) (fun t =>
        t.fuse = s.fuse ∧ t.chip.links = c.reply i r 0 0 [] ∧ t.chip.stageAt r.addr = { slot with inc := some e } ∧
        (∀ a, a ≠ r.addr → t.chip.stageAt a = c.stageAt a) ∧
        s.stores t [(r.addr + 8256, r.data ++ List.replicate (2176 - r.len) 0)] [])) ∧
      (slot.inc = some e → nextWith (exec (.reduceAdd i) s) (fun t =>
        t.mem = s.mem ∧ t.chip.links = c.reply i r 0 0 [] ∧ t.chip.coll = c.coll)) ∧
      (slot.inc ≠ some e → ¬ empty ∨ slot.closed = some e → nextWith (exec (.reduceAdd i) s) (fun t =>
        t.mem = s.mem ∧ t.chip.links = c.reply i r 0 0 [] ∧ t.chip.coll = c.coll)) ∧
      (slot.inc ≠ some e → empty → slot.closed ≠ some e → good = false → nextWith (exec (.reduceAdd i) s) (fun t =>
        t.mem = s.mem ∧ t.chip.links = c.reply i r 0x11 0 [] ∧ t.chip.coll = c.coll))) ∧
    (∀ q, c.holdsPacket i 4 r → r.scalarBad = false → bitAt r.coll 28 = true → tabFind c.coll.groups (r.coll % 256) = some q →
      q.stageBase = r.addr → r.domain ≠ 0 → c.domainOf q.part = r.domain → (c.gate q.part).group = r.coll % 256 →
      let g := c.gate q.part
      let a := (scalarOf r.data).1
      let e := (scalarOf r.data).2
      (bitAt r.coll 29 = false → q.kids.contains r.src = true → e = (g.epoch + 1) % 2 ^ 32 → tabFind g.held r.src = none →
        nextWith (exec (.scalarRecord i) s) (fun t =>
          t.mem = s.mem ∧ t.chip.links = c.reply i r 0 0 [] ∧ t.chip.gate q.part = { g with held := tabSet g.held r.src a } ∧
          ∀ p, p ≠ q.part → t.chip.gate p = c.gate p)) ∧
      (bitAt r.coll 29 = false → q.kids.contains r.src = true → e = g.epoch → g.epoch < 2 ^ 32 → g.state = .collecting →
        g.sent = false → g.window = false → tabFind g.kids r.src = none →
        nextWith (exec (.scalarRecord i) s) (fun t =>
          t.mem = s.mem ∧ t.chip.links = c.reply i r 0 0 [] ∧ t.chip.gate q.part = { g with kids := tabSet g.kids r.src a } ∧
          ∀ p, p ≠ q.part → t.chip.gate p = c.gate p)) ∧
      (bitAt r.coll 29 = true → q.root = false → r.src = q.parent → e = g.epoch → g.state = .reducing →
        nextWith (exec (.scalarResult i) s) (fun t =>
          t.mem = s.mem ∧ t.fuse = s.fuse ∧ gateResolved a (t.chip.gate q.part) g ∧ (t.chip.gate q.part).res = a ∧
          ∀ p, p ≠ q.part → t.chip.gate p = c.gate p)) ∧
      (bitAt r.coll 29 = true → q.root = false → r.src = q.parent → g.result = none →
        (e = g.epoch ∧ g.state = .collecting) ∨ (e = (g.epoch + 1) % 2 ^ 32 ∧ e ≠ g.epoch ∧ g.state ≠ .unconfigured) →
        nextWith (exec (.scalarResult i) s) (fun t =>
          t.mem = s.mem ∧ t.fuse = s.fuse ∧ t.chip.gate q.part = { g with result := some (e, a) } ∧
          ∀ p, p ≠ q.part → t.chip.gate p = c.gate p)))

/-- RESPONSE ends the request with its tag, a late one is counted in CTR4; TXN_TIMEOUT ends a request TXN_TIMEOUT µs after its
issue, not before, counts CTR1 and fires VETCH_FAB source 2; a gather piece that fails or times out ends the COLL_GATHER with the
response's status, or LINK_UNREACHABLE and DETAIL 1 (R247, R276). The model's choices in it: log 45. -/
def Obligations.RequestsEnd : Prop :=
  (∀ (s : State) (i : Nat) (r : Packet), s.sound → s.chip.holdsPacket i 8 r →
    let c := s.chip
    let used := { c with links := c.freeing i r }
    (tabFind c.links.tags r.tag = none → becomes (.response i) s used ∧
      nextWith (exec (.response i) s) (fun t => c.counted t.chip 0x00A 4 1)) ∧
    (∀ o, tabFind c.links.tags r.tag = some o → o.issuer = .scalar →
      becomes (.response i) s { used with links.tags := tabDel c.links.tags r.tag }) ∧
    ∀ o id k, tabFind c.links.tags r.tag = some o → o.issuer = .gather id → c.runs id 0x72 k → k.stage = 1 → r.fld 7 1 ≠ 0 →
      (c.event (k.fld 18 2)).waiters.contains id = false →
      nextWith (exec (.response i) s) (fun t => t.mem = s.mem ∧ c.settles t.chip id (r.fld 7 1) (r.count % 256))) ∧
  ∀ (s : State) (tag : Nat) (o : Outstanding), s.sound → tabFind s.chip.links.tags tag = some o →
    let c := s.chip
    let gone := { c with links.tags := tabDel c.links.tags tag }
    (c.time < o.issuedAt + 1000 * max 1 c.links.txnTimeout → becomesJust (.txnTimeout tag) s c) ∧
    (o.issuedAt + 1000 * max 1 c.links.txnTimeout ≤ c.time → o.issuer = .scalar →
      becomes (.txnTimeout tag) s gone ∧
      nextWith (exec (.txnTimeout tag) s) (fun t => (t.chip.hdr 0x00A).irqRaw.getLsbD 2 = true ∧ c.counted t.chip 0x00A 1 1)) ∧
    ∀ id k, o.issuedAt + 1000 * max 1 c.links.txnTimeout ≤ c.time → o.issuer = .gather id → c.runs id 0x72 k → k.stage = 1 →
      (c.event (k.fld 18 2)).waiters.contains id = false →
      nextWith (exec (.txnTimeout tag) s) (fun t => t.mem = s.mem ∧ c.settles t.chip id 0x12 1)

/-- Collective commands (R254, R257, R259, R260, R270, R275): a group slot is bound and freed with its stage slots EMPTY; a launch
whose tiles are all done succeeds; the local phase of the first hop reads and zeroes its source, latches E_0 and sends one partial
per tile; a gather sends its own piece first, and ends after the last take, or EVENT_POISONED; the fold window closes at
WINDOW_US. The model's choices in it: logs 45, 63. -/
def Obligations.CollectiveCommands : Prop :=
  ∀ (s : State) (id : Nat) (env : Env) (k : Cmd), s.sound → s.calm → env.upsets = [] →
    let c := s.chip
    let p := c.own k
    let grp := k.fld 16 1
    (c.runs id 0x70 k → nextWith (exec (.collGroupSet id) s) (fun t =>
      t.mem = s.mem ∧ c.settles t.chip id 0 0 ∧ tabFind t.chip.coll.groups grp = some (groupOf p k.ctx) ∧
      (∀ j, j ≠ grp → tabFind t.chip.coll.groups j = tabFind c.coll.groups j) ∧
      (∀ a, (groupOf p k.ctx).holds a = true → t.chip.stageAt a = {}) ∧ t.chip.gates = c.gates)) ∧
    (c.runs id 0x73 k → nextWith (exec (.collGroupFree id) s) (fun t =>
      t.mem = s.mem ∧ c.settles t.chip id 0 0 ∧ tabFind t.chip.coll.groups grp = none ∧
      (∀ j, j ≠ grp → tabFind t.chip.coll.groups j = tabFind c.coll.groups j) ∧ t.chip.gates = c.gates)) ∧
    (c.runs id 0x71 k → k.stage = 0 → becomesJust (.collLaunch id) s (c.putCmd { k with stage := 1 })) ∧
    (∀ l, c.runs id 0x71 k → k.stage ≠ 0 → k.tclass = 6 → tabFind c.coll.launches id = some l → l.group = grp →
      (∀ u ∈ l.tiles, u = .done) → bitAt (k.fld 17 1) 0 = false →
      (∀ j ∈ c.cmds, j.phase = .running → j.opcode = 0x71 ∨ j.opcode = 0x21 → j.id = id) →
      nextWith (exec (.collLaunch id) s) (fun t =>
        t.mem = s.mem ∧ t.fuse = s.fuse ∧ c.settles t.chip id 0 0 ∧ tabFind t.chip.coll.launches id = none)) ∧
    (∀ pt q, c.runs id 0x71 k → k.stage = 1 → c.part? p = some pt → pt.state = .resident → tabFind c.coll.groups grp = some q →
      c.accumHeld k (k.fld 19 1) = false → 2 ≤ q.g → (∀ i, (pt.regs.getD i (0, 0)).1 = 0) → c.memHeld = false →
      c.hbmUp = true → c.ddrUp = true → (q.member + 2 * q.g - k.fld 20 2 - 1) % q.g = 0 → k.launchElems % 32 = 0 → 0 < k.launchElems →
      (c.cmds.map (fun j => j.id)).Nodup →
      (∀ j ∈ c.cmds, j.phase = .running → j.opcode = 0x71 ∨ j.opcode = 0x21 → j.id = id) →
      let n := k.launchElems
      let tiles := ceilDiv n 2048
      let stage := q.stageBase + k.fld 32 4
      nextWith (exec (.collLocalPhase id env) s) (fun t =>
        t.fuse = s.fuse ∧ (∃ j, t.chip.cmd? id = some j ∧ j.phase = .running ∧ j.stage = 2) ∧
        tabFind t.chip.coll.groups grp =
          some { q with e0 := clampInt (q.base.getD q.eInit + q.ls.getD (c.gate p).ls + k.sfld 18) (-149) 104 } ∧
        (∃ l, tabFind t.chip.coll.launches id = some l ∧ l.epoch = (c.gate p).epoch ∧ l.hop = 0 ∧ l.stage = stage ∧
          l.tiles = List.replicate tiles .sent) ∧
        t.chip.links.out.length = c.links.out.length + tiles ∧
        s.stores t (k.launchSource.map (fun u => (u.1, List.replicate u.2 0)))
          ((List.range tiles).flatMap (fun j =>
            let m := min 2048 (n - 2048 * j)
            [(stage + 16384 * j + 64, 4 * m), (stage + 16384 * j + 10432, 34 * (m / 32))])))) ∧
    (∀ q, c.runs id 0x72 k → k.stage = 0 → tabFind c.coll.groups grp = some q →
      let a := k.gatherPiece q 0
      let n := k.fld 20 4
      a + n < 2 ^ 64 → c.dramLets p [(a, n)] = true → nextWith (exec (.collGather id env) s) (fun t =>
        t.mem = s.mem ∧ t.fuse = s.fuse ∧ (∃ j, t.chip.cmd? id = some j ∧ j.phase = .running ∧ j.stage = 1) ∧
        (t.chip.links.out.take c.links.out.length) = c.links.out ∧
        (t.chip.links.out.drop c.links.out.length).map (fun e => (e.1.type, e.1.addr, e.1.data)) =
          (pieces (n / 4096 + 2) 0 n).map (fun u => (1, a + u.1, c.rdBytes s.ctx (a + u.1) u.2)))) ∧
    (c.runs id 0x72 k → k.stage = 2 →
      let e := c.event (k.fld 18 2)
      (e.poisoned = true → e.waiters = [id] → nextWith (exec (.gatherTake id env) s) (fun t =>
        t.mem = s.mem ∧ (∃ j, t.chip.cmd? id = some j ∧ j.phase = .ended ∧ j.status = 9 ∧ j.detail = 0) ∧
        t.chip.event (k.fld 18 2) = { e with waiters := [] })) ∧
      (∀ q, tabFind c.coll.groups grp = some q → q.g ≤ k.data.getD 0 0 + 2 → e.poisoned = false → e.waiters = [id] → 0 < e.count →
        nextWith (exec (.gatherTake id env) s) (fun t =>
          t.mem = s.mem ∧ (∃ j, t.chip.cmd? id = some j ∧ j.phase = .ended ∧ j.status = 0) ∧
          t.chip.event (k.fld 18 2) = { e with count := e.count - 1, waiters := [] }))) ∧
    ∀ t0, (c.gate p).sealAt = some t0 → (c.gate p).lateFold = true → (c.gate p).state = .collecting → (c.gate p).window = false →
      (c.time < t0 + 1000 * (c.gate p).windowUs → becomesJust (.foldWindowExpire p) s c) ∧
      (t0 + 1000 * (c.gate p).windowUs ≤ c.time → nextWith (exec (.foldWindowExpire p) s) (fun t =>
        t.fuse = s.fuse ∧ (t.chip.gate p).window = true ∧ (t.chip.gate p).state = .collecting))

/-! ### Tables and partitions -/

/-- A load whose image and permission are good takes its shadow: LOADING with the new image while the active bank stands; it waits
while the shadow is DRAINING or LOADING, and takes it in its turn on the ring. TABLE_ACTIVATE of the shadow's generation swaps the banks; the
old one is DRAINING while a command is bound to it, else EMPTY; of another generation it ends TABLE_ERROR, DETAIL 5, and the banks stand (R49-R52, R55). The model's choices in it: logs 57, 60. -/
def Obligations.TableCommands : Prop :=
  ∀ (s : State) (id : Nat) (env : Env) (k : Cmd) (o : ObjInfo), s.sound → s.calm → env.upsets = [] →
    let c := s.chip
    let others (t : State) := t.mem = s.mem ∧ t.fuse = s.fuse ∧ t.pending = s.pending ∧
      t.chip.cmds.filter (fun j => j.id ≠ id) = c.cmds.filter (fun j => j.id ≠ id) ∧ t.chip.events = c.events
    let loading (t : State) (b : List Byte) :=
      let h := imgHeader b
      let key := tableKey h.id (c.scopeOf k o) h.inst
      others t ∧ (∃ j, t.chip.cmd? id = some j ∧ j.phase = .running ∧ j.stage = 2) ∧
        t.chip.table key = { c.table key with
          shadow := .loading, loader := some k.id
          image := some { gen := h.gen, req := if h.id = 0 then h.req else [0, 0, 0], count := h.count, body := b.drop 32 } } ∧
        ∀ q, q ≠ key → t.chip.table q = c.table q
    let takes (b : List Byte) :=
      let h := imgHeader b
      let t := c.table (tableKey h.id (c.scopeOf k o) h.inst)
      objInfo h.id = some o ∧ t.shadow ≠ .draining ∧ t.shadow ≠ .loading ∧
        (∀ im, t.active = some im → serialNewer 32 h.gen im.gen = true) ∧
        (h.id = 0 → c.programBytes (c.scopeOf k o) h.inst + 16 * h.count ≤ 2 * 2 ^ 20) ∧
        (∀ j ∈ c.cmds, j.opcode = 0x80 → j.phase = .running → j.stage = 1 → j.id = id) ∧
        ∀ pt, (c.cmdPart k).bind c.part? = some pt → ∀ i, (pt.regs.getD i (0, 0)).1 = 0
    let src := k.fld 16 8
    let n := k.fld 24 4
    let brings (b : List Byte) :=
      (bitAt src 63 = true ∧ ∃ d, env.host = .data d ∧ b = d.take n) ∨
        (bitAt src 63 = false ∧ 32 ≤ n ∧ c.loadRange k 32 = none ∧ c.loadRange k n = none ∧ b = c.rdBytes s.ctx src n)
    (∀ b, c.runs id 0x80 k → k.stage = 0 → c.loadLets k = true → brings b → (imgHeader b).ok n = true → c.mayLoad k o = true → takes b →
      nextWith (exec (.tableLoad id env) s) (fun t => loading t b)) ∧
    (∀ b, c.runs id 0x80 k → k.stage = 0 → c.loadLets k = true → brings b → (imgHeader b).ok n = true → c.mayLoad k o = true →
      objInfo (imgHeader b).id = some o →
      ((c.table (tableKey (imgHeader b).id (c.scopeOf k o) (imgHeader b).inst)).shadow = .draining ∨
        (c.table (tableKey (imgHeader b).id (c.scopeOf k o) (imgHeader b).inst)).shadow = .loading) →
      nextWith (exec (.tableLoad id env) s) (fun t =>
        others t ∧ t.chip.tables = c.tables ∧ ∃ j, t.chip.cmd? id = some j ∧ j.phase = .running ∧ j.stage = 1)) ∧
    (∀ b, c.runs id 0x80 k → k.stage = 1 → c.loadLets k = true → takes b → (c.noteAll s.ctx).myTurn s.ctx k = true →
      (bitAt src 63 = true ∧ b = k.ctx) ∨ (bitAt src 63 = false ∧ 32 ≤ n ∧ b = c.rdBytes s.ctx src n ∧ b.take 32 = k.ctx) →
      nextWith (exec (.tableLoadShadowTake id) s) (fun t => loading t b)) ∧
    (∀ im, c.runs id 0x81 k → objInfo (k.fld 16 1) = some o → c.mayLoad k o = true →
      let key := tableKey (k.fld 16 1) (c.scopeOf k o) (k.fld 17 1)
      (c.table key).shadow = .valid → (c.table key).image = some im →
      (im.gen = k.fld 20 4 → nextWith (exec (.tableActivate id) s) (fun t =>
        others t ∧ (∃ j, t.chip.cmd? id = some j ∧ j.phase = .ended ∧ j.status = 0) ∧ t.chip.active key = some im ∧
        (t.chip.table key).loader = none ∧ (∀ q, q ≠ key → t.chip.active q = c.active q) ∧
        let bound (old : Image) : Prop := ∃ j ∈ c.cmds, j.phase ≠ .waiting ∧ (key, old.gen) ∈ j.binds
        (∀ old, c.active key = some old → bound old → (t.chip.table key).shadow = .draining ∧ (t.chip.table key).image = some old) ∧
        (k.fld 16 1 ≠ 6 → (∀ old, c.active key = some old → ¬ bound old) →
          (t.chip.table key).shadow = .empty ∧ (t.chip.table key).image = none))) ∧
      (im.gen ≠ k.fld 20 4 → nextWith (exec (.tableActivate id) s) (fun t =>
        others t ∧ (∃ j, t.chip.cmd? id = some j ∧ j.phase = .ended ∧ j.status = 13 ∧ j.detail = 5) ∧ t.chip.tables = c.tables ∧
        (t.chip.hdr 0x005).irqRaw.getLsbD 2 = true)))

/-- Partition commands (R312, R313, R315, R317, R324, R328, R331): PART_FORM forms the partition of its context, IDLE, and gives
it its events; PART_SET changes its settings; PART_REGION sets or clears a region; PART_TEARDOWN releases it with its events,
gate, rounds and windows; PART_RESET clears FAULT and the keep-lost marks; PART_YIELD starts a stop of a RESIDENT partition and
else succeeds at once; PROG_BIND binds or clears the queue's program. No other partition changes but in OVERCOMMIT. The model's
choices in it: logs 29, 61, 64, 101. -/
def Obligations.PartitionCommands : Prop :=
  ∀ (s : State) (id : Nat) (k : Cmd), s.sound →
    let c := s.chip
    let p := k.fld 16 1
    let plain (q : Part) : Part := { q with overcommit := false }
    let ended (t : State) := t.fuse = s.fuse ∧ t.pending = s.pending ∧
      (∃ j, t.chip.cmd? id = some j ∧ j.phase = .ended ∧ j.status = 0 ∧ j.detail = 0) ∧
      t.chip.cmds.filter (fun j => j.id ≠ id) = c.cmds.filter (fun j => j.id ≠ id)
    let alone (t : State) (p : Nat) := ∀ q, q ≠ p → (t.chip.part? q).map plain = (c.part? q).map plain
    (c.runs id 0x90 k → nextWith (exec (.partForm id) s) (fun t =>
      let pt := partOfCtx k.ctx c.instant
      t.mem = s.mem ∧ ended t ∧ alone t p ∧ (t.chip.part? p).map plain = some pt ∧ pt.state = .idle ∧
      (∀ i < pt.evtCount, t.chip.event (pt.evtBase + i) = { c.event (pt.evtBase + i) with owner := some p }) ∧
      ∀ j, j < pt.evtBase ∨ pt.evtBase + pt.evtCount ≤ j → t.chip.event j = c.event j)) ∧
    (∀ pt, c.runs id 0x92 k → c.part? p = some pt → nextWith (exec (.partSet id) s) (fun t =>
      t.mem = s.mem ∧ ended t ∧ alone t p ∧ (t.chip.part? p).map plain = some (plain (pt.setFrom k.ctx)) ∧ t.chip.events = c.events)) ∧
    (∀ pt, c.runs id 0x93 k → c.part? p = some pt → nextWith (exec (.partRegion id) s) (fun t =>
      t.mem = s.mem ∧ ended t ∧ alone t p ∧ ∃ u, t.chip.part? p = some u ∧ { u with regions := pt.regions } = pt ∧
        (bitAt (k.fld 18 1) 0 = true →
          tabFind u.regions (k.fld 17 1) = some { base := k.fld 24 8, bytes := k.fld 32 8, readOnly := bitAt (k.fld 18 1) 1 }) ∧
        (bitAt (k.fld 18 1) 0 = false → tabFind u.regions (k.fld 17 1) = none) ∧
        ∀ i, i ≠ k.fld 17 1 → tabFind u.regions i = tabFind pt.regions i)) ∧
    (∀ pt, c.runs id 0x91 k → c.part? p = some pt → (∀ j ∈ c.cmds, c.cmdPart j ≠ some p) →
      (∀ e ∈ c.bridge.rings, e.2.tPart ≠ p ∧ e.2.sPart ≠ p) → c.pairs.Pairwise (fun a b => a.1 < b.1) →
      nextWith (exec (.partTeardown id) s) (fun t =>
        ended t ∧ alone t p ∧ t.chip.part? p = none ∧ t.chip.gate p = {} ∧ t.chip.serveOf p = none ∧
        (∀ i < pt.evtCount, t.chip.event (pt.evtBase + i) = {}) ∧
        (∀ j, j < pt.evtBase ∨ pt.evtBase + pt.evtCount ≤ j → t.chip.event j = c.event j) ∧
        (∀ e ∈ t.chip.tiers.windows, e.1 / 4 = p → e.2.enable = false) ∧
        (∀ e ∈ t.chip.pairs, e.2.resident ≠ some p ∧ e.2.last ≠ some p ∧ e.2.reserved ≠ some p))) ∧
    (∀ pt, c.runs id 0x94 k → c.part? p = some pt → pt.state ≠ .stopping → (∀ j ∈ c.cmds, c.cmdPart j = some p → j.id = id) →
      nextWith (exec (.partReset id) s) (fun t =>
        t.mem = s.mem ∧ ended t ∧ t.chip.part? p = some { pt with fault := false, keepLost := [] } ∧
        (∀ q, q ≠ p → t.chip.part? q = c.part? q) ∧ t.chip.events = c.events ∧
        ∀ q, q / 256 = pt.fn → q ∈ c.sqs.map Prod.fst → t.chip.sq q = { c.sq q with cheapCount := 0 })) ∧
    (∀ q pt, c.runs id 0x95 k → c.cmdPart k = some q → c.part? q = some pt →
      (k.stage ≠ 1 → pt.state ≠ .resident → nextWith (exec (.partYield id) s) (fun t => t.mem = s.mem ∧ ended t ∧ t.chip.parts = c.parts)) ∧
      (k.stage ≠ 1 → pt.state = .resident → nextWith (exec (.partYield id) s) (fun t =>
        t.mem = s.mem ∧ t.fuse = s.fuse ∧ t.chip.cmd? id = some { k with stage := 1 } ∧
        t.chip.part? q = some { pt with state := .stopping, stopAt := c.time, stopDeadline := pt.deadlineUs } ∧ (t.chip.hdr (0x020 + q)).irqRaw.getLsbD 3 = true))) ∧
    (c.runs id 0x96 k → nextWith (exec (.progBind id) s) (fun t =>
      let q := c.sq k.queue
      t.mem = s.mem ∧ ended t ∧ t.chip.parts = c.parts ∧ (∀ j, j ≠ k.queue → t.chip.sq j = c.sq j) ∧
      (bitAt p 7 = true → t.chip.sq k.queue = { q with prog := none }) ∧
      (bitAt p 7 = false → t.chip.sq k.queue = { q with prog := some (p % 64), cheapCount := 0, lastCheap := true })))

/-- Grants and stops (R322, R325-R327, R329): with its pairs open the one candidate moves to RESTORING and holds them; preemptible
residents of lower priority stop and the pairs are reserved; a stop at cheap points spills the live ranges, wide buffers read zero
after; at the PREEMPT_DEADLINE the stop began with it ends on the deadline path, not before; SPILL_DONE gives the pairs up; RESTORE_DONE
copies what was spilled back and makes the partition RESIDENT. A copy waits while its memory cannot be accessed (R159, R160, R381). The
model's choices in it: logs 18, 64, 101, 102. -/
def Obligations.GrantsAndStops : Prop :=
  ∀ (s : State) (p : Nat) (pt : Part), s.sound → s.calm → s.chip.part? p = some pt →
    s.chip.pairs.Pairwise (fun a b => a.1 < b.1) → (s.chip.cmds.map (fun k => k.id)).Nodup →
    let c := s.chip
    let qs := bitsOf 48 pt.pairs
    let frame (t : State) := t.fuse = s.fuse ∧ t.pending = s.pending
    let copied (rs : List SpillRange) : List (Nat × List Byte) :=
      rs.map (fun r => ((pt.spillEnds r).2, c.rdBytes s.ctx (pt.spillEnds r).1 r.len)) ++
        (rs.filter (fun r => r.space = 1)).map (fun r => ((pt.spillEnds r).1, List.replicate r.len 0))
    (c.power.pstate = 0 → c.fatal = 0 → (c.noteParts s.ctx).candidates = [p] → (∀ q ∈ qs, c.pairLost s.fuse q = false) →
      ((∀ q ∈ qs, (c.pairRes q).resident = none) → nextWith (exec .grantEvaluate s) (fun t =>
        t.mem = s.mem ∧ frame t ∧ (t.chip.part? p).map (fun u => u.state) = some .restoring ∧
        (∀ q ∈ qs, t.chip.pairRes q = { c.pairRes q with resident := some p, reserved := none }) ∧
        ∀ q, q ∉ qs → (t.chip.pairRes q).resident = (c.pairRes q).resident)) ∧
      ((∃ q ∈ qs, (c.pairRes q).resident ≠ none) →
        (∀ q ∈ qs, ∀ r, (c.pairRes q).resident = some r → ∃ u, c.part? r = some u ∧ u.prio < pt.prio ∧ u.preempt = true) →
        nextWith (exec .grantEvaluate s) (fun t =>
          t.mem = s.mem ∧ frame t ∧ (t.chip.part? p).map (fun u => u.state) = some pt.state ∧
          (∀ q ∈ qs, t.chip.pairRes q = { c.pairRes q with reserved := some p }) ∧
          ∀ q ∈ qs, ∀ r u, (c.pairRes q).resident = some r → c.part? r = some u → u.state = .resident →
            (t.chip.part? r).map (fun v => (v.state, v.stopAt)) = some (.stopping, c.time)))) ∧
    (pt.state = .stopping → c.allCheap pt = true →
      let rs := (c.liveRanges p pt).filter pt.spillFits
      let begun (t : State) (held : Bool) :=
        frame t ∧ (t.chip.part? p).map (fun u => (u.state, u.spilled, u.spillHeld, u.fault)) = some (.spilling, rs, held, pt.fault) ∧
        ∀ n ∈ pt.cells, n < 96 → tabFind t.chip.keeps n = none
      (s.placed → c.imagesUp pt rs = true → nextWith (exec (.spillBegin p) s) (fun t => begun t false ∧ s.stores t (copied rs) [])) ∧
      (c.imagesUp pt rs = false → nextWith (exec (.spillBegin p) s) (fun t => begun t true ∧ t.mem = s.mem))) ∧
    (pt.state = .stopping → c.allCheap pt = false →
      (c.time < pt.stopAt + 1000 * pt.stopDeadline → becomesJust (.preemptDeadlineExpire p) s c) ∧
      (pt.stopAt + 1000 * pt.stopDeadline ≤ c.time → nextWith (exec (.preemptDeadlineExpire p) s) (fun t =>
        frame t ∧ (t.chip.part? p).map (fun u => u.state) = some .spilling ∧ (t.chip.hdr (0x020 + p)).irqRaw.getLsbD 4 = true))) ∧
    (pt.state = .spilling →
      let done (t : State) :=
        frame t ∧
        t.chip.part? p = some { pt with
          state := if c.yielding p ≠ [] ∧ pt.spilled = [] then .idle else .suspended
          spillHeld := false
          lastStopUs := min 0xFFFF (ceilDiv (c.time - pt.stopAt) 1000) } ∧
        (∀ q, (c.pairRes q).resident = some p → t.chip.pairRes q = { c.pairRes q with resident := none, last := some p }) ∧
        (∀ q, (c.pairRes q).resident ≠ some p → t.chip.pairRes q = c.pairRes q) ∧
        ∀ k ∈ c.yielding p, t.chip.cmd? k.id = some { k with phase := .ended, status := 0, detail := 0 }
      (pt.spillHeld = false → nextWith (exec (.spillDone p) s) (fun t => t.mem = s.mem ∧ done t)) ∧
      (s.placed → pt.spillHeld = true → c.imagesUp pt pt.spilled = true →
        nextWith (exec (.spillDone p) s) (fun t => done t ∧ s.stores t (copied pt.spilled) [])) ∧
      (pt.spillHeld = true → c.imagesUp pt pt.spilled = false → becomesJust (.spillDone p) s c)) ∧
    (pt.state = .restoring → c.imagesUp pt pt.spilled = false → becomesJust (.restoreDone p) s c) ∧
    (pt.state = .restoring → c.imagesUp pt pt.spilled = true → (∀ q ∈ qs, (c.domain q).on = true) → nextWith (exec (.restoreDone p) s) (fun t =>
      frame t ∧ t.chip.part? p = some { pt with state := .resident, spilled := [] } ∧ (t.chip.hdr (0x020 + p)).irqRaw.getLsbD 2 = true ∧
      (∀ q ∈ qs, t.chip.pairRes q = { c.pairRes q with last := some p }) ∧
      ((∀ q ∈ qs, (c.pairRes q).last = some p) →
        s.stores t (pt.spilled.map (fun r => ((pt.spillEnds r).1, c.rdBytes s.ctx (pt.spillEnds r).2 r.len))) [])))

/-! ### Link ports -/

/-- Training by the state table (R225, R226, R232, R234): a port moves by the first of its state's conditions that holds, to state 0
where its entry or the one it moves to is bad, and by the timeout only when none holds and its time is over; the alignments choose the
lanes and the width; an unacknowledged replay buffer starts again from its oldest flit at REPLAY_TIMEOUT, unless a replay from that flit
goes on; each 1 ms window compares its uncorrectable codewords with UCW_LIMIT. The model's choices in it: log 108. -/
def Obligations.LinkTraining : Prop :=
  ∀ (s : State) (n : Nat) (v : LaneView), s.sound → s.chip.linkOn = true → n < 24 →
    let c := s.chip
    let p := c.link n
    let e := c.portEntry p
    let w : LaneView := if c.power.linkLost then { signal := 0, pmd := 0, locked := 0, reversed := false } else v
    let act := entryFld e 0 1
    let lanes := w.locked % 256
    let u := { p with signalLost := w.signal &&& p.usedLanes ≠ p.usedLanes, lanes := if act = 0 then 0 else lanes }
    let p' := if act = 3 then { u with width := if lanes = 0xFF then 8 else 0, reversed := w.reversed }
      else if act ≠ 4 then u
      else if lanes % 16 = 0xF then { u with half := 0x0F, width := 4, reversed := w.reversed }
      else if lanes / 16 = 0xF then { u with half := 0xF0, width := 4, reversed := w.reversed }
      else { u with width := 0 }
    let entry (i : Nat) : List Byte := (c.active (tableKey 6 16 0)).elim (List.replicate 32 0) (fun im => im.entry 32 i)
    let moved (t : State) (i : Nat) := t.mem = s.mem ∧ t.fuse = s.fuse ∧ t.chip.cmds = c.cmds ∧
      (t.chip.link n).state = (if entryBad (entry i) then 0 else i) ∧ (t.chip.link n).enteredAt = c.time ∧
      ∀ m, m ≠ n → { t.chip.link m with txQueue := [], crTotal := [] } = { c.link m with txQueue := [], crTotal := [] }
    let bad := entryBad (c.portRaw p)
    (bad = true → ∀ i ∈ [Instr.portStateEval n v, .trainStateTimeout n v],
      nextWith (exec i s) (fun t => moved t 0 ∧ (t.chip.link n).tableErr = true)) ∧
    (bad = false →
      (p'.next e c.time w = none → becomesJust (.portStateEval n v) s (c.putLink n p')) ∧
      (∀ k i, p'.next e c.time w = some (k, i) → nextWith (exec (.portStateEval n v) s) (fun t => moved t i))) ∧
    (bad = false → let us := entryFld e 4 4
     (us = 0 ∨ c.time < p.enteredAt + 1000 * us ∨ p'.next e c.time w ≠ none → becomesJust (.trainStateTimeout n v) s c) ∧
     (us ≠ 0 → p.enteredAt + 1000 * us ≤ c.time → p'.next e c.time w = none →
      nextWith (exec (.trainStateTimeout n v) s) (fun t => moved t (entryFld e 8 1)))) ∧
    (let before := (p.replay.head?.map (fun f => (f.seq + 4095) % 4096)).getD 4095
     let going := p.replayAt ≠ none ∧ p.replayFrom = before
     (p.replay = [] ∨ p.idleAck < p.retryCfg / 65536 ∨ going → becomesJust (.replayTimeout n) s c) ∧
     (p.replay ≠ [] → p.retryCfg / 65536 ≤ p.idleAck → ¬ going → nextWith (exec (.replayTimeout n) s) (fun t =>
       t.mem = s.mem ∧ t.chip.link n =
         { p with replayAt := some 0, replayFrom := before, consec := p.consec + flagNat p.replayed, replayed := true, idleAck := 0 } ∧
       ∀ m, m ≠ n → t.chip.link m = c.link m))) ∧
    (c.time < p.ucwStart + 1000000 → becomesJust (.fecWindowCheck n) s c) ∧
    (p.ucwStart + 1000000 ≤ c.time → becomesJust (.fecWindowCheck n) s
      (c.putLink n { p with ucwFault := p.fecCfg % 65536 ≠ 0 && p.fecCfg % 65536 < p.ucw, ucw := 0, ucwStart := c.time, ucwInj := false, faultInj := p.ucwInj }))

/-- Flits and packets (R229-R231, R236-R241): a good DATA flit in sequence begins or joins its packet, one already accepted is dropped,
a bad one is dropped with one NAK; a port sends its next DATA flit with the control fields of R229, keeps it for replay, spends a credit
and frees the receive buffer it leaves, or sends an IDLE flit; a packet is delivered here, passed on with its hop limit one lower, or
discarded unreachable. The model's choices in it: logs 63, 84. -/
def Obligations.FlitsAndPackets : Prop :=
  ∀ (s : State) (n : Nat), s.sound → s.calm → s.chip.linkOn = true → n < 24 →
    let c := s.chip
    let p := c.link n
    let act := c.portAction p
    (∀ b hit corr unc, act = 6 ∨ act = 7 →
      let f := flitOfBytes b
      let sent (t : State) (q : LinkPort) := t.mem = s.mem ∧ t.fuse = s.fuse ∧ t.chip.link n = { q with ucw := p.ucw + unc } ∧
        ∀ m, m ≠ n → t.chip.link m = c.link m
      (hit = true ∨ flitBad b = true → nextWith (exec (.flitReceive n b hit corr unc) s) (fun t =>
        sent t (if p.nakPending then p else { p with nakPending := true, sendNak := true }))) ∧
      (hit = false → flitBad b = false → f.kind = 1 → f.ackValid = false → f.nak = false →
        let u := { p with
          credit := listSet p.credit f.crVc (p.credit.getD f.crVc 0 + ((f.crTotal + 8192 - p.peerCr.getD f.crVc 0 % 8192) % 8192 : Nat))
          peerCr := listSet p.peerCr f.crVc f.crTotal }
        let taken := { u with expected := (p.expected + 1) % 4096, nakPending := false, accepted := true }
        let pl := f.payload.take f.len
        (f.seq = p.expected → f.sop = true → tabFind p.cut f.vc = none → (∀ q ∈ p.rxQueue, q.whole = true ∨ q.vc ≠ f.vc) →
          nextWith (exec (.flitReceive n b hit corr unc) s) (fun t =>
            sent t { taken with rxQueue := p.rxQueue ++ [{ vc := f.vc, flits := [pl], whole := f.eop }] })) ∧
        (f.seq = p.expected → f.sop = false → tabFind p.cut f.vc = none → (∃ q ∈ p.rxQueue, q.whole = false ∧ q.vc = f.vc) →
          nextWith (exec (.flitReceive n b hit corr unc) s) (fun t =>
            sent t { taken with
              rxQueue := p.rxQueue.map (fun q => if q.whole = false ∧ q.vc = f.vc then { q with flits := q.flits ++ [pl], whole := f.eop } else q) })) ∧
        (f.seq ≠ p.expected → (p.expected + 4096 - f.seq) % 4096 ≤ 2047 → (p.expected + 4096 - f.seq) % 4096 ≠ 0 →
          nextWith (exec (.flitReceive n b hit corr unc) s) (fun t => sent t u)))) ∧
    (let ctl (f : Flit) : Flit := { f with
      ack := (p.expected + 4095) % 4096, ackValid := p.accepted, nak := p.sendNak, crVc := p.crNext, crTotal := p.crTotal.getD p.crNext 0 }
     (act = 7 ∨ (act = 6 ∧ p.replayAt = none ∧ p.arbitrate = none) → nextWith (exec (.flitTransmit n) s) (fun t =>
        t.mem = s.mem ∧ Out.flit n (ctl idleFlit).bytes ∈ t.chip.outbox ∧ (t.chip.link n).replay = p.replay ∧
        (t.chip.link n).seq = p.seq ∧ (t.chip.link n).sendNak = false)) ∧
     (∀ vc q qs b bs, act = 6 → p.replayAt = none → p.arbitrate = some vc → tabGet [] p.txQueue vc = q :: qs → q.flits = b :: bs →
        let d : TxFlit := { seq := p.seq, vc := vc, sop := !q.started, eop := bs = [] ∧ q.more = 0, payload := b }
        nextWith (exec (.flitTransmit n) s) (fun t =>
          let u := t.chip.link n
          t.mem = s.mem ∧ Out.flit n (ctl d.flit).bytes ∈ t.chip.outbox ∧ u.replay = p.replay ++ [d] ∧ u.seq = (p.seq + 1) % 4096 ∧
          u.credit = listSet p.credit vc (p.credit.getD vc 0 - 1) ∧
          tabGet [] u.txQueue vc = (if bs = [] ∧ q.more = 0 then qs else { q with flits := bs, started := true } :: qs) ∧
          ∀ m, m ≠ n → t.chip.link m = (match q.origin with
            | some (o, v) =>
              let l := c.link m
              if o = m then { l with crTotal := listSet l.crTotal v ((l.crTotal.getD v 0 + 1) % 8192) } else l
            | none => c.link m)))) ∧
    (∀ pkt rest, c.links.out = (pkt, none) :: rest → nextWith (exec (.packetRoute none []) s) (fun t =>
      t.mem = s.mem ∧ t.fuse = s.fuse ∧
      ((∃ r, c.routeTo pkt.dst = some r ∧ r.here = true) → t.chip.links = { c.links with out := rest, inbox := c.links.inbox ++ [pkt] }) ∧
      (∀ r m, c.routeTo pkt.dst = some r → r.here = false → c.routePort r pkt = some m →
        t.chip.links.out = rest ∧ t.chip.links.inbox = c.links.inbox ∧
        tabGet [] (t.chip.link m).txQueue pkt.vc =
          tabGet [] (c.link m).txQueue pkt.vc ++ [{ flits := pkt.payloads, entering := true, started := false }]) ∧
      (c.routeTo pkt.dst = none → pkt.type = 8 → t.chip.links = { c.links with out := rest }))) ∧
    ∀ q qs r, p.rxQueue = q :: qs → q.whole = true → q.health = .good → q.wellFormed = true → c.routeTo q.pkt.dst = some r →
      (r.here = true → nextWith (exec (.packetRoute (some n) []) s) (fun t =>
        t.mem = s.mem ∧ t.chip.links.out = c.links.out ∧ t.chip.link n = { p with rxQueue := qs } ∧
        t.chip.links.inbox = c.links.inbox ++ [{ q.pkt with origin := if q.old then none else some (n, q.vc, q.flits.length) }])) ∧
      ∀ m, r.here = false → q.pkt.fld 6 1 ≠ 1 → c.routePort r q.pkt = some m → nextWith (exec (.packetRoute (some n) []) s) (fun t =>
        t.mem = s.mem ∧ t.chip.links.out = c.links.out ∧ t.chip.links.inbox = c.links.inbox ∧ (t.chip.link n).rxQueue = qs ∧
        ∃ u : TxPacket, tabGet [] (t.chip.link m).txQueue q.vc = tabGet [] (c.link m).txQueue q.vc ++ [u] ∧
          u.flits.length = q.flits.length ∧ u.flits.drop 1 = q.flits.drop 1 ∧ u.started = false ∧ u.more = 0 ∧
          u.origin = (if q.old then none else some (n, q.vc)) ∧
          (∀ b bs, q.flits = b :: bs → 32 ≤ b.length →
            (packetOf u.flits).data = q.pkt.data ∧ (packetOf u.flits).fld 6 1 = q.pkt.fld 6 1 - 1 ∧ (packetOf u.flits).dst = q.pkt.dst))

/-! ### Memory tiers and domains -/

/-- The memory tiers' own steps (R151, R153, R154, R159, R160, R408): a refresh is postponed behind pending requests up to eight
times, else issued with its row closed; an idle row closes where CLOSE_IDLE is not 0; a scrub reads the next line, corrects or
poisons it, and goes on; an error its code does not correct is fatal in a hub store, and in the event table loses the line's four entries
and poisons them (R43); a tier comes up when every stack, or every used channel, is trained and zeroed, and a stack that fails
disables HBM. The model's choices in it: logs 11, 24, 37, 94, 111. -/
def Obligations.MemoryTiers : Prop :=
  ∀ (s : State) (u bank ecs : Nat) (pending hot : Bool) (failed : List Nat) (a : Nat), s.sound →
    let c := s.chip
    let t := c.tier u
    let n := tabGet 0 t.postponed bank
    let closed := if u < 16 then tabDel t.open_ bank
      else t.open_.filter (fun e => !(e.1 % 2 = bank % 2 && e.1 / 16 = bank / 16))
    (u < 16 ∨ t.ref2x = hot → c.tierRuns u = true →
      (pending = true → n < 8 →
        becomes (.refreshDue u bank pending hot ecs) s (c.putTier u { t with postponed := tabSet t.postponed bank (n + 1) })) ∧
      (pending = true → 8 ≤ n → becomes (.refreshDue u bank pending hot ecs) s (c.putTier u { t with open_ := closed })) ∧
      (pending = false → becomes (.refreshDue u bank pending hot ecs) s
        (c.putTier u { t with open_ := closed, postponed := tabDel t.postponed bank }))) ∧
    (c.tierRuns u = false → becomesJust (.refreshDue u bank pending hot ecs) s c) ∧
    (c.reg (tierFrame u) 0x104 32 = 0 → becomesJust (.rowIdleClose u bank) s c) ∧
    (c.reg (tierFrame u) 0x104 32 ≠ 0 → becomesJust (.rowIdleClose u bank) s (c.putTier u { t with open_ := tabDel t.open_ bank })) ∧
    (let line := c.key s.fuse (c.tierAddr u (64 * t.scrubPos)) / 64
     c.unarmed → c.tierRuns u = true → c.reg (tierFrame u) 0x108 24 ≠ 0 → nextWith (exec (.patrolScrubRead u []) s) (fun v =>
      v.fuse = s.fuse ∧ v.mem.cells = s.mem.cells ∧ v.mem.health line = scrubbed (s.mem.health line) ∧
      (∀ l, l ≠ line → v.mem.health l = s.mem.health l) ∧
      (v.chip.tier u).scrubPos = (if t.scrubPos + 1 < c.tierSize u then t.scrubPos + 1 else 0) ∧
      (t.scrubPos + 1 < c.tierSize u ∨ (v.chip.tier u).rowCe = []))) ∧
    (let line := c.key s.fuse (64 * (a / 64)) / 64
     let bad := s.mem.health line = .ue ∨ s.mem.health line = .poison
     let hub := ∃ k, c.store a 1 = some (.hub k)
     c.unarmed → c.sramOn a = true → c.power.off = false → c.store a 1 ≠ some .event →
      (¬ (hub ∧ bad) → nextWith (exec (.sramScrub a []) s) (fun v =>
        v.fuse = s.fuse ∧ v.mem.cells = s.mem.cells ∧ v.mem.health line = scrubbed (s.mem.health line) ∧
        ∀ l, l ≠ line → v.mem.health l = s.mem.health l)) ∧
      (∀ k < 3, c.store a 1 = some (.hub k) → bad → c.fatal = 0 → c.power.pstate ≠ 4 → nextWith (exec (.sramScrub a []) s) (fun v =>
        v.mem = s.mem ∧ v.fuse = s.fuse ∧ v.chip.fatal = k + 1))) ∧
    (∀ i < 2 ^ 16, c.power.off = false →
      let scrub : Instr := .sramScrub (0x21800000000 + 16 * i) []
      let h := s.mem.health (evtLine i)
      let four := (List.range 4).map (fun j => i / 4 * 4 + j)
      (h = .good → becomesJust scrub s c) ∧
      (∀ ps, h = .ce ps → nextWith (exec scrub s) (fun v =>
        v.mem.cells = s.mem.cells ∧ v.mem.health (evtLine i) = .good ∧ v.chip.events = c.events)) ∧
      (h = .ue ∨ h = .poison → (∀ j ∈ four, (c.event j).waiters = []) → nextWith (exec scrub s) (fun v =>
        v.mem.cells = s.mem.cells ∧ v.mem.health (evtLine i) = .good ∧ v.chip.cmds = c.cmds ∧
        (∀ j ∈ four, v.chip.event j = { c.event j with count := 0, poisoned := true }) ∧ ∀ j, j ∉ four → v.chip.event j = c.event j))) ∧
    (c.sec.verified = true → (c.tier 0).zeroDone = false → c.tiers.hbmFailed = false → nextWith (exec (.hbmInitDone failed) s) (fun v =>
      v.mem = s.mem ∧ v.fuse = s.fuse ∧ v.chip.tiers.hbmFailed = failed.any (fun k => k < 12) ∧
      ∀ k < 12, v.chip.tier k = { c.tier k with trained := !failed.contains k, zeroDone := !failed.any (fun j => j < 12) })) ∧
    (c.sec.verified = true → c.tiers.ddrChannels ≠ [] → (∀ k ∈ c.tiers.ddrChannels, (c.tier (16 + k)).zeroDone = false) →
      ((∀ k ∈ c.tiers.ddrChannels, k ∉ failed) → nextWith (exec (.ddrInitDone failed) s) (fun v =>
        v.mem = s.mem ∧ v.chip.tiers.ddrChannels = c.tiers.ddrChannels ∧
        ∀ k ∈ c.tiers.ddrChannels, v.chip.tier (16 + k) = { c.tier (16 + k) with trained := true, zeroDone := true })) ∧
      ((∃ k ∈ c.tiers.ddrChannels, k ∈ failed) → nextWith (exec (.ddrInitDone failed) s) (fun v =>
        v.mem = s.mem ∧ v.chip.tiers.ddrChannels = [] ∧ v.chip.tiers.ddrBytes = 0 ∧
        ∀ k ∈ c.tiers.ddrChannels, k ∈ failed → (v.chip.tier (16 + k)).dimmState = 5)))

/-- Power domains and PLLs (R364-R366, R374, R381): a wanted domain begins its ramp in P0; 10 µs later it is on with its memories
zeroed, trim 0 and TSCALE 64; a ramp that fails is tried once more and then is FAILED with source 7; an unused domain goes off
after GATE_DELAY with its contents lost; a PLL's loss of lock is reported and holds what needs it until it locks again, and the PCIe
PLL's resets the ports that run from it. The
model's choices in it: logs 2, 18, 25, 26. -/
def Obligations.DomainsAndClocks : Prop :=
  ∀ (s : State) (d : Nat), s.sound →
    let c := s.chip
    let v := c.domain d
    (d ≤ 60 → c.domainWanted d = true → v.on = false → v.switching = false → v.failed = false → c.power.pstate = 0 → c.power.off = false →
      becomesJust (.domainSwitchOn d) s (c.putDomain d { v with switching := true, startedAt := c.time, attempts := 0 })) ∧
    (v.switching = false ∨ c.time < v.startedAt + 10000 → becomesJust (.domainOnDone d) s c) ∧
    (s.placed → v.switching = true → v.startedAt + 10000 ≤ c.time → nextWith (exec (.domainOnDone d) s) (fun t =>
      let u := t.chip.domain d
      t.fuse = s.fuse ∧ t.pending = s.pending ∧ u.on = true ∧ u.switching = false ∧ u.trim = 0 ∧ u.tscale = 64 ∧
      s.domainZeroed t d ∧ (d < 48 → (t.chip.pairRes d).last = none) ∧ ∀ e, e ≠ d → t.chip.domain e = c.domain e)) ∧
    (v.switching = false ∨ c.time < v.startedAt + 50000 → becomesJust (.domainRampTimeout d) s c) ∧
    (v.switching = true → v.startedAt + 50000 ≤ c.time → nextWith (exec (.domainRampTimeout d) s) (fun t =>
      t.mem = s.mem ∧ t.fuse = s.fuse ∧
      (v.attempts = 0 → t.chip.domain d = { v with attempts := 1, startedAt := c.time }) ∧
      (v.attempts ≠ 0 → t.chip.domain d = { v with switching := false, failed := true } ∧ (t.chip.hdr 2).irqRaw.getLsbD 7 = true))) ∧
    (c.domainWanted d = true ∨ c.time < v.usedAt + 1000 * (c.campCtrl / 65536) → becomesJust (.domainOffDelayExpire d) s c) ∧
    (s.placed → d ≤ 60 → v.on = true → c.domainWanted d = false → v.usedAt + 1000 * (c.campCtrl / 65536) ≤ c.time →
      nextWith (exec (.domainOffDelayExpire d) s) (fun t =>
        t.fuse = s.fuse ∧ t.chip.domain d = { v with on := false, switching := false, vdd := 0 } ∧ s.domainZeroed t d ∧
        ∀ e, e ≠ d → t.chip.domain e = c.domain e)) ∧
    (c.power.off = false → c.power.pstate ≠ 4 →
      (nextWith (exec (.pllLockLoss 0) s) (fun t =>
        t.mem = s.mem ∧ t.chip.power = { c.power with linkLock := false, linkLost := true } ∧ (t.chip.hdr 3).irqRaw.getLsbD 2 = true)) ∧
      (nextWith (exec (.pllLockLoss 1) s) (fun t =>
        t.mem = s.mem ∧ t.chip.power = { c.power with memLock := false, memLost := true } ∧ (t.chip.hdr 3).irqRaw.getLsbD 2 = true)) ∧
      ((∀ p < 2, c.power.pllFed.getD p false = false) → nextWith (exec (.pllLockLoss 2) s) (fun t =>
        t.mem = s.mem ∧ t.chip.power = { c.power with pcieLock := false } ∧ (t.chip.hdr 3).irqRaw.getLsbD 2 = true)) ∧
      (nextWith (exec (.pllLockLoss 2) s) (fun t => t.fuse = s.fuse ∧ t.chip.power.pcieLock = false ∧
        ∀ p < 2, t.chip.port p = (if c.power.pllFed.getD p false then {} else c.port p))) ∧
      becomesJust (.pllRelock 0) s { c with power.linkLock := true, power.linkLost := false } ∧
      becomesJust (.pllRelock 1) s { c with power.memLock := true, power.memLost := false } ∧
      becomesJust (.pllRelock 2) s { c with power.pcieLock := true })

/-! ### Power, pace and resets -/

/-- The supply (R360, R363, R430, R437, R438): a trip, a lost bulk supply, an input out of range or a broken last mate takes all
power at once and latches the switch, also while the module is off with PWR_EN high; PWR_EN low clears the latch; PWR_EN rising, or the
last mate made, with the input in 46 to 60 V starts the device reset with local time 0, whatever the sensors read before, and without it
changes only the pin and the latch. The model's choices in it: logs 2, 18, 75, 115. -/
def Obligations.SupplyAndPowerUp : Prop :=
  (∀ (s : State) (i : Instr), s.sound → s.chip.power.off = false →
    i ∈ [Instr.overcurrentTrip, .bulkUndervoltage, .inputBelow40v, .inputAbove62v, .lastMateBreak] →
    nextWith (exec i s) (fun t => s.lostPower t ∧ t.chip.power.latched = true ∧
      t.chip.pins = { s.chip.pins with lastMate := if i = .lastMateBreak then false else s.chip.pins.lastMate })) ∧
  (∀ s : State, s.sound → s.chip.power.off = false → nextWith (exec .powerDown s) (fun t =>
    s.lostPower t ∧ t.chip.power.latched = false ∧ t.chip.pins = { s.chip.pins with pwrEn := false })) ∧
  ∀ (s : State) (mv : Nat) (smb : Bool), s.sound → s.chip.power.off = true →
    let c := s.chip
    let latch := c.power.latched || c.pins.pwrEn
    let up (pins : Pins) (latched : Bool) (i : Instr) :=
      let ready := pins.pwrEn = true ∧ pins.lastMate = true ∧ latched = false ∧ 46000 ≤ mv ∧ mv ≤ 60000
      (ready → s.fuse.intent = none → nextWith (exec i s) (fun t =>
        t.fuse = s.fuse ∧ t.chip.time = 0 ∧ s.memoryLost t ∧ t.chip.wiped ∧ t.chip.power.off = false ∧ t.chip.power.pstate = 0 ∧
        t.chip.power.thermtrip = false ∧ t.chip.power.latched = false ∧
        t.chip.sec.verified = false ∧ t.chip.primary = (if pins.priSel then 1 else 0) ∧ t.chip.pins = { pins with smbAddr := smb })) ∧
      (¬ ready → becomesJust i s { c with pins := pins, power.latched := latched })
    becomesJust .powerDown s { c with pins.pwrEn := false, power.latched := false } ∧
    (∀ i ∈ [Instr.overcurrentTrip, .bulkUndervoltage, .inputBelow40v, .inputAbove62v], becomesJust i s { c with power.latched := latch }) ∧
    becomesJust .lastMateBreak s { c with pins.lastMate := false, power.latched := latch } ∧
    up { c.pins with pwrEn := true } (c.power.latched && c.pins.pwrEn) (.powerUp mv smb []) ∧
    up { c.pins with lastMate := true } c.power.latched (.lastMateContact mv smb [])

/-- Power states (R360, R367-R370, R377): STATE_REQ 3 enters P3 or shows the cause that refuses it, 4 enters P4, 0 begins the way out
of P3, which ends within 5 ms, and leaves P4 through the device reset; during a transition each is refused with ERR 5; a sensor at its
trip point or an input below 44 V enters P4; INPUT_FAULT is kept and reported. A step that no command waits for passes 40 ns (the model's,
log 17), which a launch's untimed waits do not count (R260). Memory that lost power reads 0 (log 2). The model's choices in it: logs 2, 17,
18, 25, 75, 101. -/
def Obligations.PowerStates : Prop :=
  ∀ (s : State) (r : Requester), s.sound → s.chip.power.off = false →
    let c := s.chip
    let may := c.campWrites s.fuse r = true ∧ c.mayWrite r { blk := .campion, inst := 0 } 0x10C = true
    let still := c.power.trans = none
    let plain (q : Part) : Part := { q with overcommit := false }
    (may → c.power.trans ≠ none → ∀ i ∈ [Instr.standbyRequest r, .offHotRequest r, .runRequest r []],
      becomesJust i s { c with power.err := 5 }) ∧
    (may → still → c.power.pstate = 0 → c.standbyErr ≠ 0 → becomesJust (.standbyRequest r) s { c with power.err := c.standbyErr }) ∧
    (may → still → c.power.pstate = 0 → c.standbyErr = 0 → nextWith (exec (.standbyRequest r) s) (fun t =>
      t.fuse = s.fuse ∧ t.chip.power.pstate = 3 ∧ t.chip.power.err = 0 ∧ (∃ e, t.chip.power.trans = some { target := 3, ends := e }) ∧
      (∀ u < 12, (t.chip.tier u).selfRefresh = true) ∧ t.chip.links.out = [] ∧ t.chip.links.inbox = [] ∧ t.chip.cmds = c.cmds ∧
      (∀ p, (t.chip.part? p).map plain = (c.part? p).map plain) ∧ t.chip.gates = c.gates)) ∧
    (may → still → c.power.pstate ≠ 4 → nextWith (exec (.offHotRequest r) s) (fun t => s.wentOff t ∧ t.chip.power.stateReq = 4)) ∧
    (may → still → c.power.pstate = 3 → nextWith (exec (.runRequest r []) s) (fun t =>
      t.mem = s.mem ∧ t.fuse = s.fuse ∧ t.chip.power.pstate = 3 ∧ t.chip.power.stateReq = 0 ∧ t.chip.power.err = 0 ∧ t.chip.cmds = c.cmds ∧
      ∃ e, t.chip.power.trans = some { target := 0, ends := e } ∧ c.time ≤ e ∧ e ≤ c.time + 5000000)) ∧
    (may → still → c.power.pstate = 4 → c.tripHolds = false → s.fuse.intent = none →
      nextWith (exec (.runRequest r []) s) (fun t => s.deviceWasReset t)) ∧
    (∀ tr, c.power.trans = some tr → s.fuse.intent = none →
      let ticked := step { s with pending := [] }
      let later : Chip := { c with
        time := c.time + 40, cmds := c.cmds.map (fun k => if c.untimedWait k then { k with untimed := k.untimed + 40 } else k) }
      (c.time + 40 < tr.ends → ticked = .next { s with chip := later, pending := [] }) ∧
      (tr.ends ≤ c.time + 40 → tr.target = 0 → c.power.pstate = 3 → nextWith ticked (fun t =>
        t.mem = s.mem ∧ t.fuse = s.fuse ∧ t.chip.power.pstate = 0 ∧ t.chip.power.trans = none ∧ t.chip.cmds = later.cmds ∧
        ∀ e ∈ t.chip.tiers.units, e.2.selfRefresh = false)) ∧
      (tr.ends ≤ c.time + 40 → tr.target ≠ 0 → tr.wake = false →
        ticked = .next { s with chip := { later with power.trans := none }, pending := [] })) ∧
    (c.power.pstate ≠ 4 → nextWith (exec .inputBelow44v s) (fun t => s.wentOff t)) ∧
    (∀ sensor temp,
      ((sensor < 52 ∧ 1840 ≤ temp) ∨ (52 ≤ sensor ∧ sensor < 64 ∧ 1680 ≤ temp) →
        nextWith (exec (.thermtrip sensor temp) s) (fun t =>
          t.chip.power.thermtrip = true ∧ (t.chip.sec.jtagIr < 3 ∨ 7 < t.chip.sec.jtagIr → t.chip.thermtripPin = true) ∧
          (c.power.pstate ≠ 4 → s.wentOff t) ∧ (c.power.pstate = 4 → t.mem = s.mem))) ∧
      (¬ ((sensor < 52 ∧ 1840 ≤ temp) ∨ (52 ≤ sensor ∧ sensor < 64 ∧ 1680 ≤ temp)) → becomesJust (.thermtrip sensor temp) s c)) ∧
    (c.power.inputFault = false → nextWith (exec .inputFault s) (fun t =>
      t.mem = s.mem ∧ t.chip.power = { c.power with inputFault := true } ∧ (t.chip.hdr 2).irqRaw.getLsbD 6 = true)) ∧
    becomesJust .inputFaultClear s { c with power.inputFault := false }

/-- Readings and the governor (R361, R362, R371, R374-R378): each interval's measurement, monitors and sensors are latched; a
domain whose sensor reaches the throttle point lowers TSCALE by 1 and raises it again 2 °C below; SCALE follows the limits by
R375; the input's averages are the floors of the means of its newest 100 and 100,000 samples, and the controller reports each measurement (both
the model's, log 86), though not in SCRAPPED (R400); the meters add millivolts times milliamperes. Before their interval nothing changes.
The model's choices in it: logs 25, 26, 27, 86. -/
def Obligations.ReadingsAndGovernor : Prop :=
  ∀ s : State, s.sound → s.chip.power.off = false →
    let c := s.chip
    (∀ mv ca p, c.power.measureAt + 10000 ≤ c.time →
      let samples := (p :: c.power.samples).take 100000
      let mean (n : Nat) : Nat := (samples.take n).sum / (samples.take n).length
      becomes (.inputMeasure mv ca p) s { c with power := { c.power with
        measureAt := c.time, inputV := mv, inputI := ca, inputP := p, samples := samples, p1s := mean 100000, p1ms := mean 100
        overSince := if c.sustainedW < mean 100 then some (c.power.overSince.getD c.time) else none } } ∧
      (c.mgmtUp = true → s.fuse.lifecycle ≠ 4 → nextWith (exec (.inputMeasure mv ca p) s) (fun t => Out.inputReport mv ca p ∈ t.chip.outbox))) ∧
    (∀ ms, c.power.monitorAt + 1000 ≤ c.time → (ms.map Prod.fst).Nodup → nextWith (exec (.paceMonitorUpdate ms) s) (fun t =>
      t.mem = s.mem ∧ (∀ m ∈ ms, m.1 < 112 → tabGet 0 t.chip.power.monitors m.1 = m.2 % 65536) ∧
      { t.chip with power.monitors := [], power.monitorAt := 0 } = { c with power.monitors := [], power.monitorAt := 0 })) ∧
    (∀ rs d, c.power.sensorAt + 10000 ≤ c.time → d ≤ 60 → (∀ x ∈ rs, x.1 < 68) → nextWith (exec (.sensorSample rs) s) (fun t =>
      let sensors := rs.foldl (fun a x => tabSet a x.1 x.2) c.power.sensors
      let v := c.domain d
      t.mem = s.mem ∧ t.fuse = s.fuse ∧ t.chip.power.sensors = sensors ∧
      ∀ x, ({ c with power.sensors := sensors } : Chip).domainTemp d = some x →
        (t.chip.domain d).tscale = (if 16 * c.throttleC ≤ x + 32 then max 1 (v.tscale - 1)
          else if x + 32 < 16 * c.throttleC - 32 ∧ v.tscale < 64 then v.tscale + 1 else v.tscale))) ∧
    (c.power.governorAt + 10000 ≤ c.time → nextWith (exec .paceGovernorTick s) (fun t =>
      let p := c.power.inputP
      t.mem = s.mem ∧ t.fuse = s.fuse ∧
      t.chip.power.scale = (if c.excursionW < p then max 1 (c.power.scale - 4) else if c.sustainedW < p then max 1 (c.power.scale - 1)
        else if p + 100 < c.sustainedW then min 64 (c.power.scale + 1) else c.power.scale) ∧
      ∀ d ≤ 60, (t.chip.domain d).vdd ≤ (c.domain d).vdd + 10 ∧ (c.domain d).vdd ≤ (t.chip.domain d).vdd + 10)) ∧
    (∀ d mv ma, c.power.energyAt + 1000 ≤ c.time → d < 64 → nextWith (exec (.energyMeterTick [(d, mv, ma)]) s) (fun t =>
      t.mem = s.mem ∧ t.fuse = s.fuse ∧
      (t.chip.domain d).energyPj = min ((c.domain d).energyPj + mv * ma) ((2 ^ 64 - 1) * 1000000) ∧
      ∀ e, e ≠ d → t.chip.domain e = c.domain e)) ∧
    (c.time < c.power.measureAt + 10000 → ∀ mv ca p, becomesJust (.inputMeasure mv ca p) s c) ∧
    (c.time < c.power.monitorAt + 1000 → ∀ ms, becomesJust (.paceMonitorUpdate ms) s c) ∧
    (c.time < c.power.sensorAt + 10000 → ∀ rs, becomesJust (.sensorSample rs) s c) ∧
    (c.time < c.power.governorAt + 10000 → becomesJust .paceGovernorTick s c) ∧
    (c.time < c.power.energyAt + 1000 → ∀ ms, becomesJust (.energyMeterTick ms) s c)

/-- Device reset (R357, R367, R369, R424, R436): RESET_N, a reset request, or the key written to DEV_RESET by the primary port's
physical function resets the device; an interrupted lifecycle transition is completed (R390); a tripped module in P4 stays there, and
any other write of DEV_RESET is ignored. RESET_N rising samples PRI_SEL; a rejected glitch is only counted (R383). The model's choices
in it: logs 2, 18, 31. -/
def Obligations.DeviceResets : Prop :=
  ∀ (s : State) (r : Requester) (v : Nat) (pri : Bool), s.sound →
    let c := s.chip
    let held : State := { s with chip := { c with pins := { c.pins with resetN := false } } }
    let may := c.power.off = false ∧ ¬ (c.power.pstate = 4 ∧ c.tripHolds = true) ∧ s.fuse.intent = none
    let keyed := r = .pf c.primary ∧ v = 0xDE7E0001 ∧ c.reaches s.fuse r { blk := .pcie, inst := c.primary } = true
    (may → nextWith (exec (.deviceReset false []) s) (fun t => s.deviceWasReset t)) ∧
    (may → nextWith (exec (.deviceReset true []) s) (fun t => held.deviceWasReset t)) ∧
    (c.power.off = true ∨ (c.power.pstate = 4 ∧ c.tripHolds = true) → becomesJust (.deviceReset false []) s c) ∧
    (∀ i, c.power.off = false → c.power.pstate ≠ 4 → s.fuse.intent = some i → s.fuse.lifecycle ≤ i.dest → nextWith (exec (.deviceReset false []) s) (fun t =>
      t.fuse = s.fuse.committed i ∧ t.chip.wiped ∧ (i.dest = 4 → ∀ k < 0x3FF0000, t.mem.byte (6 * 2 ^ 48 + k) = 0))) ∧
    (may → keyed → nextWith (exec (.devResetWrite r v []) s) (fun t => s.deviceWasReset t)) ∧
    (¬ keyed → becomesJust (.devResetWrite r v []) s c) ∧
    (c.pins.resetN = false →
      becomesJust (.resetNRelease pri) s { c with pins := { c.pins with resetN := true, priSel := pri }, primary := if pri then 1 else 0 }) ∧
    (c.pins.resetN = true → becomesJust (.resetNRelease pri) s c) ∧
    (c.power.off = false → becomes .glitchReject s c ∧ nextWith (exec .glitchReject s) (fun t =>
      (c.hdr 3).ctr.length = 8 → (t.chip.hdr 3).ctr.getD 3 0 = satAdd 64 ((c.hdr 3).ctr.getD 3 0) 1))

/-- PCIe ports and functions (R337, R338, R354, R355, R382): a port reset takes the link down and forgets its SPDM state; a
trained link below 16 GT/s or ×4 is DEGRADED with source 3; a function-level reset returns its queues and registers to reset
values and keeps program bindings; a physical function's resets every function of its port and clears VF Enable; a bound function's runs
PART_RESET on the partition, and a command that it kills leaves no record and poisons its SIGNAL_EVENT; VF Enable makes virtual
functions, and cleared resets them; PERST_N rising picks the clock mode, and PERST_N falling forgets it. The model's choices in
it: logs 30, 115. -/
def Obligations.PortsAndFunctions : Prop :=
  ∀ (s : State) (port : Nat), s.sound → s.chip.power.off = false → s.chip.power.pstate ≠ 4 → port < 2 →
    let c := s.chip
    (∀ perst, nextWith (exec (.pciePortReset port perst) s) (fun t =>
      t.fuse = s.fuse ∧ t.chip.port port = {} ∧ tabGet {} t.chip.sec.spdm port = ({} : Spdm) ∧
      (∀ p, p ≠ port → t.chip.port p = c.port p ∧ tabGet {} t.chip.sec.spdm p = tabGet {} c.sec.spdm p) ∧
      t.chip.pins = { c.pins with perstN := if perst then listSet c.pins.perstN port false else c.pins.perstN } ∧
      t.chip.power.refclk.getD port false = false ∧ t.chip.power.sris.getD port false = false ∧
      ((c.port port).linkUp = true → (t.chip.hdr (0x010 + port)).irqRaw.getLsbD 2 = true))) ∧
    (∀ ref, becomesJust (.perstNRelease port ref) s { c with
      pins := { c.pins with perstN := listSet c.pins.perstN port true }
      power := { c.power with
        refclk := listSet c.power.refclk port ref, sris := listSet c.power.sris port (!ref), pllFed := listSet c.power.pllFed port (!ref) } }) ∧
    (∀ rate width flit replays, c.pins.perstN.getD port false = true → c.sec.verified = true → 1 ≤ rate → rate ≤ 6 →
      width ∈ [1, 2, 4, 8, 16] → (rate = 6 → flit = true) → (rate < 4 → flit = false) →
      nextWith (exec (.pcieLinkTrained port rate width flit replays) s) (fun t =>
        t.mem = s.mem ∧ t.fuse = s.fuse ∧ t.chip.port port = { c.port port with
          rate := rate, width := width, flit := flit, linkUp := true, degraded := decide (rate < 4 ∨ width < 4) } ∧
        (rate < 4 ∨ width < 4 → (t.chip.hdr (0x010 + port)).irqRaw.getLsbD 3 = true))) ∧
    (∀ n, c.fnWrites (32 * port) = true →
      becomesJust (.vfEnable port true n) s (c.putPort port { c.port port with vfEnable := true, numVfs := min n 31 })) ∧
    (let idle (F : Nat → Prop) := ∀ fn, F fn → c.partOfFn fn = none ∧ ∀ k ∈ c.cmds, k.fn ≠ fn
     let cleared (t : State) (F : Nat → Prop) := t.mem = s.mem ∧ t.fuse = s.fuse ∧ t.chip.cmds = c.cmds ∧
       (∀ fn, F fn → tabFind t.chip.fns fn = none ∧
         ∀ q < 256, t.chip.sq (256 * fn + q) = { ({} : SQ) with prog := (c.sq (256 * fn + q)).prog } ∧ t.chip.cq (256 * fn + q) = {}) ∧
       ∀ key, ¬ F (key / 256) → t.chip.sq key = c.sq key ∧ t.chip.cq key = c.cq key
     let novf (t : State) := t.chip.port port = { c.port port with vfEnable := false, numVfs := 0 }
     let ofPort (fn : Nat) := fn / 32 = port ∧ c.fnExists fn = true
     c.sqs.Pairwise (fun a b => a.1 < b.1) →
      (∀ fn, ofPort fn → fn % 32 ≠ 0 → idle (fun f => f = fn) →
        nextWith (exec (.functionLevelReset fn) s) (fun t => cleared t (fun f => f = fn) ∧ t.chip.port port = c.port port)) ∧
      (idle ofPort → nextWith (exec (.functionLevelReset (32 * port)) s) (fun t => cleared t ofPort ∧ novf t)) ∧
      (∀ n, c.fnWrites (32 * port) = true → idle (fun f => ofPort f ∧ f % 32 ≠ 0) →
        nextWith (exec (.vfEnable port false n) s) (fun t => cleared t (fun f => ofPort f ∧ f % 32 ≠ 0) ∧ novf t))) ∧
    ∀ (fn p : Nat) (pt : Part) (k : Cmd), fn < 64 → c.fnExists fn = true → fn % 32 ≠ 0 → c.partOfFn fn = some p → c.part? p = some pt →
      pt.state ≠ .stopping → c.cmd? k.id = some k → k.phase = .running → k.fn = fn → k.flag 3 = true →
      (∀ j ∈ c.cmds, j ≠ k → j.id ≠ k.id ∧ j.fn ≠ fn ∧ c.cmdPart j ≠ some p) → (c.event (k.fld 10 2)).waiters = [] →
      nextWith (exec (.functionLevelReset fn) s) (fun t =>
        t.fuse = s.fuse ∧ t.chip.cmds = c.cmds.filter (fun j => j.id ≠ k.id) ∧ (t.chip.event (k.fld 10 2)).poisoned = true ∧
        (t.chip.part? p).map (fun u => (u.fault, u.keepLost)) = some (false, []) ∧
        ∀ f q a bs, Out.record f q a bs ∈ t.chip.outbox → Out.record f q a bs ∈ c.outbox)

/-- Boot, fatal errors, the watchdog and self-tests (R358, R387, R388, R400, R405, R406, R415): the flash image is checked by
R387, and the first check it fails is the cause of recovery mode; SCRAPPED goes to P4; a hub fatal error latches its cause and
sends a fatal message on both ports; a controller not kicked in time restarts, and halts when it happens again within 60 s; a
self-test ends with the map and RESULT its finding makes, once its domain is on, and the domain goes off in the same step where nothing
wants it (log 95), its memories then reading 0 (log 2); where the domain FAILED to switch on it ends without a finding. The model's choices
in it: logs 2, 34, 38, 95. -/
def Obligations.BootAndSupervision : Prop :=
  ∀ s : State, s.sound → s.chip.power.off = false →
    let c := s.chip
    let rd (o n : Nat) : List Byte := c.rdBytes s.ctx (flashAddr o) n
    (∀ ds unwraps, c.booting = false → becomesJust (.bootVerify ds unwraps) s c) ∧
    (∀ ds unwraps, c.booting = true →
      (s.fuse.lifecycle = 4 → nextWith (exec (.bootVerify ds unwraps) s) (fun t => s.wentOff t)) ∧
      (s.fuse.lifecycle ≠ 4 → c.sec.force = true ∨ imageCheck s.fuse rd none ≠ 0 → nextWith (exec (.bootVerify ds unwraps) s) (fun t =>
        t.mem = s.mem ∧ t.fuse = s.fuse ∧ t.chip.sec.recovery = true ∧ t.chip.sec.verified = false ∧ t.chip.sec.force = false ∧
        t.chip.sec.cause = (if c.sec.force then 0 else imageCheck s.fuse rd none))) ∧
      (s.fuse.lifecycle ≠ 4 → c.sec.force = false → imageCheck s.fuse rd none = 0 → nextWith (exec (.bootVerify ds unwraps) s) (fun t =>
        t.mem = s.mem ∧ t.fuse = s.fuse ∧ t.chip.sec.verified = true ∧ t.chip.sec.recovery = false ∧ t.chip.sec.cause = 0 ∧
        t.chip.sec.svn = leNat (rd 6 1) ∧ t.chip.sec.key = leNat (rd 7 1) ∧ t.chip.sorrel.running = true ∧
        t.chip.sec.unwrapped = (if s.fuse.lifecycle = 3 ∨ c.sec.blocked = true ∨ unwraps = false then none else s.fuse.ident.key)))) ∧
    (∀ cause, c.power.pstate ≠ 4 → 1 ≤ cause → cause ≤ 3 →
      (c.fatal ≠ 0 → becomesJust (.hubFatal cause) s c) ∧
      (c.fatal = 0 → nextWith (exec (.hubFatal cause) s) (fun t =>
        t.mem = s.mem ∧ t.fuse = s.fuse ∧ t.chip.fatal = cause ∧ t.chip.cmds = c.cmds ∧
        ∀ p < 2, Out.aerFatal p ∈ t.chip.outbox ∧ (t.chip.hdr (0x010 + p)).irqRaw.getLsbD 5 = true))) ∧
    (let due := c.sorrel.lastKick + c.wdtPeriod
     c.sorrel.running = true → c.sorrel.halted = false → bitAt c.wdtCtrl 31 = true →
      (c.time < due → becomesJust .mgmtWdtExpire s c) ∧
      (due ≤ c.time → nextWith (exec .mgmtWdtExpire s) (fun t =>
        let again := ∃ t0, c.sorrel.expiredAt = some t0 ∧ c.time ≤ t0 + 60000000000
        t.mem = s.mem ∧ t.fuse = s.fuse ∧ t.chip.sorrel.expiredAt = some c.time ∧ (t.chip.hdr 1).irqRaw.getLsbD 2 = true ∧
        (again → t.chip.sorrel.halted = true ∧ t.chip.sorrel.running = false) ∧
        (¬ again → t.chip.sorrel.halted = false ∧ t.chip.sorrel.running = true)))) ∧
    (∀ f, c.selftest.busy = true → f.phys ∈ c.selftest.units s.fuse →
      let d := c.selftest.domain
      let v := c.domain d
      let idle := ({ c with selftest.busy := false } : Chip).domainWanted d = false
      (v.on = true → nextWith (exec (.selftestDone [f]) s) (fun t =>
        (¬ idle → t.mem = s.mem ∧ t.chip.domain d = v) ∧ (idle → s.placed → s.domainZeroed t d ∧ (t.chip.domain d).on = false) ∧
        t.fuse = s.fuse.blow (s.fuse.applyFinding f).1 ∧ t.chip.selftest.busy = false ∧
        t.chip.selftest.result = (s.fuse.applyFinding f).2 ∧ (t.chip.hdr 4).irqRaw.getLsbD 2 = true)) ∧
      (v.on = false → v.switching = false → v.failed = true → nextWith (exec (.selftestDone [f]) s) (fun t =>
        t.mem = s.mem ∧ t.fuse = s.fuse ∧ t.chip.selftest.busy = false ∧ t.chip.selftest.result = 0 ∧ (t.chip.hdr 4).irqRaw.getLsbD 2 = true)) ∧
      (v.on = false → v.failed = false → becomesJust (.selftestDone [f]) s c)) ∧
    ∀ fs, c.selftest.busy = false → becomesJust (.selftestDone fs) s c

/-! ### Security -/

/-- Identity and lifecycle (R390-R392, R397, R400, R402): each operation accepted from its requester programs what the rule names
and ends with RESULT 0; a lifecycle operation fuses its intent first and stays BUSY, and its transition, erasures included, commits
then; one that lifecycle, level, recovery mode or power refuses ends with its RESULT and programs nothing. The model's choices in it:
logs 20, 36, 49, 50, 51, 76, 102. -/
def Obligations.LifecycleOperations : Prop :=
  (∀ (s : State) (r : Requester), s.sound → s.mailboxFree r → r ≠ .jtag →
    let c := s.chip
    let fz := s.fuse
    let level := c.sec.dbgLevel
    let fuses (i : Instr) (new : Fuses) := nextWith (exec i s) (fun t => t.mem = s.mem ∧ t.fuse = new ∧ t.mailboxEnds 0)
    let begins (i : Instr) (op : Nat) (j : Intent) := nextWith (exec i s) (fun t =>
      t.mem = s.mem ∧ t.fuse = { fz with intent := some j } ∧ t.chip.sec.op = op ∧ t.chip.sec.unwrapped = c.sec.unwrapped ∧
      t.chip.sec.dbgLevel = level)
    let ends (i : Instr) (result : Nat) := nextWith (exec i s) (fun t => t.mem = s.mem ∧ t.fuse = fz ∧ t.mailboxEnds result)
    let chain (n : Nat) : List Byte := c.rdBytes s.ctx c.mboxAddr n
    let n := chainLen (fun o k => c.rdBytes s.ctx (c.mboxAddr + o) k) 4096 0
    let idOk (op : Nat) : Prop := refusedIn fz.lifecycle level op = false ∧ c.sec.recovery = false
    let keyOk := idOk 0x01 ∧ c.sec.blocked = false
    (keyOk → fuses (.idGenerate r true) { fz with ident := { fz.ident with key := some c.free } }) ∧
    (refusedIn fz.lifecycle level 0x01 = true → ends (.idGenerate r true) 11) ∧
    (refusedIn fz.lifecycle level 0x01 = false → c.sec.recovery = true ∨ c.sec.blocked = true → ends (.idGenerate r true) 1) ∧
    (keyOk → ends (.idGenerate r false) 9) ∧
    (idOk 0x02 → c.power.pstate = 0 → 0 < n → n ≤ 49152 → c.region c.mboxAddr n ≠ none →
      (s.calm → c.trafficLets none [(c.mboxAddr, n)] = true → fuses (.idChain r true) { fz with ident := { fz.ident with chain0 := chain n } }) ∧
      (c.trafficLets none [(c.mboxAddr, n)] = false → becomesJust (.idChain r true) s c)) ∧
    (c.lcCheck fz 0x12 [1, 2] = 0 → c.rmaCheck fz r ≠ 0 → nextWith (exec (.lcToRma r true) s) (fun t =>
      t.fuse = fz ∧ t.mailboxEnds (c.rmaCheck fz r) ∧ t.chip.sec.nonce = c.free)) ∧
    (∀ k, c.lcCheck fz 0x03 [0] = k → k ≠ 0 → ends (.lcToVendor r true) k) ∧
    (c.lcCheck fz 0x03 [0] = 0 → fz.ident.key ≠ none → fz.ident.chain0 ≠ [] → begins (.lcToVendor r true) 0x03 { dest := 1 }) ∧
    (c.lcCheck fz 0x10 [1] = 0 → c.enrolCheck fz 896 = 0 →
      begins (.ownerEnrol r true) 0x10 { dest := 2, key := hashNat (c.mboxBytes 0 384), accept := bitAt (c.mboxByte 384).toNat 0 }) ∧
    (∀ k, c.lcCheck fz 0x10 [1] = k → k ≠ 0 → ends (.ownerEnrol r true) k) ∧
    (c.lcCheck fz 0x11 [2] = 0 → c.enrolCheck fz 1664 = 0 → fz.keyHash (fz.ownerSlot + 1) = some (hashNat (c.mboxBytes 1280 384)) →
      rsaVerify (c.mboxBytes 1280 384) (c.enrolMessage fz) (c.mboxBytes 896 384) = true →
      begins (.ownerRotate r true) 0x11 { dest := 2, key := hashNat (c.mboxBytes 0 384) }) ∧
    (c.lcCheck fz 0x12 [1, 2] = 0 → c.rmaCheck fz r = 0 →
      begins (.lcToRma r true) 0x12 { dest := 3 } ∧ nextWith (exec (.lcToRma r true) s) (fun t => t.chip.sec.nonce = c.free)) ∧
    (c.lcCheck fz 0x13 [1, 2, 3] = 0 → c.mboxHolds 896 = true →
      c.tokenCheck fz r (c.mboxBytes 0 896) 3 (if fz.lifecycle = 2 then [0, fz.ownerSlot + 1] else [0]) = 0 →
      begins (.lcScrap r true) 0x13 { dest := 4 }) ∧
    (refusedIn fz.lifecycle level 0x31 = false → c.sec.verified = true →
      fuses (.svnCommit r true) { fz with svnMin := max fz.svnMin c.sec.svn }) ∧
    ends (.forceRecovery r) 0 ∧ nextWith (exec (.forceRecovery r) s) (fun t => t.chip.sec.force = true)) ∧
  (∀ (s : State), s.sound → s.mailboxFree .jtag → ∀ i ∈ [Instr.lcToRma .jtag true, .lcScrap .jtag true], nextWith (exec i s) (fun t =>
    t.mem = s.mem ∧ t.fuse = s.fuse ∧ t.mailboxEnds 2 ∧ t.chip.sec.nonce = s.chip.free)) ∧
  ∀ (s : State) (i : Intent), s.sound → s.fuse.intent = some i → s.chip.sec.op ∈ [0x03, 0x10, 0x11, 0x12, 0x13] →
    s.chip.power.off = false → s.chip.power.trans = none → s.chip.power.pstate = 0 → s.chip.sec.zeroising = none → s.fuse.lifecycle ≤ i.dest →
    nextWith (step { s with pending := [] }) (fun t =>
      t.fuse = s.fuse.committed i ∧ t.mailboxEnds 0 ∧ (i.dest ≠ 4 → t.mem = s.mem) ∧ (i.dest = 3 → t.chip.sec.unwrapped = none) ∧
      (s.chip.sec.dbgLevel ≠ 0 → t.chip.sec.dbgLevel = 0 ∧ t.chip.sec.endCause = 6) ∧
      (i.dest = 4 → t.chip.power.pstate = 4 ∧ ∀ k < 0x3FF0000, t.mem.byte (6 * 2 ^ 48 + k) = 0))

/-- Debug sessions and firmware (R388, R389, R396-R399, R402): a good token begins a session of its level, D3 only after the
zeroisation; a refused one is counted, fires source 4 and changes no session; the holder ends a session with cause 1; FW_UPDATE of
a good image keeps it and erases the flash's header until the image stands there; so does RECOVER of one in bridge SRAM, which is booted
once it stands in the flash. The model's choices in it: logs 2, 20, 33, 49, 51, 102. -/
def Obligations.DebugAndFirmware : Prop :=
  ∀ (s : State) (r : Requester), s.sound →
    let c := s.chip
    let fz := s.fuse
    let t := c.mboxBytes 0 896
    let level := ctxFld t 5 1
    let part := if ctxFld t 6 1 < 16 then some (ctxFld t 6 1) else none
    let open_ := s.mailboxFree r
    (open_ → ¬ (fz.lifecycle = 2 ∧ ctxFld t 7 1 = 0) →
      let n := if c.mboxHolds 896 then c.tokenCheck fz r t 1 fz.debugKeys else 6
      let k := c.unlockCheck r level part
      (n = 0 → k = 0 → level ≠ 3 → nextWith (exec (.dbgUnlock r) s) (fun u =>
        u.mem = s.mem ∧ u.fuse = fz ∧ u.mailboxEnds 0 ∧ u.chip.sec.dbgLevel = level ∧ u.chip.sec.dbgHolder = r.code ∧
        u.chip.sec.dbgPart = part ∧ u.chip.sec.nonce = c.free ∧ (u.chip.hdr 0).irqRaw.getLsbD 2 = true)) ∧
      (n = 0 → k = 0 → level = 3 → nextWith (exec (.dbgUnlock r) s) (fun u =>
        u.fuse = fz ∧ u.chip.sec.op = 0x20 ∧ u.chip.sec.zeroising = some r.code ∧ u.chip.sec.unwrapped = none ∧ u.chip.sec.blocked = true ∧
        u.chip.sec.dbgLevel = 0 ∧ u.chip.events = [] ∧ u.chip.tables = [] ∧
        (∀ q < 2 ^ 48, u.mem.byte q = 0) ∧ ∀ q, 3 * 2 ^ 48 ≤ q → q < 6 * 2 ^ 48 → u.mem.byte q = 0)) ∧
      (n ≠ 0 ∨ k ≠ 0 → nextWith (exec (.dbgUnlock r) s) (fun u =>
        u.mem = s.mem ∧ u.fuse = fz ∧ u.mailboxEnds (if n ≠ 0 then n else k) ∧ u.chip.sec.dbgLevel = c.sec.dbgLevel ∧
        u.chip.sec.dbgHolder = c.sec.dbgHolder ∧ u.chip.sec.nonce = c.free ∧ c.counted u.chip 0 3 1 ∧ (u.chip.hdr 0).irqRaw.getLsbD 4 = true))) ∧
    (∀ h, c.sec.zeroising = some h → h < 66 → h ≠ 63 → nextWith (exec .d3ZeroiseDone s) (fun u =>
      u.mem = s.mem ∧ u.fuse = fz ∧ u.mailboxEnds 0 ∧ u.chip.sec.dbgLevel = 3 ∧ u.chip.sec.dbgHolder = (requesterOf h).code ∧
      u.chip.sec.zeroising = none ∧ u.chip.sec.d3Entries = c.sec.d3Entries + 1)) ∧
    (open_ →
      (c.sec.dbgLevel = 0 → nextWith (exec (.dbgEnd r) s) (fun u => u.mem = s.mem ∧ u.mailboxEnds 1)) ∧
      (c.sec.dbgLevel = 3 → nextWith (exec (.dbgEnd r) s) (fun u => u.mem = s.mem ∧ u.mailboxEnds 11 ∧ u.chip.sec.dbgLevel = 3)) ∧
      (c.sec.dbgLevel = 1 ∨ c.sec.dbgLevel = 2 → c.sec.dbgHolder = r.code → nextWith (exec (.dbgEnd r) s) (fun u =>
        u.mem = s.mem ∧ u.fuse = fz ∧ u.mailboxEnds 0 ∧ u.chip.sec.dbgLevel = 0 ∧ u.chip.sec.endCause = 1))) ∧
    (open_ → r ≠ .jtag → s.calm → refusedIn fz.lifecycle c.sec.dbgLevel 0x30 = false → c.sec.verified = true → c.power.pstate = 0 →
      c.recovLen ≠ 0 → c.region c.mboxAddr c.recovLen = some .hbm → c.unowned c.mboxAddr c.recovLen = true →
      (c.trafficLets none [(c.mboxAddr, c.recovLen)] = false → becomesJust (.fwUpdate r) s c) ∧
      (c.trafficLets none [(c.mboxAddr, c.recovLen)] = true →
      let rd (o k : Nat) : List Byte := c.rdBytes s.ctx (c.mboxAddr + o) k
      (imageCheck fz rd (some c.recovLen) = 0 → nextWith (exec (.fwUpdate r) s) (fun u =>
        u.fuse = fz ∧ u.chip.sec.op = 0x30 ∧ u.chip.sec.image = some (rd 0 (4096 + imageBody (rd 0 4096))) ∧
        (∀ k < 4096, u.mem.byte (6 * 2 ^ 48 + k) = 0) ∧
        ∀ k, k < 6 * 2 ^ 48 ∨ 6 * 2 ^ 48 + 4096 ≤ k → u.mem.byte k = s.mem.byte k)) ∧
      (imageCheck fz rd (some c.recovLen) ≠ 0 → nextWith (exec (.fwUpdate r) s) (fun u =>
        u.mem = s.mem ∧ u.fuse = fz ∧ u.mailboxEnds (updateResult (imageCheck fz rd (some c.recovLen))))))) ∧
    (∀ im ds unwraps, c.sec.op = 0x30 ∨ c.sec.op = 0x32 → c.sec.image = some im → im.length ≤ 2 ^ 26 →
      nextWith (exec (.fwFlashWriteDone true ds unwraps) s) (fun u =>
        u.fuse = fz ∧ u.mailboxEnds 0 ∧ u.chip.sec.percent = 100 ∧
        (c.sec.op = 0x32 → u.chip.sec.recovery = false ∧ u.chip.sec.verified = true ∧ u.chip.sorrel.running = true) ∧
        (c.sec.op = 0x30 → u.chip.sec.recovery = c.sec.recovery ∧ u.chip.sec.verified = c.sec.verified) ∧
        (∀ k < im.length, u.mem.byte (6 * 2 ^ 48 + k) = im.getD k 0) ∧
        ∀ k, k < 6 * 2 ^ 48 ∨ 6 * 2 ^ 48 + im.length ≤ k → u.mem.byte k = s.mem.byte k) ∧
      nextWith (exec (.fwFlashWriteDone false ds unwraps) s) (fun u =>
        u.mem = s.mem ∧ u.fuse = fz ∧ u.mailboxEnds 9 ∧ u.chip.sec.recovery = c.sec.recovery)) ∧
    (open_ → r ≠ .jtag → c.sec.recovery = true →
      let rd (o k : Nat) : List Byte := c.rdBytes s.ctx (bridgeAddr o) k
      let im := rd 0 (4096 + imageBody (rd 0 4096))
      (imageCheck fz rd (some c.recovLen) = 0 → nextWith (exec (.recover r) s) (fun u =>
        u.fuse = fz ∧ u.chip.sec.op = 0x32 ∧ u.chip.sec.image = some im ∧ u.chip.sec.recovery = true ∧
        (∀ k < 4096, u.mem.byte (6 * 2 ^ 48 + k) = 0) ∧
        ∀ k, k < 6 * 2 ^ 48 ∨ 6 * 2 ^ 48 + 4096 ≤ k → u.mem.byte k = s.mem.byte k)) ∧
      (imageCheck fz rd (some c.recovLen) ≠ 0 → nextWith (exec (.recover r) s) (fun u =>
        u.mem = s.mem ∧ u.fuse = fz ∧ u.mailboxEnds (16 + imageCheck fz rd (some c.recovLen)) ∧ u.chip.sec.recovery = true)))

/-- SPDM (R392-R395): GET_VERSION begins a transport afresh; capabilities and algorithms follow in that order and extend its
transcript; with algorithms negotiated, digests, certificates, measurements and a signed challenge are answered, what needs a
signature without the identity key with Unspecified, and SET_CERTIFICATE programs slot 1 in OWNED; an unknown code and a step out of order are answered with their errors. The model's
choices in it: logs 20, 52. -/
def Obligations.SpdmResponder : Prop :=
  ∀ (s : State) (t : Nat) (msg : List Byte), s.sound → s.chip.spdmReach s.fuse t = true → s.chip.sec.recovery = false →
    (t < 2 → msg.length ≤ 65528) →
    let c := s.chip
    let fz := s.fuse
    let code := ctxFld msg 1 1
    let v12 := ctxFld msg 0 1 = 0x12
    let st := c.spdmOf t
    let answers (i : Instr) (rsp : Nat) (p : State → List Byte → Prop) :=
      nextWith (exec i s) (fun u => u.mem = s.mem ∧ ∃ m, Out.spdm t m ∈ u.chip.outbox ∧ m.getD 1 0 = BitVec.ofNat 8 rsp ∧ p u m)
    let errs (i : Instr) (e d : Nat) := nextWith (exec i s) (fun u =>
      u.mem = s.mem ∧ u.fuse = fz ∧ Out.spdmError t e d ∈ u.chip.outbox ∧ u.chip.spdmOf t = st)
    let same (u : State) := u.fuse = fz ∧ ∀ q, q ≠ t → u.chip.spdmOf q = c.spdmOf q
    (code = 0x84 → ctxFld msg 0 1 = 0x10 → answers (.getVersion t msg) 0x04 (fun u m =>
      same u ∧ m = [0x10, 0x04, 0, 0, 0, 1, 0, 0x12] ∧ u.chip.spdmOf t = { version := true, a := msg ++ m })) ∧
    (code = 0xE1 → v12 → st.version = true → 20 ≤ msg.length → answers (.getCapabilities t msg) 0x61 (fun u m =>
      same u ∧ u.chip.spdmOf t = { st with caps := true, a := st.a ++ msg ++ m })) ∧
    (code = 0xE1 → v12 → st.version = false → errs (.getCapabilities t msg) 0x04 0) ∧
    (code = 0xE3 → v12 → st.caps = true → 32 ≤ msg.length → bitAt (ctxFld msg 8 4) 3 = true → bitAt (ctxFld msg 12 4) 0 = true →
      answers (.negotiateAlgorithms t msg) 0x63 (fun u m =>
        same u ∧ u.chip.spdmOf t = { st with algos := true, a := st.a ++ msg ++ m })) ∧
    (v12 → st.algos = true →
      (code = 0x81 → answers (.getDigests t msg) 0x01 (fun u m => same u ∧ u.chip.spdmOf t = { st with b := st.b ++ msg ++ m })) ∧
      (code = 0x82 → 8 ≤ msg.length → ctxFld msg 4 2 < (chainForm (fz.ident.chain (ctxFld msg 2 1 % 16))).length →
        answers (.getCertificate t msg) 0x02 (fun u m =>
          same u ∧ u.chip.spdmOf t = { st with b := st.b ++ msg ++ m } ∧
          m.drop 8 = ((chainForm (fz.ident.chain (ctxFld msg 2 1 % 16))).drop (ctxFld msg 4 2)).take (ctxFld msg 6 2))) ∧
      (∀ k, code = 0x83 → 36 ≤ msg.length → fz.ident.chain (ctxFld msg 2 1 % 16) ≠ [] → ctxFld msg 3 1 = 0 → c.sec.unwrapped = some k →
        answers (.challenge t msg) 0x03 (fun u m =>
          same u ∧ u.chip.spdmOf t = { st with b := [] } ∧ ∃ b, m = b ++ signWith k (st.a ++ st.b ++ msg ++ b))) ∧
      (c.sec.unwrapped = none →
        (code = 0x83 → errs (.challenge t msg) 0x05 0) ∧ (code = 0xE0 → bitAt (ctxFld msg 2 1) 0 = true → errs (.getMeasurements t msg) 0x05 0)) ∧
      (code = 0xE0 → bitAt (ctxFld msg 2 1) 0 = false → ctxFld msg 3 1 = 0xFF → answers (.getMeasurements t msg) 0x60 (fun u m =>
        same u ∧ u.chip.spdmOf t = { st with l := st.l ++ msg ++ m } ∧ m.getD 4 0 = 6)) ∧
      (∀ k, code = 0xEE → fz.lifecycle = 2 → t = c.primary ∨ t = 2 → ctxFld msg 2 1 % 16 = 1 → fz.ident.key = some k →
        Config.publicKey k ≠ [] → msg.drop 40 ≠ [] → ctxFld msg 4 2 = 36 + (msg.drop 40).length →
        holdsBytes (lastCert 64 (msg.drop 40)) (Config.publicKey k) = true → answers (.setCertificate t msg) 0x6E (fun u _ =>
          u.fuse = { fz with ident := { fz.ident with chain1 := msg.drop 40 } }))) ∧
    (v12 → st.algos = false → code = 0x83 → errs (.challenge t msg) 0x04 0) ∧
    (spdmCodes.contains code = false → errs (.spdmUnsupportedRequest t msg) 0x07 code)

/-- Management transports (R353, R420, R434): DOE Discovery lists discovery and SPDM; an object above 65,536 bytes sets the error bit;
MCTP control sets and reads the EID; a JTAG instruction is loaded if the debug level allows it, else BYPASS, and the capture value goes
out; SAMPLE/PRELOAD and the EXTEST instructions also shift the pins' levels out and the boundary register in; the alert response gives
the module's address while ALERT_N is asserted; MCTP control and the alert response answer nothing in SCRAPPED (R400). An SPDM message
above 65,528 bytes is taken for an object above 65,536 (log 87). The model's choices in it: logs 35, 52, 87, 97, 110. -/
def Obligations.ManagementTransports : Prop :=
  ∀ s : State, s.sound → s.chip.power.off = false →
    let c := s.chip
    (∀ port index len, port < 2 → c.fnReach (32 * port) = true → c.sec.recovery = false →
      (65536 < len → becomesJust (.doeDiscovery port index len) s (c.putPort port { c.port port with doeError := true })) ∧
      (len ≤ 65536 → index < 2 → becomesJust (.doeDiscovery port index len) s
        (c.send (.doe port [1, 0, BitVec.ofNat 8 index, BitVec.ofNat 8 (1 - index)])))) ∧
    (∀ t msg, t < 2 → c.spdmReach s.fuse t = true → 65528 < msg.length → ctxFld msg 1 1 = 0x84 →
      becomesJust (.getVersion t msg) s (c.putPort t { c.port t with doeError := true })) ∧
    (∀ msg, s.fuse.lifecycle = 4 → becomesJust (.mctpControl msg) s c) ∧
    (∀ msg, s.fuse.lifecycle ≠ 4 → c.mgmtUp = true → ctxFld msg 0 1 % 128 = 0 → bitAt (ctxFld msg 1 1) 7 = true →
      let cmd := ctxFld msg 2 1
      let e := ctxFld msg 4 1
      let rsp (cc : Nat) (d : List Byte) : Out := .mctp ([0, BitVec.ofNat 8 (ctxFld msg 1 1 % 32), BitVec.ofNat 8 cmd, BitVec.ofNat 8 cc] ++ d)
      (cmd = 1 → ctxFld msg 3 1 % 4 < 2 → e ≠ 0 → e ≠ 0xFF →
        becomesJust (.mctpControl msg) s (({ c with sec.eid := e } : Chip).send (rsp 0 [0, BitVec.ofNat 8 e, 0]))) ∧
      (cmd = 2 → becomesJust (.mctpControl msg) s (c.send (rsp 0 [BitVec.ofNat 8 c.sec.eid, 0, 0]))) ∧
      (cmd ≠ 1 → cmd ≠ 2 → cmd ≠ 4 → cmd ≠ 5 → becomesJust (.mctpControl msg) s (c.send (rsp 5 [])))) ∧
    (∀ code cells,
      let level := if code = 1 ∨ code = 2 ∨ code = 0x10 ∨ code = 0xFF then some 0
        else if (3 ≤ code ∧ code ≤ 7) ∨ (0x20 ≤ code ∧ code ≤ 0x2F) then some 3 else none
      let ok := ∃ l, level = some l ∧ l ≤ c.sec.dbgLevel
      let capture := 1 + (if c.sec.jtagRefused then 4 else 0) + (if c.sec.dbgLevel = 3 then 8 else 0)
      let d : Chip := ({ c with sec.jtagIr := code, sec.jtagRefused := false } : Chip).send (.jtag capture)
      (ok → code ∉ [1, 2, 3, 6, 7] → becomesJust (.jtagInstruction code cells) s d) ∧
      (code = 1 → becomesJust (.jtagInstruction code cells) s (d.send (.jtagId 0x192164B5))) ∧
      (ok → code ∈ [2, 3, 6, 7] → becomesJust (.jtagInstruction code cells) s { d.send (.jtagBoundary d.pinLevels) with sec.boundary := cells }) ∧
      (¬ ok → becomesJust (.jtagInstruction code cells) s (({ c with sec.jtagIr := 0xFF, sec.jtagRefused := true } : Chip).send (.jtag capture)))) ∧
    (c.alert = true → s.fuse.lifecycle ≠ 4 → c.sorrel.expiredAt = none ∨ c.sorrel.halted = true →
      becomesJust .smbusAlertResponse s (c.send (.araAnswer (if c.pins.smbAddr then 0x62 else 0x60)))) ∧
    (c.alert = false ∨ s.fuse.lifecycle = 4 → becomesJust .smbusAlertResponse s c)
end

