-- ==== Sys2Proof/Laws/Flits.lean ====
section
/-! SUPPORT. Laws of flits: bytes of a number read back, and a flit as sent carries its own CRC. -/

namespace Sys2Proof.Machine

open Sys2Proof

@[simp] theorem leBytes_length (n v : Nat) : (leBytes n v).length = n := by
  induction n generalizing v with
  | zero => rfl
  | succ n ih => simp [leBytes, ih]

/-- A number written in `n` bytes is read back from them. -/
theorem leNat_leBytes (n v : Nat) (h : v < 256 ^ n) : leNat (leBytes n v) = v := by
  induction n generalizing v with
  | zero => simp at h; simp [leBytes, leNat, h]
  | succ n ih =>
    have h' : v / 256 < 256 ^ n := by rw [Nat.pow_succ] at h; omega
    simp only [leBytes, leNat, ih _ h', BitVec.toNat_ofNat]
    omega

theorem crc64_lt (bs : List Byte) : crc64 bs < 256 ^ 8 := by
  have h := (bs.foldl crc64Byte 0xFFFFFFFFFFFFFFFF#64 ^^^ 0xFFFFFFFFFFFFFFFF#64).isLt
  have e : (256 : Nat) ^ 8 = 2 ^ 64 := by decide
  rw [e]; exact h

/-- A flit of at most 240 bytes of payload fills 256 bytes, and its last eight are the CRC of the others (R229). -/
theorem flit_carries_crc (f : Flit) (h : f.payload.length ≤ 240) :
    f.bytes.length = 256 ∧ leNat ((f.bytes.drop 248).take 8) = crc64 (f.bytes.take 248) := by
  have split (b : List Byte) (hb : b.length = 248) : (b ++ leBytes 8 (crc64 b)).length = 256 ∧
      leNat (((b ++ leBytes 8 (crc64 b)).drop 248).take 8) = crc64 ((b ++ leBytes 8 (crc64 b)).take 248) := by
    refine ⟨by simp [hb], ?_⟩
    have hd : (b ++ leBytes 8 (crc64 b)).drop 248 = leBytes 8 (crc64 b) := by rw [← hb]; exact List.drop_left
    have ht : (b ++ leBytes 8 (crc64 b)).take 248 = b := by rw [← hb]; exact List.take_left
    rw [hd, ht, List.take_of_length_le (by simp), leNat_leBytes _ _ (crc64_lt b)]
  exact split _ (by simp only [List.length_append, leBytes_length, List.length_replicate]; omega)

end Sys2Proof.Machine
end

