-- ==== Sys2Proof/Laws/Memory.lean ====
section
/-! SUPPORT. Memory keeps its canonical form under every operation, and a byte reads as what was last stored there. -/

namespace Sys2Proof.Machine

variable {α : Type} [DecidableEq α]

theorem sparseOk_cons (d : α) (e : Nat × α) (t : List (Nat × α)) :
    sparseOk d (e :: t) = true ↔ e.2 ≠ d ∧ (∀ g ∈ t.head?, e.1 < g.1) ∧ sparseOk d t = true := by
  cases t with
  | nil => simp [sparseOk]
  | cons g t => simp [sparseOk, and_assoc]

theorem sparseOk_tail {d : α} {e : Nat × α} {t : List (Nat × α)} (h : sparseOk d (e :: t) = true) : sparseOk d t = true :=
  ((sparseOk_cons d e t).mp h).2.2

/-- The keys behind an entry are greater than its own. -/
theorem sparseOk_lt {d : α} {e : Nat × α} {t : List (Nat × α)} (h : sparseOk d (e :: t) = true) : ∀ g ∈ t, e.1 < g.1 := by
  induction t generalizing e with
  | nil => simp
  | cons f t ih =>
    intro g hg
    have h1 := (sparseOk_cons d e (f :: t)).mp h
    have hf : e.1 < f.1 := h1.2.1 f (by simp)
    rcases List.mem_cons.mp hg with rfl | hg
    · exact hf
    · exact hf.trans (ih h1.2.2 g hg)

theorem sparseOk_of_lt {d : α} {e : Nat × α} {t : List (Nat × α)} (h0 : e.2 ≠ d) (h1 : ∀ g ∈ t, e.1 < g.1)
    (h2 : sparseOk d t = true) : sparseOk d (e :: t) = true :=
  (sparseOk_cons d e t).mpr ⟨h0, fun g hg => h1 g (List.mem_of_mem_head? hg), h2⟩

/-- Every entry of a set list was listed before or is the one set. -/
theorem mem_sparseSet {d : α} {t : List (Nat × α)} {k : Nat} {v : α} {g : Nat × α} (h : g ∈ sparseSet d t k v) : g ∈ t ∨ g = (k, v) := by
  induction t with
  | nil => simp only [sparseSet] at h; split at h <;> simp_all
  | cons e t ih =>
    obtain ⟨i, x⟩ := e
    simp only [sparseSet] at h
    split at h
    · rcases List.mem_cons.mp h with rfl | h
      · simp
      · rcases ih h with h | h <;> simp [h]
    · split at h <;> split at h <;> simp_all <;> tauto

theorem sparseOk_sparseSet (d : α) (t : List (Nat × α)) (k : Nat) (v : α) (h : sparseOk d t = true) :
    sparseOk d (sparseSet d t k v) = true := by
  induction t with
  | nil => simp only [sparseSet]; split <;> simp_all [sparseOk]
  | cons e t ih =>
    obtain ⟨i, x⟩ := e
    have hx : x ≠ d := ((sparseOk_cons d _ _).mp h).1
    have hl := sparseOk_lt h
    simp only [sparseSet]
    split
    · refine sparseOk_of_lt hx (fun g hg => ?_) (ih (sparseOk_tail h))
      rcases mem_sparseSet hg with hg | rfl
      · exact hl g hg
      · assumption
    · split
      · subst_vars
        split
        · exact sparseOk_tail h
        · exact sparseOk_of_lt (by assumption) hl (sparseOk_tail h)
      · split
        · exact h
        · refine sparseOk_of_lt (by assumption) (fun g hg => ?_) h
          rcases List.mem_cons.mp hg with rfl | hg
          · simp only; omega
          · have := hl g hg; simp only at this ⊢; omega

theorem sparseOk_filter (d : α) (p : Nat × α → Bool) (t : List (Nat × α)) (h : sparseOk d t = true) :
    sparseOk d (t.filter p) = true := by
  induction t with
  | nil => rfl
  | cons e t ih =>
    rw [List.filter_cons]
    split
    · refine sparseOk_of_lt ((sparseOk_cons d e t).mp h).1 (fun g hg => ?_) (ih (sparseOk_tail h))
      exact sparseOk_lt h g (List.mem_of_mem_filter hg)
    · exact ih (sparseOk_tail h)

/-- A key no entry has reads as the default. -/
theorem tabGet_of_not_mem {β : Type} (d : β) (t : Tab β) (i : Nat) (h : ∀ g ∈ t, g.1 ≠ i) : tabGet d t i = d := by
  induction t with
  | nil => rfl
  | cons e t ih =>
    obtain ⟨k, v⟩ := e
    have hk : k ≠ i := h (k, v) (by simp)
    simp only [tabGet, hk, if_false]
    exact ih (fun g hg => h g (by simp [hg]))

theorem tabGet_sparseSet (d : α) (t : List (Nat × α)) (k j : Nat) (v : α) (h : sparseOk d t = true) :
    tabGet d (sparseSet d t k v) j = if k = j then v else tabGet d t j := by
  induction t with
  | nil => simp only [sparseSet]; split <;> simp_all [tabGet]
  | cons e t ih =>
    obtain ⟨i, x⟩ := e
    have hl := sparseOk_lt h
    have hi := ih (sparseOk_tail h)
    have hnot : ∀ m, m ≤ i → tabGet d t m = d := fun m hm => tabGet_of_not_mem d t m (fun g hg => by have := hl g hg; simp only at this; omega)
    simp only [sparseSet]
    split
    · simp only [tabGet, hi]; split_ifs <;> first | rfl | omega
    · split
      · split
        · simp only [tabGet]; split_ifs <;> simp_all
        · simp only [tabGet]; split_ifs <;> simp_all
      · split
        · simp only [tabGet]
          split_ifs <;> first | rfl | omega | (subst_vars; exact hnot _ (by omega))
        · simp only [tabGet]

/-- A filtered list reads as before at a key whose entries pass, and as the default at a key whose entries do not. -/
theorem tabGet_filter_key {β : Type} (d : β) (p : Nat → Bool) (t : Tab β) (j : Nat) :
    tabGet d (t.filter (fun e => p e.1)) j = if p j then tabGet d t j else d := by
  induction t with
  | nil => simp [tabGet]
  | cons e t ih =>
    obtain ⟨k, v⟩ := e
    rw [List.filter_cons]
    by_cases hp : p k = true
    · simp only [hp, if_true, tabGet, ih]
      by_cases hk : k = j
      · subst hk; simp [hp]
      · simp [hk]
    · rw [if_neg hp, ih]
      by_cases hk : k = j
      · subst hk; simp [hp]
      · simp [tabGet, hk]

/-! ### Memory -/

theorem Memory.wf_iff (m : Memory) : m.wf = true ↔ sparseOk 0 m.cells = true ∧ sparseOk .good m.lines = true ∧ sparseOk false m.injected = true := by
  simp [Memory.wf, and_assoc]

theorem Memory.wf_setByte {m : Memory} (h : m.wf = true) (k : Nat) (b : Byte) : (m.setByte k b).wf = true := by
  rw [Memory.wf_iff] at h ⊢; exact ⟨sparseOk_sparseSet _ _ _ _ h.1, h.2⟩

theorem Memory.wf_setBytes {m : Memory} (h : m.wf = true) (k : Nat) (bs : List Byte) : (m.setBytes k bs).wf = true := by
  induction bs generalizing m k with
  | nil => exact h
  | cons b bs ih => exact ih (Memory.wf_setByte h k b) (k + 1)

theorem Memory.wf_setHealth {m : Memory} (h : m.wf = true) (l : Nat) (v : Health) : (m.setHealth l v).wf = true := by
  rw [Memory.wf_iff] at h ⊢
  refine ⟨h.1, sparseOk_sparseSet _ _ _ _ h.2.1, ?_⟩
  simp only [Memory.setHealth]
  split_ifs
  · exact sparseOk_sparseSet _ _ _ _ h.2.2
  · exact h.2.2

theorem Memory.wf_mark {m : Memory} (h : m.wf = true) (l : Nat) : (m.mark l).wf = true := by
  rw [Memory.wf_iff] at h ⊢; exact ⟨h.1, h.2.1, sparseOk_sparseSet _ _ _ _ h.2.2⟩

theorem Memory.wf_clearLines {m : Memory} (h : m.wf = true) (k n : Nat) : (m.clearLines k n).wf = true := by
  rw [Memory.wf_iff] at h ⊢; exact ⟨h.1, sparseOk_filter _ _ _ h.2.1, sparseOk_filter _ _ _ h.2.2⟩

theorem Store.wf_apply {m : Memory} (h : m.wf = true) (st : Store) : (st.apply m).wf = true := by
  cases st with
  | bytes k d => exact Memory.wf_setBytes (Memory.wf_clearLines h _ _) _ _
  | zero k n =>
    have h' := (Memory.wf_iff _).mp (Memory.wf_clearLines h k n)
    exact (Memory.wf_iff _).mpr ⟨sparseOk_filter _ _ _ ((Memory.wf_iff _).mp h).1, h'.2⟩
  | health l v => exact Memory.wf_setHealth h l v
  | injected l v =>
    simp only [Store.apply]
    split_ifs
    · exact Memory.wf_setHealth h l v
    · exact Memory.wf_mark (Memory.wf_setHealth h l v) l
  | unspecified k n s => exact Memory.wf_setBytes (Memory.wf_clearLines h _ _) _ _

/-- Staged writes keep memory in canonical form. -/
theorem Memory.wf_commit {m : Memory} (h : m.wf = true) (ss : List Store) : (m.commit ss).wf = true := by
  induction ss generalizing m with
  | nil => exact h
  | cons st ss ih => exact ih (Store.wf_apply h st)

@[simp] theorem Memory.commit_nil (m : Memory) : m.commit [] = m := rfl

theorem Memory.byte_setByte {m : Memory} (h : m.wf = true) (k j : Nat) (b : Byte) :
    (m.setByte k b).byte j = if k = j then b else m.byte j := tabGet_sparseSet _ _ _ _ _ ((Memory.wf_iff m).mp h).1

/-- Bytes stored one after another read back; every other byte stands. -/
theorem Memory.byte_setBytes {m : Memory} (h : m.wf = true) (k j : Nat) (bs : List Byte) :
    (m.setBytes k bs).byte j = if k ≤ j ∧ j < k + bs.length then bs.getD (j - k) 0 else m.byte j := by
  induction bs generalizing m k with
  | nil => simp only [Memory.setBytes, List.length_nil]; rw [if_neg (by omega)]
  | cons b bs ih =>
    simp only [Memory.setBytes, ih (Memory.wf_setByte h k b), Memory.byte_setByte h, List.length_cons]
    by_cases h1 : k = j
    · subst h1; simp
    · by_cases h2 : k + 1 ≤ j ∧ j < k + 1 + bs.length
      · rw [if_pos h2, if_pos (by omega), show j - k = (j - (k + 1)) + 1 by omega]; rfl
      · rw [if_neg h2, if_neg h1, if_neg (by omega)]

@[simp] theorem Memory.byte_setHealth (m : Memory) (l j : Nat) (v : Health) : (m.setHealth l v).byte j = m.byte j := rfl

@[simp] theorem Memory.byte_mark (m : Memory) (l j : Nat) : (m.mark l).byte j = m.byte j := rfl

@[simp] theorem Memory.byte_clearLines (m : Memory) (k n j : Nat) : (m.clearLines k n).byte j = m.byte j := rfl

theorem Store.byte_bytes {m : Memory} (h : m.wf = true) (k j : Nat) (d : List Byte) :
    ((Store.bytes k d).apply m).byte j = if k ≤ j ∧ j < k + d.length then d.getD (j - k) 0 else m.byte j := by
  simp only [Store.apply, Memory.byte_setBytes (Memory.wf_clearLines h _ _), Memory.byte_clearLines]

theorem Store.byte_zero (m : Memory) (k n j : Nat) :
    ((Store.zero k n).apply m).byte j = if k ≤ j ∧ j < k + n then 0 else m.byte j := by
  have := tabGet_filter_key (0 : Byte) (fun i => !(k ≤ i && i < k + n)) m.cells j
  simp only [Store.apply, Memory.byte]
  rw [this]
  by_cases h : k ≤ j ∧ j < k + n
  · simp [h.1, h.2]
  · rw [if_neg h, if_pos]
    simp only [Bool.not_eq_true', Bool.and_eq_false_iff, decide_eq_false_iff_not]
    tauto

end Sys2Proof.Machine
end

