-- ==== Sys2Proof/Laws/State.lean ====
section
/-! SUPPORT. What each update of the chip leaves alone, field by field, and how each table reads after it is set. -/

namespace Sys2Proof

theorem tabGet_tabSet {α : Type} (d : α) (t : Tab α) (i j : Nat) (x : α) :
    tabGet d (tabSet t i x) j = if i = j then x else tabGet d t j := by
  induction t with
  | nil => simp [tabSet, tabGet]
  | cons e t ih =>
    obtain ⟨k, v⟩ := e
    simp only [tabSet]
    split_ifs with h1 h2 <;> simp only [tabGet, ih] <;> split_ifs <;> first | rfl | omega

theorem tabFind_tabSet {α : Type} (t : Tab α) (i j : Nat) (x : α) :
    tabFind (tabSet t i x) j = if i = j then some x else tabFind t j := by
  induction t with
  | nil => simp [tabSet, tabFind]
  | cons e t ih =>
    obtain ⟨k, v⟩ := e
    simp only [tabSet]
    split_ifs with h1 h2 <;> simp only [tabFind, ih] <;> split_ifs <;> first | rfl | omega

end Sys2Proof
namespace Sys2Proof.Machine

/-! ### Untouched fields -/

@[simp] theorem Chip.putHdr_fields (c : Chip) (f : Nat) (h : Header) :
    (c.putHdr f h).time = c.time ∧ (c.putHdr f h).free = c.free ∧ (c.putHdr f h).nextCmd = c.nextCmd ∧
    (c.putHdr f h).instant = c.instant ∧ (c.putHdr f h).staged = c.staged ∧ (c.putHdr f h).sentVecs = c.sentVecs ∧ (c.putHdr f h).outbox = c.outbox ∧
    (c.putHdr f h).regs = c.regs ∧ (c.putHdr f h).sel = c.sel ∧ (c.putHdr f h).latch = c.latch ∧
    (c.putHdr f h).events = c.events ∧ (c.putHdr f h).cmds = c.cmds ∧ (c.putHdr f h).sqs = c.sqs ∧ (c.putHdr f h).cqs = c.cqs ∧
    (c.putHdr f h).fns = c.fns ∧ (c.putHdr f h).pcie = c.pcie ∧ (c.putHdr f h).primary = c.primary ∧
    (c.putHdr f h).fatal = c.fatal ∧ (c.putHdr f h).tables = c.tables ∧ (c.putHdr f h).parts = c.parts ∧
    (c.putHdr f h).regAt = c.regAt ∧ (c.putHdr f h).pairs = c.pairs ∧ (c.putHdr f h).keeps = c.keeps ∧
    (c.putHdr f h).vtime = c.vtime ∧ (c.putHdr f h).readied = c.readied ∧ (c.putHdr f h).selftest = c.selftest ∧ (c.putHdr f h).sorrel = c.sorrel ∧
    (c.putHdr f h).trace = c.trace ∧ (c.putHdr f h).traceHead = c.traceHead ∧ (c.putHdr f h).traced = c.traced ∧ (c.putHdr f h).tiers = c.tiers ∧
    (c.putHdr f h).bridge = c.bridge ∧ (c.putHdr f h).gates = c.gates ∧ (c.putHdr f h).links = c.links ∧
    (c.putHdr f h).coll = c.coll ∧ (c.putHdr f h).serve = c.serve ∧ (c.putHdr f h).power = c.power ∧
    (c.putHdr f h).sec = c.sec ∧ (c.putHdr f h).pins = c.pins := by
  repeat' constructor

@[simp] theorem Chip.setReg_fields (c : Chip) (f off v : Nat) :
    (c.setReg f off v).time = c.time ∧ (c.setReg f off v).free = c.free ∧ (c.setReg f off v).nextCmd = c.nextCmd ∧
    (c.setReg f off v).instant = c.instant ∧ (c.setReg f off v).staged = c.staged ∧ (c.setReg f off v).sentVecs = c.sentVecs ∧ (c.setReg f off v).outbox = c.outbox ∧
    (c.setReg f off v).headers = c.headers ∧ (c.setReg f off v).sel = c.sel ∧ (c.setReg f off v).latch = c.latch ∧
    (c.setReg f off v).events = c.events ∧ (c.setReg f off v).cmds = c.cmds ∧ (c.setReg f off v).sqs = c.sqs ∧
    (c.setReg f off v).cqs = c.cqs ∧ (c.setReg f off v).fns = c.fns ∧ (c.setReg f off v).pcie = c.pcie ∧
    (c.setReg f off v).primary = c.primary ∧ (c.setReg f off v).fatal = c.fatal ∧ (c.setReg f off v).tables = c.tables ∧
    (c.setReg f off v).parts = c.parts ∧ (c.setReg f off v).regAt = c.regAt ∧ (c.setReg f off v).pairs = c.pairs ∧
    (c.setReg f off v).keeps = c.keeps ∧ (c.setReg f off v).vtime = c.vtime ∧ (c.setReg f off v).readied = c.readied ∧ (c.setReg f off v).selftest = c.selftest ∧
    (c.setReg f off v).sorrel = c.sorrel ∧ (c.setReg f off v).trace = c.trace ∧ (c.setReg f off v).traceHead = c.traceHead ∧ (c.setReg f off v).traced = c.traced ∧
    (c.setReg f off v).tiers = c.tiers ∧ (c.setReg f off v).bridge = c.bridge ∧ (c.setReg f off v).gates = c.gates ∧
    (c.setReg f off v).links = c.links ∧ (c.setReg f off v).coll = c.coll ∧ (c.setReg f off v).serve = c.serve ∧
    (c.setReg f off v).power = c.power ∧ (c.setReg f off v).sec = c.sec ∧ (c.setReg f off v).pins = c.pins := by
  repeat' constructor

@[simp] theorem Chip.resetRegs_fields (c : Chip) (f : Nat) :
    (c.resetRegs f).time = c.time ∧ (c.resetRegs f).free = c.free ∧ (c.resetRegs f).nextCmd = c.nextCmd ∧
    (c.resetRegs f).instant = c.instant ∧ (c.resetRegs f).staged = c.staged ∧ (c.resetRegs f).sentVecs = c.sentVecs ∧ (c.resetRegs f).outbox = c.outbox ∧
    (c.resetRegs f).headers = c.headers ∧ (c.resetRegs f).sel = c.sel ∧ (c.resetRegs f).latch = c.latch ∧
    (c.resetRegs f).events = c.events ∧ (c.resetRegs f).cmds = c.cmds ∧ (c.resetRegs f).sqs = c.sqs ∧
    (c.resetRegs f).cqs = c.cqs ∧ (c.resetRegs f).fns = c.fns ∧ (c.resetRegs f).pcie = c.pcie ∧
    (c.resetRegs f).primary = c.primary ∧ (c.resetRegs f).fatal = c.fatal ∧ (c.resetRegs f).tables = c.tables ∧
    (c.resetRegs f).parts = c.parts ∧ (c.resetRegs f).regAt = c.regAt ∧ (c.resetRegs f).pairs = c.pairs ∧
    (c.resetRegs f).keeps = c.keeps ∧ (c.resetRegs f).vtime = c.vtime ∧ (c.resetRegs f).readied = c.readied ∧ (c.resetRegs f).selftest = c.selftest ∧
    (c.resetRegs f).sorrel = c.sorrel ∧ (c.resetRegs f).trace = c.trace ∧ (c.resetRegs f).traceHead = c.traceHead ∧ (c.resetRegs f).traced = c.traced ∧
    (c.resetRegs f).tiers = c.tiers ∧ (c.resetRegs f).bridge = c.bridge ∧ (c.resetRegs f).gates = c.gates ∧
    (c.resetRegs f).links = c.links ∧ (c.resetRegs f).coll = c.coll ∧ (c.resetRegs f).serve = c.serve ∧
    (c.resetRegs f).power = c.power ∧ (c.resetRegs f).sec = c.sec ∧ (c.resetRegs f).pins = c.pins := by
  repeat' constructor

@[simp] theorem Chip.putFn_fields (c : Chip) (fn : Nat) (r : FnRegs) :
    (c.putFn fn r).time = c.time ∧ (c.putFn fn r).free = c.free ∧ (c.putFn fn r).nextCmd = c.nextCmd ∧
    (c.putFn fn r).instant = c.instant ∧ (c.putFn fn r).staged = c.staged ∧ (c.putFn fn r).sentVecs = c.sentVecs ∧ (c.putFn fn r).outbox = c.outbox ∧
    (c.putFn fn r).headers = c.headers ∧ (c.putFn fn r).regs = c.regs ∧ (c.putFn fn r).sel = c.sel ∧
    (c.putFn fn r).latch = c.latch ∧ (c.putFn fn r).events = c.events ∧ (c.putFn fn r).cmds = c.cmds ∧
    (c.putFn fn r).sqs = c.sqs ∧ (c.putFn fn r).cqs = c.cqs ∧ (c.putFn fn r).pcie = c.pcie ∧
    (c.putFn fn r).primary = c.primary ∧ (c.putFn fn r).fatal = c.fatal ∧ (c.putFn fn r).tables = c.tables ∧
    (c.putFn fn r).parts = c.parts ∧ (c.putFn fn r).regAt = c.regAt ∧ (c.putFn fn r).pairs = c.pairs ∧
    (c.putFn fn r).keeps = c.keeps ∧ (c.putFn fn r).vtime = c.vtime ∧ (c.putFn fn r).readied = c.readied ∧ (c.putFn fn r).selftest = c.selftest ∧
    (c.putFn fn r).sorrel = c.sorrel ∧ (c.putFn fn r).trace = c.trace ∧ (c.putFn fn r).traceHead = c.traceHead ∧ (c.putFn fn r).traced = c.traced ∧
    (c.putFn fn r).tiers = c.tiers ∧ (c.putFn fn r).bridge = c.bridge ∧ (c.putFn fn r).gates = c.gates ∧
    (c.putFn fn r).links = c.links ∧ (c.putFn fn r).coll = c.coll ∧ (c.putFn fn r).serve = c.serve ∧
    (c.putFn fn r).power = c.power ∧ (c.putFn fn r).sec = c.sec ∧ (c.putFn fn r).pins = c.pins := by
  repeat' constructor

@[simp] theorem Chip.putPort_fields (c : Chip) (x : Nat) (p : PciePort) :
    (c.putPort x p).time = c.time ∧ (c.putPort x p).free = c.free ∧ (c.putPort x p).nextCmd = c.nextCmd ∧
    (c.putPort x p).instant = c.instant ∧ (c.putPort x p).staged = c.staged ∧ (c.putPort x p).sentVecs = c.sentVecs ∧ (c.putPort x p).outbox = c.outbox ∧
    (c.putPort x p).headers = c.headers ∧ (c.putPort x p).regs = c.regs ∧ (c.putPort x p).sel = c.sel ∧
    (c.putPort x p).latch = c.latch ∧ (c.putPort x p).events = c.events ∧ (c.putPort x p).cmds = c.cmds ∧
    (c.putPort x p).sqs = c.sqs ∧ (c.putPort x p).cqs = c.cqs ∧ (c.putPort x p).fns = c.fns ∧
    (c.putPort x p).primary = c.primary ∧ (c.putPort x p).fatal = c.fatal ∧ (c.putPort x p).tables = c.tables ∧
    (c.putPort x p).parts = c.parts ∧ (c.putPort x p).regAt = c.regAt ∧ (c.putPort x p).pairs = c.pairs ∧
    (c.putPort x p).keeps = c.keeps ∧ (c.putPort x p).vtime = c.vtime ∧ (c.putPort x p).readied = c.readied ∧ (c.putPort x p).selftest = c.selftest ∧
    (c.putPort x p).sorrel = c.sorrel ∧ (c.putPort x p).trace = c.trace ∧ (c.putPort x p).traceHead = c.traceHead ∧ (c.putPort x p).traced = c.traced ∧
    (c.putPort x p).tiers = c.tiers ∧ (c.putPort x p).bridge = c.bridge ∧ (c.putPort x p).gates = c.gates ∧
    (c.putPort x p).links = c.links ∧ (c.putPort x p).coll = c.coll ∧ (c.putPort x p).serve = c.serve ∧
    (c.putPort x p).power = c.power ∧ (c.putPort x p).sec = c.sec ∧ (c.putPort x p).pins = c.pins := by
  repeat' constructor

@[simp] theorem Chip.modPart_fields (c : Chip) (p : Nat) (f : Part → Part) :
    (c.modPart p f).time = c.time ∧ (c.modPart p f).free = c.free ∧ (c.modPart p f).nextCmd = c.nextCmd ∧
    (c.modPart p f).instant = c.instant ∧ (c.modPart p f).staged = c.staged ∧ (c.modPart p f).sentVecs = c.sentVecs ∧ (c.modPart p f).outbox = c.outbox ∧
    (c.modPart p f).headers = c.headers ∧ (c.modPart p f).regs = c.regs ∧ (c.modPart p f).sel = c.sel ∧
    (c.modPart p f).latch = c.latch ∧ (c.modPart p f).events = c.events ∧ (c.modPart p f).cmds = c.cmds ∧
    (c.modPart p f).sqs = c.sqs ∧ (c.modPart p f).cqs = c.cqs ∧ (c.modPart p f).fns = c.fns ∧ (c.modPart p f).pcie = c.pcie ∧
    (c.modPart p f).primary = c.primary ∧ (c.modPart p f).fatal = c.fatal ∧ (c.modPart p f).tables = c.tables ∧
    (c.modPart p f).regAt = c.regAt ∧ (c.modPart p f).pairs = c.pairs ∧ (c.modPart p f).keeps = c.keeps ∧
    (c.modPart p f).vtime = c.vtime ∧ (c.modPart p f).readied = c.readied ∧ (c.modPart p f).selftest = c.selftest ∧ (c.modPart p f).sorrel = c.sorrel ∧
    (c.modPart p f).trace = c.trace ∧ (c.modPart p f).traceHead = c.traceHead ∧ (c.modPart p f).traced = c.traced ∧ (c.modPart p f).tiers = c.tiers ∧
    (c.modPart p f).bridge = c.bridge ∧ (c.modPart p f).gates = c.gates ∧ (c.modPart p f).links = c.links ∧
    (c.modPart p f).coll = c.coll ∧ (c.modPart p f).serve = c.serve ∧ (c.modPart p f).power = c.power ∧
    (c.modPart p f).sec = c.sec ∧ (c.modPart p f).pins = c.pins := by
  repeat' constructor

@[simp] theorem Chip.putDomain_fields (c : Chip) (d : Nat) (v : Domain) :
    (c.putDomain d v).time = c.time ∧ (c.putDomain d v).free = c.free ∧ (c.putDomain d v).nextCmd = c.nextCmd ∧
    (c.putDomain d v).instant = c.instant ∧ (c.putDomain d v).staged = c.staged ∧ (c.putDomain d v).sentVecs = c.sentVecs ∧ (c.putDomain d v).outbox = c.outbox ∧
    (c.putDomain d v).headers = c.headers ∧ (c.putDomain d v).regs = c.regs ∧ (c.putDomain d v).sel = c.sel ∧
    (c.putDomain d v).latch = c.latch ∧ (c.putDomain d v).events = c.events ∧ (c.putDomain d v).cmds = c.cmds ∧
    (c.putDomain d v).sqs = c.sqs ∧ (c.putDomain d v).cqs = c.cqs ∧ (c.putDomain d v).fns = c.fns ∧
    (c.putDomain d v).pcie = c.pcie ∧ (c.putDomain d v).primary = c.primary ∧ (c.putDomain d v).fatal = c.fatal ∧
    (c.putDomain d v).tables = c.tables ∧ (c.putDomain d v).parts = c.parts ∧ (c.putDomain d v).regAt = c.regAt ∧
    (c.putDomain d v).pairs = c.pairs ∧ (c.putDomain d v).keeps = c.keeps ∧ (c.putDomain d v).vtime = c.vtime ∧ (c.putDomain d v).readied = c.readied ∧
    (c.putDomain d v).selftest = c.selftest ∧ (c.putDomain d v).sorrel = c.sorrel ∧ (c.putDomain d v).trace = c.trace ∧
    (c.putDomain d v).traceHead = c.traceHead ∧ (c.putDomain d v).traced = c.traced ∧ (c.putDomain d v).tiers = c.tiers ∧ (c.putDomain d v).bridge = c.bridge ∧
    (c.putDomain d v).gates = c.gates ∧ (c.putDomain d v).links = c.links ∧ (c.putDomain d v).coll = c.coll ∧
    (c.putDomain d v).serve = c.serve ∧ (c.putDomain d v).sec = c.sec ∧ (c.putDomain d v).pins = c.pins ∧
    (c.putDomain d v).power.pstate = c.power.pstate ∧ (c.putDomain d v).power.stateReq = c.power.stateReq ∧
    (c.putDomain d v).power.err = c.power.err ∧ (c.putDomain d v).power.scale = c.power.scale ∧
    (c.putDomain d v).power.inputFault = c.power.inputFault ∧ (c.putDomain d v).power.capUnmet = c.power.capUnmet ∧
    (c.putDomain d v).power.floorLost = c.power.floorLost ∧ (c.putDomain d v).power.coolant = c.power.coolant ∧
    (c.putDomain d v).power.thermtrip = c.power.thermtrip ∧ (c.putDomain d v).power.inputV = c.power.inputV ∧
    (c.putDomain d v).power.inputI = c.power.inputI ∧ (c.putDomain d v).power.inputP = c.power.inputP ∧
    (c.putDomain d v).power.p1s = c.power.p1s ∧ (c.putDomain d v).power.p1ms = c.power.p1ms ∧
    (c.putDomain d v).power.sensors = c.power.sensors ∧ (c.putDomain d v).power.monitors = c.power.monitors ∧
    (c.putDomain d v).power.linkLock = c.power.linkLock ∧ (c.putDomain d v).power.memLock = c.power.memLock ∧
    (c.putDomain d v).power.pcieLock = c.power.pcieLock ∧ (c.putDomain d v).power.linkLost = c.power.linkLost ∧
    (c.putDomain d v).power.memLost = c.power.memLost ∧ (c.putDomain d v).power.refclk = c.power.refclk ∧
    (c.putDomain d v).power.sris = c.power.sris ∧ (c.putDomain d v).power.memSsc = c.power.memSsc ∧
    (c.putDomain d v).power.governorAt = c.power.governorAt ∧ (c.putDomain d v).power.sensorAt = c.power.sensorAt ∧
    (c.putDomain d v).power.monitorAt = c.power.monitorAt ∧ (c.putDomain d v).power.energyAt = c.power.energyAt ∧
    (c.putDomain d v).power.measureAt = c.power.measureAt ∧ (c.putDomain d v).power.partPj = c.power.partPj ∧
    (c.putDomain d v).power.off = c.power.off ∧ (c.putDomain d v).power.latched = c.power.latched ∧
    (c.putDomain d v).power.overSince = c.power.overSince ∧ (c.putDomain d v).power.trans = c.power.trans ∧
    (c.putDomain d v).power.samples = c.power.samples ∧ (c.putDomain d v).power.pllFed = c.power.pllFed := by
  repeat' constructor

@[simp] theorem Chip.putTier_fields (c : Chip) (u : Nat) (t : Tier) :
    (c.putTier u t).time = c.time ∧ (c.putTier u t).free = c.free ∧ (c.putTier u t).nextCmd = c.nextCmd ∧
    (c.putTier u t).instant = c.instant ∧ (c.putTier u t).staged = c.staged ∧ (c.putTier u t).sentVecs = c.sentVecs ∧ (c.putTier u t).outbox = c.outbox ∧
    (c.putTier u t).headers = c.headers ∧ (c.putTier u t).regs = c.regs ∧ (c.putTier u t).sel = c.sel ∧
    (c.putTier u t).latch = c.latch ∧ (c.putTier u t).events = c.events ∧ (c.putTier u t).cmds = c.cmds ∧
    (c.putTier u t).sqs = c.sqs ∧ (c.putTier u t).cqs = c.cqs ∧ (c.putTier u t).fns = c.fns ∧ (c.putTier u t).pcie = c.pcie ∧
    (c.putTier u t).primary = c.primary ∧ (c.putTier u t).fatal = c.fatal ∧ (c.putTier u t).tables = c.tables ∧
    (c.putTier u t).parts = c.parts ∧ (c.putTier u t).regAt = c.regAt ∧ (c.putTier u t).pairs = c.pairs ∧
    (c.putTier u t).keeps = c.keeps ∧ (c.putTier u t).vtime = c.vtime ∧ (c.putTier u t).readied = c.readied ∧ (c.putTier u t).selftest = c.selftest ∧
    (c.putTier u t).sorrel = c.sorrel ∧ (c.putTier u t).trace = c.trace ∧ (c.putTier u t).traceHead = c.traceHead ∧ (c.putTier u t).traced = c.traced ∧
    (c.putTier u t).bridge = c.bridge ∧ (c.putTier u t).gates = c.gates ∧ (c.putTier u t).links = c.links ∧
    (c.putTier u t).coll = c.coll ∧ (c.putTier u t).serve = c.serve ∧ (c.putTier u t).power = c.power ∧
    (c.putTier u t).sec = c.sec ∧ (c.putTier u t).pins = c.pins ∧ (c.putTier u t).tiers.hbmFailed = c.tiers.hbmFailed ∧
    (c.putTier u t).tiers.ddrChannels = c.tiers.ddrChannels ∧ (c.putTier u t).tiers.ddrBytes = c.tiers.ddrBytes ∧
    (c.putTier u t).tiers.windows = c.tiers.windows ∧ (c.putTier u t).tiers.resid = c.tiers.resid ∧
    (c.putTier u t).tiers.gradStat = c.tiers.gradStat := by
  repeat' constructor

@[simp] theorem Chip.putWindow_fields (c : Chip) (i : Nat) (w : Window) :
    (c.putWindow i w).time = c.time ∧ (c.putWindow i w).free = c.free ∧ (c.putWindow i w).nextCmd = c.nextCmd ∧
    (c.putWindow i w).instant = c.instant ∧ (c.putWindow i w).staged = c.staged ∧ (c.putWindow i w).sentVecs = c.sentVecs ∧ (c.putWindow i w).outbox = c.outbox ∧
    (c.putWindow i w).headers = c.headers ∧ (c.putWindow i w).regs = c.regs ∧ (c.putWindow i w).sel = c.sel ∧
    (c.putWindow i w).latch = c.latch ∧ (c.putWindow i w).events = c.events ∧ (c.putWindow i w).cmds = c.cmds ∧
    (c.putWindow i w).sqs = c.sqs ∧ (c.putWindow i w).cqs = c.cqs ∧ (c.putWindow i w).fns = c.fns ∧
    (c.putWindow i w).pcie = c.pcie ∧ (c.putWindow i w).primary = c.primary ∧ (c.putWindow i w).fatal = c.fatal ∧
    (c.putWindow i w).tables = c.tables ∧ (c.putWindow i w).parts = c.parts ∧ (c.putWindow i w).regAt = c.regAt ∧
    (c.putWindow i w).pairs = c.pairs ∧ (c.putWindow i w).keeps = c.keeps ∧ (c.putWindow i w).vtime = c.vtime ∧ (c.putWindow i w).readied = c.readied ∧
    (c.putWindow i w).selftest = c.selftest ∧ (c.putWindow i w).sorrel = c.sorrel ∧ (c.putWindow i w).trace = c.trace ∧
    (c.putWindow i w).traceHead = c.traceHead ∧ (c.putWindow i w).traced = c.traced ∧ (c.putWindow i w).bridge = c.bridge ∧ (c.putWindow i w).gates = c.gates ∧
    (c.putWindow i w).links = c.links ∧ (c.putWindow i w).coll = c.coll ∧ (c.putWindow i w).serve = c.serve ∧
    (c.putWindow i w).power = c.power ∧ (c.putWindow i w).sec = c.sec ∧ (c.putWindow i w).pins = c.pins ∧
    (c.putWindow i w).tiers.units = c.tiers.units ∧ (c.putWindow i w).tiers.hbmFailed = c.tiers.hbmFailed ∧
    (c.putWindow i w).tiers.ddrChannels = c.tiers.ddrChannels ∧ (c.putWindow i w).tiers.ddrBytes = c.tiers.ddrBytes ∧
    (c.putWindow i w).tiers.resid = c.tiers.resid ∧ (c.putWindow i w).tiers.gradStat = c.tiers.gradStat := by
  repeat' constructor

@[simp] theorem Chip.putTable_fields (c : Chip) (key : Nat) (t : Table) :
    (c.putTable key t).time = c.time ∧ (c.putTable key t).free = c.free ∧ (c.putTable key t).nextCmd = c.nextCmd ∧
    (c.putTable key t).instant = c.instant ∧ (c.putTable key t).staged = c.staged ∧ (c.putTable key t).sentVecs = c.sentVecs ∧ (c.putTable key t).outbox = c.outbox ∧
    (c.putTable key t).headers = c.headers ∧ (c.putTable key t).regs = c.regs ∧ (c.putTable key t).sel = c.sel ∧
    (c.putTable key t).latch = c.latch ∧ (c.putTable key t).events = c.events ∧ (c.putTable key t).cmds = c.cmds ∧
    (c.putTable key t).sqs = c.sqs ∧ (c.putTable key t).cqs = c.cqs ∧ (c.putTable key t).fns = c.fns ∧
    (c.putTable key t).pcie = c.pcie ∧ (c.putTable key t).primary = c.primary ∧ (c.putTable key t).fatal = c.fatal ∧
    (c.putTable key t).parts = c.parts ∧ (c.putTable key t).regAt = c.regAt ∧ (c.putTable key t).pairs = c.pairs ∧
    (c.putTable key t).keeps = c.keeps ∧ (c.putTable key t).vtime = c.vtime ∧ (c.putTable key t).readied = c.readied ∧ (c.putTable key t).selftest = c.selftest ∧
    (c.putTable key t).sorrel = c.sorrel ∧ (c.putTable key t).trace = c.trace ∧ (c.putTable key t).traceHead = c.traceHead ∧ (c.putTable key t).traced = c.traced ∧
    (c.putTable key t).tiers = c.tiers ∧ (c.putTable key t).bridge = c.bridge ∧ (c.putTable key t).gates = c.gates ∧
    (c.putTable key t).links = c.links ∧ (c.putTable key t).coll = c.coll ∧ (c.putTable key t).serve = c.serve ∧
    (c.putTable key t).power = c.power ∧ (c.putTable key t).sec = c.sec ∧ (c.putTable key t).pins = c.pins := by
  repeat' constructor

@[simp] theorem Chip.putCmd_fields (c : Chip) (k : Cmd) :
    (c.putCmd k).time = c.time ∧ (c.putCmd k).free = c.free ∧ (c.putCmd k).nextCmd = c.nextCmd ∧
    (c.putCmd k).instant = c.instant ∧ (c.putCmd k).staged = c.staged ∧ (c.putCmd k).sentVecs = c.sentVecs ∧ (c.putCmd k).outbox = c.outbox ∧
    (c.putCmd k).headers = c.headers ∧ (c.putCmd k).regs = c.regs ∧ (c.putCmd k).sel = c.sel ∧ (c.putCmd k).latch = c.latch ∧
    (c.putCmd k).events = c.events ∧ (c.putCmd k).sqs = c.sqs ∧ (c.putCmd k).cqs = c.cqs ∧ (c.putCmd k).fns = c.fns ∧
    (c.putCmd k).pcie = c.pcie ∧ (c.putCmd k).primary = c.primary ∧ (c.putCmd k).fatal = c.fatal ∧
    (c.putCmd k).tables = c.tables ∧ (c.putCmd k).parts = c.parts ∧ (c.putCmd k).regAt = c.regAt ∧
    (c.putCmd k).pairs = c.pairs ∧ (c.putCmd k).keeps = c.keeps ∧ (c.putCmd k).vtime = c.vtime ∧ (c.putCmd k).readied = c.readied ∧
    (c.putCmd k).selftest = c.selftest ∧ (c.putCmd k).sorrel = c.sorrel ∧ (c.putCmd k).trace = c.trace ∧
    (c.putCmd k).traceHead = c.traceHead ∧ (c.putCmd k).traced = c.traced ∧ (c.putCmd k).tiers = c.tiers ∧ (c.putCmd k).bridge = c.bridge ∧
    (c.putCmd k).gates = c.gates ∧ (c.putCmd k).links = c.links ∧ (c.putCmd k).coll = c.coll ∧ (c.putCmd k).serve = c.serve ∧
    (c.putCmd k).power = c.power ∧ (c.putCmd k).sec = c.sec ∧ (c.putCmd k).pins = c.pins := by
  repeat' constructor

@[simp] theorem Chip.dropCmd_fields (c : Chip) (id : Nat) :
    (c.dropCmd id).time = c.time ∧ (c.dropCmd id).free = c.free ∧ (c.dropCmd id).nextCmd = c.nextCmd ∧
    (c.dropCmd id).instant = c.instant ∧ (c.dropCmd id).staged = c.staged ∧ (c.dropCmd id).sentVecs = c.sentVecs ∧ (c.dropCmd id).outbox = c.outbox ∧
    (c.dropCmd id).headers = c.headers ∧ (c.dropCmd id).regs = c.regs ∧ (c.dropCmd id).sel = c.sel ∧
    (c.dropCmd id).latch = c.latch ∧ (c.dropCmd id).events = c.events ∧ (c.dropCmd id).sqs = c.sqs ∧
    (c.dropCmd id).cqs = c.cqs ∧ (c.dropCmd id).fns = c.fns ∧ (c.dropCmd id).pcie = c.pcie ∧
    (c.dropCmd id).primary = c.primary ∧ (c.dropCmd id).fatal = c.fatal ∧ (c.dropCmd id).tables = c.tables ∧
    (c.dropCmd id).parts = c.parts ∧ (c.dropCmd id).regAt = c.regAt ∧ (c.dropCmd id).pairs = c.pairs ∧
    (c.dropCmd id).keeps = c.keeps ∧ (c.dropCmd id).vtime = c.vtime ∧ (c.dropCmd id).readied = c.readied ∧ (c.dropCmd id).selftest = c.selftest ∧
    (c.dropCmd id).sorrel = c.sorrel ∧ (c.dropCmd id).trace = c.trace ∧ (c.dropCmd id).traceHead = c.traceHead ∧ (c.dropCmd id).traced = c.traced ∧
    (c.dropCmd id).tiers = c.tiers ∧ (c.dropCmd id).bridge = c.bridge ∧ (c.dropCmd id).gates = c.gates ∧
    (c.dropCmd id).links = c.links ∧ (c.dropCmd id).coll = c.coll ∧ (c.dropCmd id).serve = c.serve ∧
    (c.dropCmd id).power = c.power ∧ (c.dropCmd id).sec = c.sec ∧ (c.dropCmd id).pins = c.pins := by
  repeat' constructor

@[simp] theorem Chip.putSq_fields (c : Chip) (key : Nat) (q : SQ) :
    (c.putSq key q).time = c.time ∧ (c.putSq key q).free = c.free ∧ (c.putSq key q).nextCmd = c.nextCmd ∧
    (c.putSq key q).instant = c.instant ∧ (c.putSq key q).staged = c.staged ∧ (c.putSq key q).sentVecs = c.sentVecs ∧ (c.putSq key q).outbox = c.outbox ∧
    (c.putSq key q).headers = c.headers ∧ (c.putSq key q).regs = c.regs ∧ (c.putSq key q).sel = c.sel ∧
    (c.putSq key q).latch = c.latch ∧ (c.putSq key q).events = c.events ∧ (c.putSq key q).cmds = c.cmds ∧
    (c.putSq key q).cqs = c.cqs ∧ (c.putSq key q).fns = c.fns ∧ (c.putSq key q).pcie = c.pcie ∧
    (c.putSq key q).primary = c.primary ∧ (c.putSq key q).fatal = c.fatal ∧ (c.putSq key q).tables = c.tables ∧
    (c.putSq key q).parts = c.parts ∧ (c.putSq key q).regAt = c.regAt ∧ (c.putSq key q).pairs = c.pairs ∧
    (c.putSq key q).keeps = c.keeps ∧ (c.putSq key q).vtime = c.vtime ∧ (c.putSq key q).readied = c.readied ∧ (c.putSq key q).selftest = c.selftest ∧
    (c.putSq key q).sorrel = c.sorrel ∧ (c.putSq key q).trace = c.trace ∧ (c.putSq key q).traceHead = c.traceHead ∧ (c.putSq key q).traced = c.traced ∧
    (c.putSq key q).tiers = c.tiers ∧ (c.putSq key q).bridge = c.bridge ∧ (c.putSq key q).gates = c.gates ∧
    (c.putSq key q).links = c.links ∧ (c.putSq key q).coll = c.coll ∧ (c.putSq key q).serve = c.serve ∧
    (c.putSq key q).power = c.power ∧ (c.putSq key q).sec = c.sec ∧ (c.putSq key q).pins = c.pins := by
  repeat' constructor

@[simp] theorem Chip.putCq_fields (c : Chip) (key : Nat) (q : CQ) :
    (c.putCq key q).time = c.time ∧ (c.putCq key q).free = c.free ∧ (c.putCq key q).nextCmd = c.nextCmd ∧
    (c.putCq key q).instant = c.instant ∧ (c.putCq key q).staged = c.staged ∧ (c.putCq key q).sentVecs = c.sentVecs ∧ (c.putCq key q).outbox = c.outbox ∧
    (c.putCq key q).headers = c.headers ∧ (c.putCq key q).regs = c.regs ∧ (c.putCq key q).sel = c.sel ∧
    (c.putCq key q).latch = c.latch ∧ (c.putCq key q).events = c.events ∧ (c.putCq key q).cmds = c.cmds ∧
    (c.putCq key q).sqs = c.sqs ∧ (c.putCq key q).fns = c.fns ∧ (c.putCq key q).pcie = c.pcie ∧
    (c.putCq key q).primary = c.primary ∧ (c.putCq key q).fatal = c.fatal ∧ (c.putCq key q).tables = c.tables ∧
    (c.putCq key q).parts = c.parts ∧ (c.putCq key q).regAt = c.regAt ∧ (c.putCq key q).pairs = c.pairs ∧
    (c.putCq key q).keeps = c.keeps ∧ (c.putCq key q).vtime = c.vtime ∧ (c.putCq key q).readied = c.readied ∧ (c.putCq key q).selftest = c.selftest ∧
    (c.putCq key q).sorrel = c.sorrel ∧ (c.putCq key q).trace = c.trace ∧ (c.putCq key q).traceHead = c.traceHead ∧ (c.putCq key q).traced = c.traced ∧
    (c.putCq key q).tiers = c.tiers ∧ (c.putCq key q).bridge = c.bridge ∧ (c.putCq key q).gates = c.gates ∧
    (c.putCq key q).links = c.links ∧ (c.putCq key q).coll = c.coll ∧ (c.putCq key q).serve = c.serve ∧
    (c.putCq key q).power = c.power ∧ (c.putCq key q).sec = c.sec ∧ (c.putCq key q).pins = c.pins := by
  repeat' constructor

@[simp] theorem Chip.putEvent_fields (c : Chip) (i : Nat) (e : Event) :
    (c.putEvent i e).time = c.time ∧ (c.putEvent i e).free = c.free ∧ (c.putEvent i e).nextCmd = c.nextCmd ∧
    (c.putEvent i e).instant = c.instant ∧ (c.putEvent i e).staged = c.staged ∧ (c.putEvent i e).sentVecs = c.sentVecs ∧ (c.putEvent i e).outbox = c.outbox ∧
    (c.putEvent i e).headers = c.headers ∧ (c.putEvent i e).regs = c.regs ∧ (c.putEvent i e).sel = c.sel ∧
    (c.putEvent i e).latch = c.latch ∧ (c.putEvent i e).cmds = c.cmds ∧ (c.putEvent i e).sqs = c.sqs ∧
    (c.putEvent i e).cqs = c.cqs ∧ (c.putEvent i e).fns = c.fns ∧ (c.putEvent i e).pcie = c.pcie ∧
    (c.putEvent i e).primary = c.primary ∧ (c.putEvent i e).fatal = c.fatal ∧ (c.putEvent i e).tables = c.tables ∧
    (c.putEvent i e).parts = c.parts ∧ (c.putEvent i e).regAt = c.regAt ∧ (c.putEvent i e).pairs = c.pairs ∧
    (c.putEvent i e).keeps = c.keeps ∧ (c.putEvent i e).vtime = c.vtime ∧ (c.putEvent i e).readied = c.readied ∧ (c.putEvent i e).selftest = c.selftest ∧
    (c.putEvent i e).sorrel = c.sorrel ∧ (c.putEvent i e).trace = c.trace ∧ (c.putEvent i e).traceHead = c.traceHead ∧ (c.putEvent i e).traced = c.traced ∧
    (c.putEvent i e).tiers = c.tiers ∧ (c.putEvent i e).bridge = c.bridge ∧ (c.putEvent i e).gates = c.gates ∧
    (c.putEvent i e).links = c.links ∧ (c.putEvent i e).coll = c.coll ∧ (c.putEvent i e).serve = c.serve ∧
    (c.putEvent i e).power = c.power ∧ (c.putEvent i e).sec = c.sec ∧ (c.putEvent i e).pins = c.pins := by
  repeat' constructor

@[simp] theorem Chip.putGate_fields (c : Chip) (p : Nat) (g : Gate) :
    (c.putGate p g).time = c.time ∧ (c.putGate p g).free = c.free ∧ (c.putGate p g).nextCmd = c.nextCmd ∧
    (c.putGate p g).instant = c.instant ∧ (c.putGate p g).staged = c.staged ∧ (c.putGate p g).sentVecs = c.sentVecs ∧ (c.putGate p g).outbox = c.outbox ∧
    (c.putGate p g).headers = c.headers ∧ (c.putGate p g).regs = c.regs ∧ (c.putGate p g).sel = c.sel ∧
    (c.putGate p g).latch = c.latch ∧ (c.putGate p g).events = c.events ∧ (c.putGate p g).cmds = c.cmds ∧
    (c.putGate p g).sqs = c.sqs ∧ (c.putGate p g).cqs = c.cqs ∧ (c.putGate p g).fns = c.fns ∧ (c.putGate p g).pcie = c.pcie ∧
    (c.putGate p g).primary = c.primary ∧ (c.putGate p g).fatal = c.fatal ∧ (c.putGate p g).tables = c.tables ∧
    (c.putGate p g).parts = c.parts ∧ (c.putGate p g).regAt = c.regAt ∧ (c.putGate p g).pairs = c.pairs ∧
    (c.putGate p g).keeps = c.keeps ∧ (c.putGate p g).vtime = c.vtime ∧ (c.putGate p g).readied = c.readied ∧ (c.putGate p g).selftest = c.selftest ∧
    (c.putGate p g).sorrel = c.sorrel ∧ (c.putGate p g).trace = c.trace ∧ (c.putGate p g).traceHead = c.traceHead ∧ (c.putGate p g).traced = c.traced ∧
    (c.putGate p g).tiers = c.tiers ∧ (c.putGate p g).bridge = c.bridge ∧ (c.putGate p g).links = c.links ∧
    (c.putGate p g).coll = c.coll ∧ (c.putGate p g).serve = c.serve ∧ (c.putGate p g).power = c.power ∧
    (c.putGate p g).sec = c.sec ∧ (c.putGate p g).pins = c.pins := by
  repeat' constructor

@[simp] theorem Chip.putPair_fields (c : Chip) (q : Nat) (r : PairRes) :
    (c.putPair q r).time = c.time ∧ (c.putPair q r).free = c.free ∧ (c.putPair q r).nextCmd = c.nextCmd ∧
    (c.putPair q r).instant = c.instant ∧ (c.putPair q r).staged = c.staged ∧ (c.putPair q r).sentVecs = c.sentVecs ∧ (c.putPair q r).outbox = c.outbox ∧
    (c.putPair q r).headers = c.headers ∧ (c.putPair q r).regs = c.regs ∧ (c.putPair q r).sel = c.sel ∧
    (c.putPair q r).latch = c.latch ∧ (c.putPair q r).events = c.events ∧ (c.putPair q r).cmds = c.cmds ∧
    (c.putPair q r).sqs = c.sqs ∧ (c.putPair q r).cqs = c.cqs ∧ (c.putPair q r).fns = c.fns ∧ (c.putPair q r).pcie = c.pcie ∧
    (c.putPair q r).primary = c.primary ∧ (c.putPair q r).fatal = c.fatal ∧ (c.putPair q r).tables = c.tables ∧
    (c.putPair q r).parts = c.parts ∧ (c.putPair q r).regAt = c.regAt ∧ (c.putPair q r).keeps = c.keeps ∧
    (c.putPair q r).vtime = c.vtime ∧ (c.putPair q r).readied = c.readied ∧ (c.putPair q r).selftest = c.selftest ∧ (c.putPair q r).sorrel = c.sorrel ∧
    (c.putPair q r).trace = c.trace ∧ (c.putPair q r).traceHead = c.traceHead ∧ (c.putPair q r).traced = c.traced ∧ (c.putPair q r).tiers = c.tiers ∧
    (c.putPair q r).bridge = c.bridge ∧ (c.putPair q r).gates = c.gates ∧ (c.putPair q r).links = c.links ∧
    (c.putPair q r).coll = c.coll ∧ (c.putPair q r).serve = c.serve ∧ (c.putPair q r).power = c.power ∧
    (c.putPair q r).sec = c.sec ∧ (c.putPair q r).pins = c.pins := by
  repeat' constructor

@[simp] theorem Chip.putRing_fields (c : Chip) (i : Nat) (r : Ring) :
    (c.putRing i r).time = c.time ∧ (c.putRing i r).free = c.free ∧ (c.putRing i r).nextCmd = c.nextCmd ∧
    (c.putRing i r).instant = c.instant ∧ (c.putRing i r).staged = c.staged ∧ (c.putRing i r).sentVecs = c.sentVecs ∧ (c.putRing i r).outbox = c.outbox ∧
    (c.putRing i r).headers = c.headers ∧ (c.putRing i r).regs = c.regs ∧ (c.putRing i r).sel = c.sel ∧
    (c.putRing i r).latch = c.latch ∧ (c.putRing i r).events = c.events ∧ (c.putRing i r).cmds = c.cmds ∧
    (c.putRing i r).sqs = c.sqs ∧ (c.putRing i r).cqs = c.cqs ∧ (c.putRing i r).fns = c.fns ∧ (c.putRing i r).pcie = c.pcie ∧
    (c.putRing i r).primary = c.primary ∧ (c.putRing i r).fatal = c.fatal ∧ (c.putRing i r).tables = c.tables ∧
    (c.putRing i r).parts = c.parts ∧ (c.putRing i r).regAt = c.regAt ∧ (c.putRing i r).pairs = c.pairs ∧
    (c.putRing i r).keeps = c.keeps ∧ (c.putRing i r).vtime = c.vtime ∧ (c.putRing i r).readied = c.readied ∧ (c.putRing i r).selftest = c.selftest ∧
    (c.putRing i r).sorrel = c.sorrel ∧ (c.putRing i r).trace = c.trace ∧ (c.putRing i r).traceHead = c.traceHead ∧ (c.putRing i r).traced = c.traced ∧
    (c.putRing i r).tiers = c.tiers ∧ (c.putRing i r).gates = c.gates ∧ (c.putRing i r).links = c.links ∧
    (c.putRing i r).coll = c.coll ∧ (c.putRing i r).serve = c.serve ∧ (c.putRing i r).power = c.power ∧
    (c.putRing i r).sec = c.sec ∧ (c.putRing i r).pins = c.pins := by
  repeat' constructor

@[simp] theorem Chip.putLink_fields (c : Chip) (n : Nat) (p : LinkPort) :
    (c.putLink n p).time = c.time ∧ (c.putLink n p).free = c.free ∧ (c.putLink n p).nextCmd = c.nextCmd ∧
    (c.putLink n p).instant = c.instant ∧ (c.putLink n p).staged = c.staged ∧ (c.putLink n p).sentVecs = c.sentVecs ∧ (c.putLink n p).outbox = c.outbox ∧
    (c.putLink n p).headers = c.headers ∧ (c.putLink n p).regs = c.regs ∧ (c.putLink n p).sel = c.sel ∧
    (c.putLink n p).latch = c.latch ∧ (c.putLink n p).events = c.events ∧ (c.putLink n p).cmds = c.cmds ∧
    (c.putLink n p).sqs = c.sqs ∧ (c.putLink n p).cqs = c.cqs ∧ (c.putLink n p).fns = c.fns ∧ (c.putLink n p).pcie = c.pcie ∧
    (c.putLink n p).primary = c.primary ∧ (c.putLink n p).fatal = c.fatal ∧ (c.putLink n p).tables = c.tables ∧
    (c.putLink n p).parts = c.parts ∧ (c.putLink n p).regAt = c.regAt ∧ (c.putLink n p).pairs = c.pairs ∧
    (c.putLink n p).keeps = c.keeps ∧ (c.putLink n p).vtime = c.vtime ∧ (c.putLink n p).readied = c.readied ∧ (c.putLink n p).selftest = c.selftest ∧
    (c.putLink n p).sorrel = c.sorrel ∧ (c.putLink n p).trace = c.trace ∧ (c.putLink n p).traceHead = c.traceHead ∧ (c.putLink n p).traced = c.traced ∧
    (c.putLink n p).tiers = c.tiers ∧ (c.putLink n p).bridge = c.bridge ∧ (c.putLink n p).gates = c.gates ∧
    (c.putLink n p).coll = c.coll ∧ (c.putLink n p).serve = c.serve ∧ (c.putLink n p).power = c.power ∧
    (c.putLink n p).sec = c.sec ∧ (c.putLink n p).pins = c.pins ∧ (c.putLink n p).links.out = c.links.out ∧
    (c.putLink n p).links.inbox = c.links.inbox ∧ (c.putLink n p).links.tags = c.links.tags ∧
    (c.putLink n p).links.nextTag = c.links.nextTag ∧ (c.putLink n p).links.deviceId = c.links.deviceId ∧
    (c.putLink n p).links.txnTimeout = c.links.txnTimeout := by
  repeat' constructor

@[simp] theorem Chip.putStage_fields (c : Chip) (a : Nat) (s : Stage) :
    (c.putStage a s).time = c.time ∧ (c.putStage a s).free = c.free ∧ (c.putStage a s).nextCmd = c.nextCmd ∧
    (c.putStage a s).instant = c.instant ∧ (c.putStage a s).staged = c.staged ∧ (c.putStage a s).sentVecs = c.sentVecs ∧ (c.putStage a s).outbox = c.outbox ∧
    (c.putStage a s).headers = c.headers ∧ (c.putStage a s).regs = c.regs ∧ (c.putStage a s).sel = c.sel ∧
    (c.putStage a s).latch = c.latch ∧ (c.putStage a s).events = c.events ∧ (c.putStage a s).cmds = c.cmds ∧
    (c.putStage a s).sqs = c.sqs ∧ (c.putStage a s).cqs = c.cqs ∧ (c.putStage a s).fns = c.fns ∧
    (c.putStage a s).pcie = c.pcie ∧ (c.putStage a s).primary = c.primary ∧ (c.putStage a s).fatal = c.fatal ∧
    (c.putStage a s).tables = c.tables ∧ (c.putStage a s).parts = c.parts ∧ (c.putStage a s).regAt = c.regAt ∧
    (c.putStage a s).pairs = c.pairs ∧ (c.putStage a s).keeps = c.keeps ∧ (c.putStage a s).vtime = c.vtime ∧ (c.putStage a s).readied = c.readied ∧
    (c.putStage a s).selftest = c.selftest ∧ (c.putStage a s).sorrel = c.sorrel ∧ (c.putStage a s).trace = c.trace ∧
    (c.putStage a s).traceHead = c.traceHead ∧ (c.putStage a s).traced = c.traced ∧ (c.putStage a s).tiers = c.tiers ∧ (c.putStage a s).bridge = c.bridge ∧
    (c.putStage a s).gates = c.gates ∧ (c.putStage a s).links = c.links ∧ (c.putStage a s).serve = c.serve ∧
    (c.putStage a s).power = c.power ∧ (c.putStage a s).sec = c.sec ∧ (c.putStage a s).pins = c.pins ∧
    (c.putStage a s).coll.groups = c.coll.groups ∧ (c.putStage a s).coll.launches = c.coll.launches := by
  repeat' constructor

@[simp] theorem Chip.putLaunch_fields (c : Chip) (id : Nat) (l : Launch) :
    (c.putLaunch id l).time = c.time ∧ (c.putLaunch id l).free = c.free ∧ (c.putLaunch id l).nextCmd = c.nextCmd ∧
    (c.putLaunch id l).instant = c.instant ∧ (c.putLaunch id l).staged = c.staged ∧ (c.putLaunch id l).sentVecs = c.sentVecs ∧ (c.putLaunch id l).outbox = c.outbox ∧
    (c.putLaunch id l).headers = c.headers ∧ (c.putLaunch id l).regs = c.regs ∧ (c.putLaunch id l).sel = c.sel ∧
    (c.putLaunch id l).latch = c.latch ∧ (c.putLaunch id l).events = c.events ∧ (c.putLaunch id l).cmds = c.cmds ∧
    (c.putLaunch id l).sqs = c.sqs ∧ (c.putLaunch id l).cqs = c.cqs ∧ (c.putLaunch id l).fns = c.fns ∧
    (c.putLaunch id l).pcie = c.pcie ∧ (c.putLaunch id l).primary = c.primary ∧ (c.putLaunch id l).fatal = c.fatal ∧
    (c.putLaunch id l).tables = c.tables ∧ (c.putLaunch id l).parts = c.parts ∧ (c.putLaunch id l).regAt = c.regAt ∧
    (c.putLaunch id l).pairs = c.pairs ∧ (c.putLaunch id l).keeps = c.keeps ∧ (c.putLaunch id l).vtime = c.vtime ∧ (c.putLaunch id l).readied = c.readied ∧
    (c.putLaunch id l).selftest = c.selftest ∧ (c.putLaunch id l).sorrel = c.sorrel ∧ (c.putLaunch id l).trace = c.trace ∧
    (c.putLaunch id l).traceHead = c.traceHead ∧ (c.putLaunch id l).traced = c.traced ∧ (c.putLaunch id l).tiers = c.tiers ∧ (c.putLaunch id l).bridge = c.bridge ∧
    (c.putLaunch id l).gates = c.gates ∧ (c.putLaunch id l).links = c.links ∧ (c.putLaunch id l).serve = c.serve ∧
    (c.putLaunch id l).power = c.power ∧ (c.putLaunch id l).sec = c.sec ∧ (c.putLaunch id l).pins = c.pins ∧
    (c.putLaunch id l).coll.groups = c.coll.groups ∧ (c.putLaunch id l).coll.stages = c.coll.stages := by
  repeat' constructor

@[simp] theorem Chip.putServe_fields (c : Chip) (p : Nat) (s : Serve) :
    (c.putServe p s).time = c.time ∧ (c.putServe p s).free = c.free ∧ (c.putServe p s).nextCmd = c.nextCmd ∧
    (c.putServe p s).instant = c.instant ∧ (c.putServe p s).staged = c.staged ∧ (c.putServe p s).sentVecs = c.sentVecs ∧ (c.putServe p s).outbox = c.outbox ∧
    (c.putServe p s).headers = c.headers ∧ (c.putServe p s).regs = c.regs ∧ (c.putServe p s).sel = c.sel ∧
    (c.putServe p s).latch = c.latch ∧ (c.putServe p s).events = c.events ∧ (c.putServe p s).cmds = c.cmds ∧
    (c.putServe p s).sqs = c.sqs ∧ (c.putServe p s).cqs = c.cqs ∧ (c.putServe p s).fns = c.fns ∧
    (c.putServe p s).pcie = c.pcie ∧ (c.putServe p s).primary = c.primary ∧ (c.putServe p s).fatal = c.fatal ∧
    (c.putServe p s).tables = c.tables ∧ (c.putServe p s).parts = c.parts ∧ (c.putServe p s).regAt = c.regAt ∧
    (c.putServe p s).pairs = c.pairs ∧ (c.putServe p s).keeps = c.keeps ∧ (c.putServe p s).vtime = c.vtime ∧ (c.putServe p s).readied = c.readied ∧
    (c.putServe p s).selftest = c.selftest ∧ (c.putServe p s).sorrel = c.sorrel ∧ (c.putServe p s).trace = c.trace ∧
    (c.putServe p s).traceHead = c.traceHead ∧ (c.putServe p s).traced = c.traced ∧ (c.putServe p s).tiers = c.tiers ∧ (c.putServe p s).bridge = c.bridge ∧
    (c.putServe p s).gates = c.gates ∧ (c.putServe p s).links = c.links ∧ (c.putServe p s).coll = c.coll ∧
    (c.putServe p s).power = c.power ∧ (c.putServe p s).sec = c.sec ∧ (c.putServe p s).pins = c.pins ∧
    (c.putServe p s).serve.buckets = c.serve.buckets ∧ (c.putServe p s).serve.refillAt = c.serve.refillAt := by
  repeat' constructor

@[simp] theorem Chip.putSpdm_fields (c : Chip) (t : Nat) (s : Spdm) :
    (c.putSpdm t s).time = c.time ∧ (c.putSpdm t s).free = c.free ∧ (c.putSpdm t s).nextCmd = c.nextCmd ∧
    (c.putSpdm t s).instant = c.instant ∧ (c.putSpdm t s).staged = c.staged ∧ (c.putSpdm t s).sentVecs = c.sentVecs ∧ (c.putSpdm t s).outbox = c.outbox ∧
    (c.putSpdm t s).headers = c.headers ∧ (c.putSpdm t s).regs = c.regs ∧ (c.putSpdm t s).sel = c.sel ∧
    (c.putSpdm t s).latch = c.latch ∧ (c.putSpdm t s).events = c.events ∧ (c.putSpdm t s).cmds = c.cmds ∧
    (c.putSpdm t s).sqs = c.sqs ∧ (c.putSpdm t s).cqs = c.cqs ∧ (c.putSpdm t s).fns = c.fns ∧ (c.putSpdm t s).pcie = c.pcie ∧
    (c.putSpdm t s).primary = c.primary ∧ (c.putSpdm t s).fatal = c.fatal ∧ (c.putSpdm t s).tables = c.tables ∧
    (c.putSpdm t s).parts = c.parts ∧ (c.putSpdm t s).regAt = c.regAt ∧ (c.putSpdm t s).pairs = c.pairs ∧
    (c.putSpdm t s).keeps = c.keeps ∧ (c.putSpdm t s).vtime = c.vtime ∧ (c.putSpdm t s).readied = c.readied ∧ (c.putSpdm t s).selftest = c.selftest ∧
    (c.putSpdm t s).sorrel = c.sorrel ∧ (c.putSpdm t s).trace = c.trace ∧ (c.putSpdm t s).traceHead = c.traceHead ∧ (c.putSpdm t s).traced = c.traced ∧
    (c.putSpdm t s).tiers = c.tiers ∧ (c.putSpdm t s).bridge = c.bridge ∧ (c.putSpdm t s).gates = c.gates ∧
    (c.putSpdm t s).links = c.links ∧ (c.putSpdm t s).coll = c.coll ∧ (c.putSpdm t s).serve = c.serve ∧
    (c.putSpdm t s).power = c.power ∧ (c.putSpdm t s).pins = c.pins ∧ (c.putSpdm t s).sec.svn = c.sec.svn ∧
    (c.putSpdm t s).sec.key = c.sec.key ∧ (c.putSpdm t s).sec.cause = c.sec.cause ∧
    (c.putSpdm t s).sec.recovery = c.sec.recovery ∧ (c.putSpdm t s).sec.verified = c.sec.verified ∧
    (c.putSpdm t s).sec.bodyDigest = c.sec.bodyDigest ∧ (c.putSpdm t s).sec.dbgLevel = c.sec.dbgLevel ∧
    (c.putSpdm t s).sec.dbgHolder = c.sec.dbgHolder ∧ (c.putSpdm t s).sec.dbgPart = c.sec.dbgPart ∧
    (c.putSpdm t s).sec.partValid = c.sec.partValid ∧ (c.putSpdm t s).sec.ever = c.sec.ever ∧
    (c.putSpdm t s).sec.endCause = c.sec.endCause ∧ (c.putSpdm t s).sec.nonce = c.sec.nonce ∧
    (c.putSpdm t s).sec.op = c.sec.op ∧ (c.putSpdm t s).sec.result = c.sec.result ∧ (c.putSpdm t s).sec.done = c.sec.done ∧
    (c.putSpdm t s).sec.percent = c.sec.percent ∧ (c.putSpdm t s).sec.image = c.sec.image ∧
    (c.putSpdm t s).sec.unwrapped = c.sec.unwrapped ∧ (c.putSpdm t s).sec.blocked = c.sec.blocked ∧
    (c.putSpdm t s).sec.d3Entries = c.sec.d3Entries ∧ (c.putSpdm t s).sec.zeroising = c.sec.zeroising ∧
    (c.putSpdm t s).sec.zeroAt = c.sec.zeroAt ∧ (c.putSpdm t s).sec.force = c.sec.force ∧ (c.putSpdm t s).sec.eid = c.sec.eid ∧
    (c.putSpdm t s).sec.jtagIr = c.sec.jtagIr ∧ (c.putSpdm t s).sec.jtagRefused = c.sec.jtagRefused := by
  repeat' constructor

@[simp] theorem Chip.stage_fields (c : Chip) (st : Store) :
    (c.stage st).time = c.time ∧ (c.stage st).free = c.free ∧ (c.stage st).nextCmd = c.nextCmd ∧
    (c.stage st).instant = c.instant ∧ (c.stage st).outbox = c.outbox ∧ (c.stage st).headers = c.headers ∧
    (c.stage st).regs = c.regs ∧ (c.stage st).sel = c.sel ∧ (c.stage st).latch = c.latch ∧ (c.stage st).events = c.events ∧
    (c.stage st).cmds = c.cmds ∧ (c.stage st).sqs = c.sqs ∧ (c.stage st).cqs = c.cqs ∧ (c.stage st).fns = c.fns ∧
    (c.stage st).pcie = c.pcie ∧ (c.stage st).primary = c.primary ∧ (c.stage st).fatal = c.fatal ∧
    (c.stage st).tables = c.tables ∧ (c.stage st).parts = c.parts ∧ (c.stage st).regAt = c.regAt ∧
    (c.stage st).pairs = c.pairs ∧ (c.stage st).keeps = c.keeps ∧ (c.stage st).vtime = c.vtime ∧ (c.stage st).readied = c.readied ∧
    (c.stage st).selftest = c.selftest ∧ (c.stage st).sorrel = c.sorrel ∧ (c.stage st).trace = c.trace ∧
    (c.stage st).traceHead = c.traceHead ∧ (c.stage st).traced = c.traced ∧ (c.stage st).tiers = c.tiers ∧ (c.stage st).bridge = c.bridge ∧
    (c.stage st).gates = c.gates ∧ (c.stage st).links = c.links ∧ (c.stage st).coll = c.coll ∧ (c.stage st).serve = c.serve ∧
    (c.stage st).power = c.power ∧ (c.stage st).sec = c.sec ∧ (c.stage st).pins = c.pins := by
  repeat' constructor

@[simp] theorem Chip.send_fields (c : Chip) (o : Out) :
    (c.send o).time = c.time ∧ (c.send o).free = c.free ∧ (c.send o).nextCmd = c.nextCmd ∧ (c.send o).instant = c.instant ∧
    (c.send o).staged = c.staged ∧ (c.send o).sentVecs = c.sentVecs ∧ (c.send o).headers = c.headers ∧ (c.send o).regs = c.regs ∧ (c.send o).sel = c.sel ∧
    (c.send o).latch = c.latch ∧ (c.send o).events = c.events ∧ (c.send o).cmds = c.cmds ∧ (c.send o).sqs = c.sqs ∧
    (c.send o).cqs = c.cqs ∧ (c.send o).fns = c.fns ∧ (c.send o).pcie = c.pcie ∧ (c.send o).primary = c.primary ∧
    (c.send o).fatal = c.fatal ∧ (c.send o).tables = c.tables ∧ (c.send o).parts = c.parts ∧ (c.send o).regAt = c.regAt ∧
    (c.send o).pairs = c.pairs ∧ (c.send o).keeps = c.keeps ∧ (c.send o).vtime = c.vtime ∧ (c.send o).readied = c.readied ∧ (c.send o).selftest = c.selftest ∧
    (c.send o).sorrel = c.sorrel ∧ (c.send o).trace = c.trace ∧ (c.send o).traceHead = c.traceHead ∧ (c.send o).traced = c.traced ∧
    (c.send o).tiers = c.tiers ∧ (c.send o).bridge = c.bridge ∧ (c.send o).gates = c.gates ∧ (c.send o).links = c.links ∧
    (c.send o).coll = c.coll ∧ (c.send o).serve = c.serve ∧ (c.send o).power = c.power ∧ (c.send o).sec = c.sec ∧
    (c.send o).pins = c.pins := by
  repeat' constructor

@[simp] theorem Chip.tick_fields (c : Chip) :
    (c.tick).time = c.time ∧ (c.tick).free = c.free ∧ (c.tick).nextCmd = c.nextCmd ∧ (c.tick).staged = c.staged ∧ (c.tick).sentVecs = c.sentVecs ∧
    (c.tick).outbox = c.outbox ∧ (c.tick).headers = c.headers ∧ (c.tick).regs = c.regs ∧ (c.tick).sel = c.sel ∧
    (c.tick).latch = c.latch ∧ (c.tick).events = c.events ∧ (c.tick).cmds = c.cmds ∧ (c.tick).sqs = c.sqs ∧
    (c.tick).cqs = c.cqs ∧ (c.tick).fns = c.fns ∧ (c.tick).pcie = c.pcie ∧ (c.tick).primary = c.primary ∧
    (c.tick).fatal = c.fatal ∧ (c.tick).tables = c.tables ∧ (c.tick).parts = c.parts ∧ (c.tick).regAt = c.regAt ∧
    (c.tick).pairs = c.pairs ∧ (c.tick).keeps = c.keeps ∧ (c.tick).vtime = c.vtime ∧ (c.tick).readied = c.readied ∧ (c.tick).selftest = c.selftest ∧
    (c.tick).sorrel = c.sorrel ∧ (c.tick).trace = c.trace ∧ (c.tick).traceHead = c.traceHead ∧ (c.tick).traced = c.traced ∧ (c.tick).tiers = c.tiers ∧
    (c.tick).bridge = c.bridge ∧ (c.tick).gates = c.gates ∧ (c.tick).links = c.links ∧ (c.tick).coll = c.coll ∧
    (c.tick).serve = c.serve ∧ (c.tick).power = c.power ∧ (c.tick).sec = c.sec ∧ (c.tick).pins = c.pins := by
  repeat' constructor

@[simp] theorem Chip.draw_fields (c : Chip) (n : Nat) :
    (c.draw n).time = c.time ∧ (c.draw n).nextCmd = c.nextCmd ∧ (c.draw n).instant = c.instant ∧ (c.draw n).staged = c.staged ∧ (c.draw n).sentVecs = c.sentVecs ∧
    (c.draw n).outbox = c.outbox ∧ (c.draw n).headers = c.headers ∧ (c.draw n).regs = c.regs ∧ (c.draw n).sel = c.sel ∧
    (c.draw n).latch = c.latch ∧ (c.draw n).events = c.events ∧ (c.draw n).cmds = c.cmds ∧ (c.draw n).sqs = c.sqs ∧
    (c.draw n).cqs = c.cqs ∧ (c.draw n).fns = c.fns ∧ (c.draw n).pcie = c.pcie ∧ (c.draw n).primary = c.primary ∧
    (c.draw n).fatal = c.fatal ∧ (c.draw n).tables = c.tables ∧ (c.draw n).parts = c.parts ∧ (c.draw n).regAt = c.regAt ∧
    (c.draw n).pairs = c.pairs ∧ (c.draw n).keeps = c.keeps ∧ (c.draw n).vtime = c.vtime ∧ (c.draw n).readied = c.readied ∧ (c.draw n).selftest = c.selftest ∧
    (c.draw n).sorrel = c.sorrel ∧ (c.draw n).trace = c.trace ∧ (c.draw n).traceHead = c.traceHead ∧ (c.draw n).traced = c.traced ∧
    (c.draw n).tiers = c.tiers ∧ (c.draw n).bridge = c.bridge ∧ (c.draw n).gates = c.gates ∧ (c.draw n).links = c.links ∧
    (c.draw n).coll = c.coll ∧ (c.draw n).serve = c.serve ∧ (c.draw n).power = c.power ∧ (c.draw n).sec = c.sec ∧
    (c.draw n).pins = c.pins := by
  repeat' constructor

/-! ### Tables as they read -/

@[simp] theorem Chip.hdr_putHdr (c : Chip) (f g : Nat) (h : Header) : (c.putHdr f h).hdr g = if f = g then h else c.hdr g := by
  simp only [Chip.hdr, Chip.putHdr, tabGet_tabSet]

@[simp] theorem Chip.fnRegs_putFn (c : Chip) (f g : Nat) (r : FnRegs) : (c.putFn f r).fnRegs g = if f = g then r else c.fnRegs g := by
  simp only [Chip.fnRegs, Chip.putFn, tabGet_tabSet]

@[simp] theorem Chip.port_putPort (c : Chip) (f g : Nat) (p : PciePort) : (c.putPort f p).port g = if f = g then p else c.port g := by
  simp only [Chip.port, Chip.putPort, tabGet_tabSet]

@[simp] theorem Chip.domain_putDomain (c : Chip) (d g : Nat) (v : Domain) : (c.putDomain d v).domain g = if d = g then v else c.domain g := by
  simp only [Chip.domain, Chip.putDomain, tabGet_tabSet]

@[simp] theorem Chip.tier_putTier (c : Chip) (u g : Nat) (t : Tier) : (c.putTier u t).tier g = if u = g then t else c.tier g := by
  simp only [Chip.tier, Chip.putTier, tabGet_tabSet]

@[simp] theorem Chip.window_putWindow (c : Chip) (i g : Nat) (w : Window) : (c.putWindow i w).window g = if i = g then w else c.window g := by
  simp only [Chip.window, Chip.putWindow, tabGet_tabSet]

@[simp] theorem Chip.sq_putSq (c : Chip) (k g : Nat) (q : SQ) : (c.putSq k q).sq g = if k = g then q else c.sq g := by
  simp only [Chip.sq, Chip.putSq, tabGet_tabSet]

@[simp] theorem Chip.cq_putCq (c : Chip) (k g : Nat) (q : CQ) : (c.putCq k q).cq g = if k = g then q else c.cq g := by
  simp only [Chip.cq, Chip.putCq, tabGet_tabSet]

@[simp] theorem Chip.event_putEvent (c : Chip) (i g : Nat) (e : Event) : (c.putEvent i e).event g = if i = g then e else c.event g := by
  simp only [Chip.event, Chip.putEvent, tabGet_tabSet]

@[simp] theorem Chip.gate_putGate (c : Chip) (p g : Nat) (v : Gate) : (c.putGate p v).gate g = if p = g then v else c.gate g := by
  simp only [Chip.gate, Chip.putGate, tabGet_tabSet]

@[simp] theorem Chip.pairRes_putPair (c : Chip) (q g : Nat) (r : PairRes) : (c.putPair q r).pairRes g = if q = g then r else c.pairRes g := by
  simp only [Chip.pairRes, Chip.putPair, tabGet_tabSet]

@[simp] theorem Chip.link_putLink (c : Chip) (n g : Nat) (p : LinkPort) : (c.putLink n p).link g = if n = g then p else c.link g := by
  simp only [Chip.link, Chip.putLink, tabGet_tabSet]

@[simp] theorem Chip.spdmOf_putSpdm (c : Chip) (t g : Nat) (s : Spdm) : (c.putSpdm t s).spdmOf g = if t = g then s else c.spdmOf g := by
  simp only [Chip.spdmOf, Chip.putSpdm, tabGet_tabSet]

end Sys2Proof.Machine
end

