-- ==== Sys2Proof/Laws/Notice.lean ====
section
/-! SUPPORT. Everything the reporting operations can do: they change counters, SAT bits, IRQ_RAW, pending vectors, the trace
and what was sent, and nothing else. -/

namespace Sys2Proof.Machine

theorem Chip.reports_refl (c : Chip) : Chip.reports c c := ⟨rfl, fun _ => rfl, fun _ => rfl⟩

theorem Chip.reports_trans {a b c : Chip} (h : Chip.reports a b) (k : Chip.reports b c) : Chip.reports a c :=
  ⟨k.1.trans h.1, fun f => (k.2.1 f).trans (h.2.1 f), fun f => (k.2.2 f).trans (h.2.2 f)⟩

theorem Chip.reports_putHdr (c : Chip) (f : Nat) (h : Header) (k : h.kept = (c.hdr f).kept) : Chip.reports c (c.putHdr f h) := by
  refine ⟨rfl, fun g => ?_, fun _ => rfl⟩
  rw [Chip.hdr_putHdr]; split_ifs with e
  · rw [k, e]
  · rfl

theorem Chip.reports_putFn (c : Chip) (f : Nat) (r : FnRegs) (k : r.kept = (c.fnRegs f).kept) : Chip.reports c (c.putFn f r) := by
  refine ⟨rfl, fun _ => rfl, fun g => ?_⟩
  rw [Chip.fnRegs_putFn]; split_ifs with e
  · rw [k, e]
  · rfl

theorem Chip.reports_send (c : Chip) (o : Out) : Chip.reports c (c.send o) := ⟨rfl, fun _ => rfl, fun _ => rfl⟩

theorem Chip.reports_trace (c : Chip) (f s i : Nat) : Chip.reports c (c.traceAppend f s i) := ⟨rfl, fun _ => rfl, fun _ => rfl⟩

theorem reports_foldl {α : Type} (g : Chip → α → Chip) (hg : ∀ c a, Chip.reports c (g c a)) (l : List α) (c : Chip) :
    Chip.reports c (l.foldl g c) := by
  induction l generalizing c with
  | nil => exact Chip.reports_refl c
  | cons a l ih => exact Chip.reports_trans (hg c a) (ih _)

/-- A notice only reports (R30, R351, R413, R416). -/
theorem notice_reports (fuel : Nat) (e : Notice) (c : Chip) : Chip.reports c (notice fuel e c) := by
  induction fuel generalizing e c with
  | zero => exact Chip.reports_refl c
  | succ n ih =>
    cases e with
    | count f k m =>
      simp only [notice]
      split_ifs
      · exact Chip.reports_putHdr _ _ _ rfl
      · exact Chip.reports_putHdr _ _ _ rfl
      · refine Chip.reports_trans ?_ (ih _ _)
        exact Chip.reports_putHdr _ _ _ rfl
    | fire f k =>
      simp only [notice]
      have h1 (i : Nat) := Chip.reports_trans (Chip.reports_putHdr c f { c.hdr f with irqRaw := (c.hdr f).irqRaw ||| (1#32 <<< k) } rfl)
        (Chip.reports_trace _ f k i)
      split_ifs <;> first | exact Chip.reports_trans (h1 _) (ih _ _) | exact h1 _
    | rise f =>
      simp only [notice]
      split
      · exact Chip.reports_refl c
      · refine reports_foldl _ (fun c a => ?_) _ c
        split_ifs
        · exact ih _ _
        · exact Chip.reports_refl c
    | vector fn v =>
      simp only [notice]
      split_ifs <;> first
        | exact Chip.reports_refl c
        | exact Chip.reports_putFn _ _ _ rfl
        | exact Chip.reports_trans (Chip.reports_send c _) (ih _ _)
        | exact ih _ _

end Sys2Proof.Machine
end

