-- ==== Sys2Proof/Laws/Steps.lean ====
section
/-! SUPPORT. What the shared operations of a step do: the two shapes of a meaning, the running of a command, reporting, staging of
writes, reads of good lines, and the end of a mailbox operation. -/

namespace Sys2Proof.Machine

/-! ### The shape of a meaning -/

theorem nextWith_next (t : State) (p : State → Prop) : nextWith (.next t) p ↔ p t := by
  constructor
  · rintro ⟨u, h, hp⟩; cases h; exact hp
  · exact fun h => ⟨t, rfl, h⟩

/-- A meaning of the chip answers a next state: fuses and queue stand, the staged writes are stored once they have met the injections. -/
theorem onStep_next (part : Chip → Option Nat) (f : Ctx → Chip → Chip) (s : State) (p : State → Prop) :
    nextWith (onStep part f s) p ↔ p
      { chip := ((f s.ctx s.chip.between).eccStored s.ctx (part s.chip)).between
        mem := s.mem.commit ((f s.ctx s.chip.between).eccStored s.ctx (part s.chip)).staged, fuse := s.fuse, pending := s.pending } :=
  nextWith_next _ p

/-- With no ECC injection armed nothing meets one (R417). -/
theorem eccStored_off {c : Chip} {x : Ctx} {p : Option Nat} (h : x.ecc = []) : c.eccStored x p = c := by simp [Chip.eccStored, h]

theorem onRead_off {c : Chip} {x : Ctx} {p : Option Nat} {ls : List Nat} (h : x.ecc = []) : c.onRead x p ls = (c, x) := by
  simp [Chip.onRead, h]

/-- A step that stages nothing meets none either. -/
theorem eccStored_idle {c : Chip} {x : Ctx} {p : Option Nat} (h : c.staged = []) : c.eccStored x p = c := by
  simp [Chip.eccStored, h]

/-- A default header has no perturbation armed, so where none of the listed ones has, no page has. -/
theorem Chip.unarmed_hdr {c : Chip} (h : c.unarmed) (f : Nat) : (c.hdr f).pert.ctrl.getLsbD 31 = false := by
  have reset : (Header.reset f).pert.ctrl.getLsbD 31 = false := by unfold Header.reset; split <;> simp
  unfold Chip.unarmed at h
  unfold Chip.hdr
  revert h
  induction c.headers with
  | nil => intro _; exact reset
  | cons e t ih =>
    obtain ⟨k, v⟩ := e
    intro h
    simp only [tabGet]
    split_ifs
    · exact h (k, v) (by simp)
    · exact ih (fun g hg => h g (List.mem_cons_of_mem _ hg))

theorem Chip.unarmed_ecc {c : Chip} (h : c.unarmed) : c.eccFrames = [] := by
  unfold Chip.eccFrames
  rw [List.map_eq_nil_iff, List.filter_eq_nil_iff]
  intro e he hc
  rw [h e he] at hc
  exact absurd hc (by simp)

theorem State.calm_ecc {s : State} (h : s.calm) : s.ctx.ecc = [] := Chip.unarmed_ecc h.2

/-- With no ECC injection armed, the staged writes are stored as they are. -/
theorem onStep_calm (part : Chip → Option Nat) (f : Ctx → Chip → Chip) (s : State) (p : State → Prop) (h : s.ctx.ecc = []) :
    nextWith (onStep part f s) p ↔ p
      { chip := (f s.ctx s.chip.between).between
        mem := s.mem.commit (f s.ctx s.chip.between).staged, fuse := s.fuse, pending := s.pending } := by
  rw [onStep_next, eccStored_off h]

theorem onChip_next (f : Ctx → Chip → Chip) (s : State) (p : State → Prop) (h : s.ctx.ecc = []) :
    nextWith (onChip f s) p ↔ p
      { chip := (f s.ctx s.chip.between).between
        mem := s.mem.commit (f s.ctx s.chip.between).staged, fuse := s.fuse, pending := s.pending } :=
  onStep_calm _ f s p h

/-- A meaning that stages nothing leaves memory as it was, whatever is armed. -/
theorem onChip_idle (f : Ctx → Chip → Chip) (s : State) (p : State → Prop) (h : (f s.ctx s.chip.between).staged = []) :
    nextWith (onChip f s) p ↔ p { chip := (f s.ctx s.chip.between).between, mem := s.mem, fuse := s.fuse, pending := s.pending } := by
  show nextWith (onStep _ f s) p ↔ _
  rw [onStep_next, eccStored_idle h, h, Memory.commit_nil]

/-- A meaning that may program fuses answers a next state too. -/
theorem onFuse_next (f : Ctx → Chip → Chip × Fuses) (s : State) (p : State → Prop) :
    nextWith (onFuse f s) p ↔ p
      { chip := (f s.ctx s.chip.between).1.between
        mem := s.mem.commit (f s.ctx s.chip.between).1.staged
        fuse := s.fuse.blow (f s.ctx s.chip.between).2, pending := s.pending } :=
  nextWith_next _ p

/-- A sound state has nothing staged, so a meaning starts from its chip as it is. -/
theorem State.sound_staged {s : State} (h : s.sound) : s.chip.between = s.chip := h.2.1

theorem Chip.between_iff (c : Chip) : c.between = c ↔ c.staged = [] ∧ c.sentVecs = [] ∧ c.traced = 0 := by
  cases c; simp [Chip.between, eq_comm]

@[simp] theorem Chip.between_between (c : Chip) : c.between.between = c.between := rfl

theorem Fuses.blow_self (f : Fuses) : f.blow f = f := by
  have h : List.zipWith (fun a b => a || b) f.ownerRevoked f.ownerRevoked = f.ownerRevoked := by
    induction f.ownerRevoked <;> simp_all
  simp [Fuses.blow]

/-- A body runs for the running command of its opcode. -/
theorem runOp_runs {c : Chip} {id op : Nat} {k : Cmd} (body : Chip → Cmd → Chip) (h : c.runs id op k) : runOp id op body c = body c k := by
  obtain ⟨h1, h2, h3⟩ := h
  simp [runOp, h1, h2, h3]

/-- Without such a command it changes nothing. -/
theorem runOp_idle {c : Chip} {id op : Nat} (body : Chip → Cmd → Chip) (h : ∀ k, ¬ c.runs id op k) : runOp id op body c = c := by
  unfold runOp
  split
  · rfl
  · rename_i k hk
    rw [if_neg]
    intro hb
    simp only [Bool.and_eq_true, decide_eq_true_eq] at hb
    exact h k ⟨hk, hb.1, hb.2⟩

/-! ### Reporting -/

/-- Reporting leaves every field that is not a report. -/
theorem Chip.reports_fields {c d : Chip} (h : Chip.reports c d) :
    d.time = c.time ∧ d.free = c.free ∧ d.nextCmd = c.nextCmd ∧ d.instant = c.instant ∧ d.regs = c.regs ∧ d.sel = c.sel ∧
      d.latch = c.latch ∧ d.events = c.events ∧ d.cmds = c.cmds ∧ d.sqs = c.sqs ∧ d.cqs = c.cqs ∧ d.pcie = c.pcie ∧
      d.primary = c.primary ∧ d.fatal = c.fatal ∧ d.tables = c.tables ∧ d.parts = c.parts ∧ d.pairs = c.pairs ∧ d.keeps = c.keeps ∧
      d.vtime = c.vtime ∧ d.readied = c.readied ∧ d.tiers = c.tiers ∧ d.bridge = c.bridge ∧ d.gates = c.gates ∧ d.links = c.links ∧ d.coll = c.coll ∧
      d.serve = c.serve ∧ d.power = c.power ∧ d.sec = c.sec ∧ d.pins = c.pins ∧ d.selftest = c.selftest ∧ d.sorrel = c.sorrel := by
  have h1 := h.1
  cases c; cases d
  simp only [Chip.quiet, Chip.mk.injEq] at h1
  simp only
  tauto

theorem count_reports (c : Chip) (f n k : Nat) : Chip.reports c (c.count f n k) := notice_reports _ _ _

theorem fire_reports (c : Chip) (f src : Nat) : Chip.reports c (c.fire f src) := notice_reports _ _ _

theorem vector_reports (c : Chip) (fn v : Nat) : Chip.reports c (c.vector fn v) := notice_reports _ _ _

theorem foldl_staged {α : Type} (g : Chip → α → Chip) (hg : ∀ c a, (g c a).staged = c.staged) (l : List α) (c : Chip) :
    (l.foldl g c).staged = c.staged := by
  induction l generalizing c with
  | nil => rfl
  | cons a l ih => rw [List.foldl_cons, ih, hg]

theorem logs_putHdr (c : Chip) (f : Nat) (h : Header) (k : { h.kept with elog := {} } = { (c.hdr f).kept with elog := {} }) :
    Chip.logs c (c.putHdr f h) := by
  refine ⟨rfl, fun g => ?_, fun _ => rfl⟩
  rw [Chip.hdr_putHdr]; split_ifs with e
  · rw [k, e]
  · rfl

theorem logs_reports {a b c : Chip} (h : Chip.logs a b) (k : Chip.reports b c) : Chip.logs a c :=
  ⟨k.1.trans h.1, fun f => by rw [k.2.1 f]; exact h.2.1 f, fun f => (k.2.2 f).trans (h.2.2 f)⟩

/-- Logging an error only logs and reports (R410, R411). -/
theorem log_logs (c : Chip) (f : Nat) (r : LogReq) : Chip.logs c (c.log f r) := by
  unfold Chip.log
  dsimp only
  split_ifs
  · exact logs_reports (logs_putHdr c f _ (by rfl)) (fire_reports _ _ _)
  · exact logs_putHdr c f _ (by rfl)

/-- A report is staged by no one: what a notice leaves staged is what was staged. -/
theorem notice_staged (fuel : Nat) (e : Notice) (c : Chip) : (notice fuel e c).staged = c.staged := by
  induction fuel generalizing e c with
  | zero => rfl
  | succ n ih =>
    cases e with
    | count f k m => simp only [notice]; split_ifs <;> simp [ih]
    | fire f k => simp only [notice]; split_ifs <;> simp [ih, Chip.traceAppend]
    | rise f =>
      simp only [notice]
      split
      · rfl
      · refine foldl_staged _ (fun c a => ?_) _ c
        split_ifs
        · exact ih _ _
        · rfl
    | vector fn v => simp only [notice]; split_ifs <;> simp [ih]

theorem count_staged (c : Chip) (f n k : Nat) : (c.count f n k).staged = c.staged := notice_staged _ _ _

theorem fire_staged (c : Chip) (f src : Nat) : (c.fire f src).staged = c.staged := notice_staged _ _ _

/-- The end of a mailbox operation (R402): BUSY clears, DONE and RESULT are written; reports aside, nothing else changes. -/
theorem mboxEnd_reports (c : Chip) (result : Nat) :
    Chip.reports { c with sec.op := 0, sec.done := true, sec.result := result, sec.image := none } (c.mboxEnd result) := fire_reports _ _ _

theorem mboxEnd_staged (c : Chip) (result : Nat) : (c.mboxEnd result).staged = c.staged := fire_staged _ _ _

/-- A submission that its requester may make runs its operation (R402). -/
theorem submit_free {s : State} {r : Requester} (jtagToo : Bool) (f : Chip → Chip × Fuses) (h : s.mailboxFree r)
    (hj : r ≠ .jtag ∨ jtagToo = true) : Chip.submit s.ctx s.chip r jtagToo f = f s.chip := by
  obtain ⟨h1, h2, h3⟩ := h
  have h1' : Chip.mboxReach s.chip s.ctx.fuse r = true := h1
  rcases hj with hj | hj <;> simp [Chip.submit, h1', h2, h3, hj]

/-! ### The list of fetched commands -/

theorem Chip.cmd?_id {c : Chip} {id : Nat} {k : Cmd} (h : c.cmd? id = some k) : k.id = id := by
  have := List.find?_some h
  simpa using this

/-- A command of the list replaced: it is found with its new contents. -/
theorem Chip.cmd?_putCmd {c : Chip} {id : Nat} {k j : Cmd} (h : c.cmd? id = some k) (hj : j.id = id) : (c.putCmd j).cmd? id = some j := by
  unfold Chip.cmd? Chip.putCmd at *
  subst hj
  induction hl : c.cmds generalizing c with
  | nil => simp [hl] at h
  | cons a l ih =>
    rw [hl] at h
    by_cases ha : a.id = j.id
    · simp [ha]
    · simp only [List.find?_cons, ha, decide_false, List.map_cons, if_false] at h ⊢
      exact ih (c := { c with cmds := l }) h rfl

/-- The other commands stand. -/
theorem Chip.putCmd_others (c : Chip) (k : Cmd) :
    (c.putCmd k).cmds.filter (fun j => j.id ≠ k.id) = c.cmds.filter (fun j => j.id ≠ k.id) := by
  unfold Chip.putCmd
  simp only
  induction c.cmds with
  | nil => rfl
  | cons a l ih =>
    rw [List.map_cons]
    by_cases ha : a.id = k.id
    · simpa [ha] using ih
    · simp only [ha, if_false, List.filter_cons, ne_eq, not_false_eq_true, decide_true, if_true]
      rw [ih]

/-- A command's outcome is settled by `endCmd` (R39). -/
theorem endCmd_settles {c : Chip} {id : Nat} {k : Cmd} (h : c.cmd? id = some k) (j : Cmd) (hj : j.id = id) (status detail : Nat) :
    c.settles (c.endCmd j status detail) id status detail := by
  subst hj
  refine ⟨⟨_, Chip.cmd?_putCmd h rfl, rfl, rfl, rfl⟩, ?_, rfl, rfl, rfl, rfl⟩
  exact Chip.putCmd_others c { j with phase := .ended, status := status, detail := detail }

/-! ### Staged writes -/

/-- A write drops residency entries of what it covers and stages bytes: nothing else of the chip changes. -/
theorem Chip.wr_chip (c : Chip) (x : Ctx) (a : Nat) (d : List Byte) :
    { c.wr x a d with staged := [] } = { c.dropResid a d.length with staged := [] } := by
  unfold Chip.wr
  generalize c.dropResid a d.length = e
  generalize pieces (d.length / 4096 + 2) a d.length = l
  have H : ∀ (l : List (Nat × Nat)) (g : Nat × Nat → Chip → Store) (e : Chip),
      ({ l.foldl (fun c pc => c.stage (g pc c)) e with staged := [] } : Chip) = { e with staged := [] } := by
    intro l g
    induction l with
    | nil => intro e; rfl
    | cons p l ih => intro e; rw [List.foldl_cons, ih]; rfl
  exact H l (fun pc c => .bytes (c.key x.fuse pc.1) ((d.drop (pc.1 - a)).take pc.2)) e

/-- Residency entries only: the rest of the chip stands. -/
theorem Chip.dropResid_chip (c : Chip) (a n : Nat) : ∃ r, c.dropResid a n = { c with tiers.resid := r } := by
  unfold Chip.dropResid
  split
  · dsimp only
    split_ifs
    · exact ⟨_, rfl⟩
    · exact ⟨c.tiers.resid, rfl⟩
  · exact ⟨c.tiers.resid, rfl⟩

/-! ### Reads of good lines -/

/-- An access of a line changes its tier's open row, and reports; nothing else (R151, R163). -/
theorem tierLine_reports (c : Chip) (a : Nat) (write : Bool) : ∃ u, Chip.reports { c with tiers.units := u } (c.tierLine a write) := by
  unfold Chip.tierLine
  split
  · exact ⟨_, Chip.reports_trans (count_reports _ _ _ _) (count_reports _ _ _ _)⟩
  · exact ⟨c.tiers.units, Chip.reports_refl c⟩

/-- Reports over a chip whose tiers are set are reports of the chip with its tiers set. -/
theorem Chip.reports_units {c d : Chip} (h : Chip.reports c d) (u : Tab Tier) :
    Chip.reports { c with tiers.units := u } { d with tiers.units := u } := by
  refine ⟨?_, h.2.1, h.2.2⟩
  have h1 := h.1
  cases c; cases d
  simp only [Chip.quiet, Chip.mk.injEq] at h1 ⊢
  simp_all

/-- So do accesses of many lines. -/
theorem tierLines_reports (write : Bool) (as : List Nat) (c : Chip) :
    ∃ u, Chip.reports { c with tiers.units := u } (as.foldl (fun c a => c.tierLine a write) c) := by
  induction as generalizing c with
  | nil => exact ⟨c.tiers.units, Chip.reports_refl c⟩
  | cons a as ih =>
    obtain ⟨u, hu⟩ := tierLine_reports c a write
    obtain ⟨v, hv⟩ := ih (c.tierLine a write)
    exact ⟨v, Chip.reports_trans (Chip.reports_units hu v) hv⟩

/-- The line accesses of a read. -/
def Chip.tierReads (c : Chip) (runs : List (Nat × Nat)) : Chip :=
  ((runs.flatMap (fun r => linesOf r.1 r.2)).eraseDups).foldl (fun c a => c.tierLine a false) c

/-- Lines without an error are read without any trace but their access. -/
theorem readLines_good (x : Ctx) (w : Consumer) (as : List Nat) (c : Chip) (h : x.mem.lines = []) (he : x.ecc = []) :
    Chip.readLines x w as c = (as.foldl (fun c a => c.tierLine a false) c, none) := by
  induction as generalizing c with
  | nil => rfl
  | cons a as ih =>
    have hg : (c.tierLine a false).lineHealth x a = .good := by simp [Chip.lineHealth, Memory.health, h, tabGet]
    simp [Chip.readLines, onRead_off he, hg, ih]

theorem readRuns_good (x : Ctx) (w : Consumer) (runs : List (Nat × Nat)) (c : Chip) (h : x.mem.lines = []) (he : x.ecc = []) :
    Chip.readRuns x w runs c = (c.tierReads runs, none) := readLines_good x w _ c h he

theorem afterReads_good (x : Ctx) (env : Env) (k : Cmd) (runs : List (Nat × Nat)) (c : Chip) (body : Chip → Chip) (h : x.mem.lines = []) (he : x.ecc = []) :
    Chip.afterReads x env k runs c body = body (c.tierReads runs) := by
  simp [Chip.afterReads, readRuns_good _ _ _ _ h he]

/-- Lines that are good need no cover: a write of them stages nothing more. -/
theorem coverRuns_good (x : Ctx) (runs : List (Nat × Nat)) (c : Chip) (h : x.mem.lines = []) : Chip.coverRuns x runs c = c := by
  unfold Chip.coverRuns
  generalize (List.flatMap _ _) = l
  induction l generalizing c with
  | nil => rfl
  | cons a l ih =>
    have : c.lineHealth x a = .good := by simp [Chip.lineHealth, Memory.health, h, tabGet]
    rw [List.foldl_cons, if_pos this, ih]

theorem afterIo_good (x : Ctx) (env : Env) (k : Cmd) (reads writes : List (Nat × Nat)) (c : Chip) (body : Chip → Chip) (h : x.mem.lines = []) (he : x.ecc = []) :
    Chip.afterIo x env k reads writes c body = body (c.tierReads (reads ++ partRuns writes)) := by
  simp [Chip.afterIo, afterReads_good _ _ _ _ _ _ h he, coverRuns_good _ _ _ h]

end Sys2Proof.Machine
end

