-- ==== Sys2Proof/WellFormed.lean ====
section
/-! DEFINITION. Well-formed commands: their operands name things the block has, and values fit the registers they go to.
The meanings are total all the same: a command that is not well formed does what its bounds leave. -/

namespace Sys2Proof

/-- A requester of the part (R32, R336): port 0 or 1, a virtual function from 1 to 31. -/
def Requester.ok : Requester → Bool
  | .mgmt => true
  | .pf p => p < 2
  | .vf p i => p < 2 && 1 ≤ i && i < 32
  | .jtag => true

/-- A finding about a physical unit that exists (R15, R404). -/
def Finding.ok : Finding → Bool
  | .columns ph _ cols => ph < 116 && cols.all (· < 128)
  | .broken ph => ph < 116

/-- A DIMM of a channel that exists (R155). -/
def Dimm.ok (d : Dimm) : Bool := d.channel < 12

/-- Lane masks of eight lanes (R223). -/
def LaneView.ok (v : LaneView) : Bool := v.signal < 256 && v.pmd < 256 && v.locked < 256

/-- Freeze beats that a command's record can hold (R41, R90). -/
def Env.ok (e : Env) : Bool := ((e.feed, e.drain) :: e.more).all (fun u => u.1 < 2 ^ 32 && u.2 < 2 ^ 32)

/-- A memory tier unit: stack s at s, channel c at 16 + c. -/
def tierOk (u : Nat) : Bool := u < 12 || (16 ≤ u && u < 28)

/-- An access width in bits (R26). -/
def widthOk (w : Nat) : Bool := w = 8 || w = 16 || w = 32 || w = 64

/-- A command is well formed. -/
def Instr.wf : Instr → Bool
  | .regWrite requester _ _ width value => requester.ok && widthOk width && value < 2 ^ width
  | .counterLoRead requester _ _ width => requester.ok && widthOk width
  | .softReset requester page => requester.ok && page.ok
  | .softResetDone page => page.ok
  | .ctrClr requester page => requester.ok && page.ok
  | .quiesce requester page _ => requester.ok && page.ok
  | .irqClr requester page mask => requester.ok && page.ok && mask < 2 ^ 32
  | .evtSignal requester value => requester.ok && value < 2 ^ 32
  | .evtReset requester value => requester.ok && value < 2 ^ 32
  | .winEnable requester _ => requester.ok
  | .segOwnerWrite requester engine _ value => requester.ok && engine < 12 && value < 2 ^ 32
  | .portEnable requester port _ => requester.ok && port < 24
  | .retrain requester port => requester.ok && port < 24
  | .deviceIdWrite requester value => requester.ok && value < 2 ^ 32
  | .elogClear requester page => requester.ok && page.ok
  | .selftestStart requester value => requester.ok && value < 2 ^ 32
  | .selftestDone findings => findings.all Finding.ok
  | .standbyRequest requester => requester.ok
  | .runRequest requester findings => requester.ok && findings.all Finding.ok
  | .offHotRequest requester => requester.ok
  | .devResetWrite requester value findings => requester.ok && value < 2 ^ 32 && findings.all Finding.ok
  | .wdtKick requester value => requester.ok && value < 2 ^ 32
  | .pertArm requester page _ value => requester.ok && page.ok && value < 2 ^ 32
  | .sqTailDoorbell fn queue value => fn < 64 && queue < 256 && value < 2 ^ 32
  | .cqHeadDoorbell fn queue value => fn < 64 && queue < 256 && value < 2 ^ 32
  | .sqEnable fn queue value => fn < 64 && queue < 256 && value < 2 ^ 32
  | .sqDisable fn queue value => fn < 64 && queue < 256 && value < 2 ^ 32
  | .cqEnable fn queue value => fn < 64 && queue < 256 && value < 2 ^ 32
  | .cqDisable fn queue value => fn < 64 && queue < 256 && value < 2 ^ 32
  | .msixUnmask fn vector => fn < 64 && vector < 2048
  | .bar4Read fn _ _ => fn < 64
  | .bar4Write fn _ _ => fn < 64
  | .descriptorFetch fn queue => fn < 64 && queue < 256
  | .descriptorReadDone fn queue _ => fn < 64 && queue < 256
  | .commandStart _ => true
  | .commandCommit _ _ => true
  | .pendingRecordWrite fn queue _ => fn < 64 && queue < 256
  | .cqCoalTimer fn queue => fn < 64 && queue < 256
  | .nop _ => true
  | .eventReset _ => true
  | .arrayMm _ env => env.ok
  | .arrayEw _ env => env.ok
  | .bwdFused _ env => env.ok
  | .mmGrad _ env => env.ok
  | .vecAct _ env => env.ok
  | .vecDact _ env => env.ok
  | .vecArgmax _ env => env.ok
  | .gradSumsq _ env => env.ok
  | .optUpdate _ env => env.ok
  | .gateCfg _ => true
  | .gateOpen _ => true
  | .gateSeal _ => true
  | .gateClose _ env => env.ok
  | .dmaMove _ env => env.ok
  | .gradbufZero _ => true
  | .residDrop _ => true
  | .ringOpen _ => true
  | .ringReset _ => true
  | .headTeacher _ env => env.ok
  | .teacherHoldRelease _ _ env => env.ok
  | .headPass1 _ env => env.ok
  | .headPass2 _ env => env.ok
  | .engMove _ env => env.ok
  | .engKvAppend _ env => env.ok
  | .engAttend _ env => env.ok
  | .serveCfg _ => true
  | .reqJoin _ => true
  | .reqLeave _ => true
  | .roundBegin _ env _ => env.ok
  | .roundCommit _ env => env.ok
  | .specEnable _ => true
  | .tokenVectorTimer part vector => part < 16 && vector < 65536
  | .collGroupSet _ => true
  | .collGroupFree _ => true
  | .collLaunch _ => true
  | .collLocalPhase _ env => env.ok
  | .collGather _ env => env.ok
  | .gatherTake _ env => env.ok
  | .tableLoad _ env => env.ok
  | .tableLoadShadowTake _ => true
  | .tableActivate _ => true
  | .partForm _ => true
  | .partSet _ => true
  | .partRegion _ => true
  | .partTeardown _ => true
  | .partReset _ => true
  | .partYield _ => true
  | .progBind _ => true
  | .grantEvaluate => true
  | .spillBegin part => part < 16
  | .spillDone part => part < 16
  | .preemptDeadlineExpire part => part < 16
  | .restoreDone part => part < 16
  | .commandWatchdogExpire _ => true
  | .regulatorRefill => true
  | .portStateEval port view => port < 24 && view.ok
  | .trainStateTimeout port view => port < 24 && view.ok
  | .flitReceive port _ _ _ _ => port < 24
  | .replayTimeout port => port < 24
  | .fecWindowCheck port => port < 24
  | .packetRoute inPort places => inPort.all (· < 24) && places.all (· < 2 ^ 16)
  | .write _ env => env.ok
  | .read _ env => env.ok
  | .atomic _ env => env.ok
  | .reduceAdd _ => true
  | .eventSignal _ => true
  | .response _ => true
  | .scalarRecord _ => true
  | .scalarResult _ => true
  | .txnTimeout tag => tag < 2 ^ 32
  | .sealTimeout part => part < 16
  | .foldWindowExpire part => part < 16
  | .resultTimeout part => part < 16
  | .refreshDue tier _ _ _ _ => tierOk tier
  | .rowIdleClose tier _ => tierOk tier
  | .patrolScrubRead tier _ => tierOk tier
  | .sramScrub _ _ => true
  | .hbmInitDone _ => true
  | .ddrInitDone _ => true
  | .deviceReset _ findings => findings.all Finding.ok
  | .bootVerify dimms _ => dimms.all Dimm.ok
  | .powerUp _ _ findings => findings.all Finding.ok
  | .powerDown => true
  | .lastMateBreak => true
  | .overcurrentTrip => true
  | .bulkUndervoltage => true
  | .inputFault => true
  | .inputFaultClear => true
  | .inputBelow44v => true
  | .inputBelow40v => true
  | .inputAbove62v => true
  | .inputMeasure _ _ _ => true
  | .paceGovernorTick => true
  | .sensorSample _ => true
  | .thermtrip sensor _ => sensor < 68
  | .paceMonitorUpdate _ => true
  | .energyMeterTick _ => true
  | .domainOffDelayExpire domain => domain ≤ 60
  | .domainSwitchOn domain => domain ≤ 60
  | .domainOnDone domain => domain ≤ 60
  | .domainRampTimeout domain => domain ≤ 60
  | .pllLockLoss pll => pll < 3
  | .pllRelock pll => pll < 3
  | .pciePortReset port _ => port < 2
  | .pcieLinkTrained port rate width _ _ => port < 2 && 1 ≤ rate && rate ≤ 6 && (width = 1 || width = 2 || width = 4 || width = 8 || width = 16)
  | .functionLevelReset fn => fn < 64
  | .hubFatal cause => 1 ≤ cause && cause ≤ 3
  | .mgmtWdtExpire => true
  | .idGenerate requester _ => requester.ok
  | .idChain requester _ => requester.ok
  | .lcToVendor requester _ => requester.ok
  | .ownerEnrol requester _ => requester.ok
  | .ownerRotate requester _ => requester.ok
  | .lcToRma requester _ => requester.ok
  | .lcScrap requester _ => requester.ok
  | .dbgUnlock requester => requester.ok
  | .dbgEnd requester => requester.ok
  | .d3ZeroiseDone => true
  | .fwUpdate requester => requester.ok
  | .fwFlashWriteDone _ dimms _ => dimms.all Dimm.ok
  | .svnCommit requester _ => requester.ok
  | .recover requester => requester.ok
  | .forceRecovery requester => requester.ok
  | .getVersion transport _ => transport < 3
  | .getCapabilities transport _ => transport < 3
  | .negotiateAlgorithms transport _ => transport < 3
  | .getDigests transport _ => transport < 3
  | .getCertificate transport _ => transport < 3
  | .challenge transport _ => transport < 3
  | .getMeasurements transport _ => transport < 3
  | .setCertificate transport _ => transport < 3
  | .spdmUnsupportedRequest transport _ => transport < 3
  | .jtagInstruction code cells => code < 256 && cells.length ≤ 8
  | .bucketRefill => true
  | .flitTransmit port => port < 24
  | .resetNRelease _ => true
  | .perstNRelease port _ => port < 2
  | .glitchReject => true
  | .doeDiscovery port _ _ => port < 2
  | .mctpControl _ => true
  | .vfEnable port _ count => port < 2 && count ≤ 31
  | .lastMateContact _ _ findings => findings.all Finding.ok
  | .smbusAlertResponse => true

end Sys2Proof
end

