-- ==== Sys2Proof/Tests/Slice0.lean ====
section
/-! SUPPORT. The model's own tests: terms that the well-formedness checks refuse, worked numbers of the spec, and for every
statement a concrete state and operands that meet its hypotheses. -/

namespace Sys2Proof.Tests

open Sys2Proof Sys2Proof.Machine

set_option Elab.async false

/-! ### Helpers -/

/-- The state after reset with another chip. -/
def st (c : Chip) : State := { State.reset with chip := c }

theorem st_sound (c : Chip) (h : c.between = c) : (st c).sound := ⟨rfl, h, Nat.zero_le _, fun _ hi => by cases hi⟩

/-- Without a listed header no perturbation is armed. -/
theorem st_calm (c : Chip) (h : c.headers = []) : (st c).calm := by
  refine ⟨rfl, fun e he => ?_⟩
  rw [show (st c).chip.headers = [] from h] at he
  cases he

/-- A descriptor from its fields: byte offset and value. -/
def desc (fs : List (Nat × Nat)) : BitVec 512 := BitVec.ofNat 512 (fs.foldl (fun n f => n + f.2 * 2 ^ (8 * f.1)) 0)

/-- A fetched command of function 0, queue 0: opcode, target, further fields. -/
def cmd (op target : Nat) (fs : List (Nat × Nat)) : Cmd :=
  { id := 1, fn := 0, sq := 0, desc := desc ([(0, op), (2, target)] ++ fs), arrival := 0 }

/-- The same, running. -/
def run (op target : Nat) (fs : List (Nat × Nat)) : Cmd := { cmd op target fs with phase := .running }

/-- A partition of function 0 with every cell, engine and share. -/
def part0 : Part :=
  { pairs := 2 ^ 48 - 1, prio := 0, preempt := true, stopOnFault := false, fn := 0, domain := 5, deadlineUs := 10, watchdogUs := 100
    seed := 1, evtBase := 0, evtCount := 64, spillBase := 0, spillBytes := 4096, shares := [256, 256, 256, 256, 256, 256]
    regs := [(0, 1), (0, 1), (0, 1), (0, 1), (0, 1)], levels := [0, 0, 0, 0, 0], state := .resident, formedAt := 0
    regions := [(0, { base := 0, bytes := 2 ^ 30, readOnly := false })] }

/-- Nothing is met from outside. -/
def env0 : Env := { feed := 0, drain := 0, upsets := [], host := .data [] }

/-! ### The step -/

theorem witness_StepKeepsSound : State.reset.sound ∧ ∃ t, step State.reset = .next t := ⟨⟨by decide, rfl, by decide, fun _ h => by cases h⟩, _, rfl⟩

theorem witness_FusesOneWay : (∃ t, step State.reset = .next t) ∧ Instr.mayProgram .mgmtWdtExpire = false ∧
    ∃ t, exec .mgmtWdtExpire State.reset = .next t := ⟨⟨_, rfl⟩, rfl, _, rfl⟩

theorem test_step_takes_front : ∃ t, step { State.reset with pending := [.glitchReject, .mgmtWdtExpire] } = .next t ∧ t.pending = [.mgmtWdtExpire] :=
  ⟨_, rfl, rfl⟩

theorem test_idle_passes_time : ∃ t, step State.reset = .next t ∧ t.chip.time = 40 := ⟨_, rfl, rfl⟩

/-! ### Registers and pages -/

/-- The SORREL page. -/
def sorrel : Page := { blk := .sorrel, inst := 0 }

theorem witness_PageControlsAndCounters : State.reset.sound ∧ State.reset.reached .mgmt sorrel ∧
    State.reset.chip.mayWrite .mgmt sorrel 0x008 = true ∧ State.reset.chip.mayQuiesce .mgmt sorrel = true ∧
    State.reset.chip.mayWrite .mgmt sorrel 0x01C = true ∧ State.reset.chip.mayWrite .mgmt sorrel 0x03C = true :=
  ⟨st_sound _ (by rfl), ⟨by decide, rfl, by decide⟩, by decide, by decide, by decide, by decide⟩

theorem witness_counter_reads : Chip.target State.reset.ctx State.reset.chip .mgmt 0x1040 = some (sorrel, 0x040) ∧
    Chip.target State.reset.ctx State.reset.chip .mgmt 0x107C = some (sorrel, 0x044 + 8 * 7) ∧
    (State.reset.chip.hdr sorrel.frame).ctr.getD 7 0 < 2 ^ 64 ∧
    ∀ m h, tabFind State.reset.chip.latch (2 ^ 14 * Requester.code .mgmt + sorrel.frame) = some (m, h) → h < 2 ^ 32 :=
  ⟨by decide, by decide, by decide, by intro _ _ h; cases h⟩

theorem witness_SoftReset : State.reset.reached .mgmt sorrel ∧ State.reset.chip.mayWrite .mgmt sorrel 0x008 = true ∧
    (∀ k ∈ State.reset.chip.cmds, (State.reset.chip.pagesOf k).contains sorrel = false) ∧
    (st { sec := { verified := true } }).sound ∧ sorrel.ok = true ∧ (st { sec := { verified := true } }).chip.blockUp sorrel = true :=
  ⟨⟨by decide, rfl, by decide⟩, by decide, by decide, st_sound _ (by rfl), by decide, by decide⟩

theorem witness_RefusedWrites : Instr.writeOf (.ctrClr (.pf 1) sorrel) = some (.pf 1, sorrel, 0x008) ∧ State.reset.reached (.pf 1) sorrel ∧
    State.reset.chip.mayWrite (.pf 1) sorrel 0x008 = false ∧ (st { fatal := 1 }).sound ∧ (st { fatal := 1 }).chip.fatal ≠ 0 :=
  ⟨rfl, ⟨by decide, rfl, by decide⟩, by decide, st_sound _ (by rfl), by decide⟩

/-- The event table's memory, and a function's BAR2 and configuration space. -/
theorem witness_StoredRegisterWrite_memories : State.reset.chip.reachesEvents State.reset.fuse .mgmt = true ∧ State.reset.chip.ownsEvent .mgmt 65535 = true ∧
    State.reset.entryGood 65535 ∧ (State.reset.chip.event 65535).threshold < 2 ^ 32 ∧ (State.reset.chip.event 65535).vector < 2 ^ 16 ∧
    (State.reset.chip.event 65535).owner = none ∧ State.reset.chip.ownsEvent (.pf 0) 65535 = false ∧
    ((∃ j < 4, 4 + j < 4 ∨ 4 + j = 8 ∨ 12 ≤ 4 + j) ↔ False) ∧ ((∃ j < 8, 4 + j < 4 ∨ 4 + j = 8 ∨ 12 ≤ 4 + j) ↔ True) ∧
    (fnOf (.pf 1) = some 32 ∧ State.reset.chip.fnWrites 32 = true ∧ State.reset.chip.sec.recovery = false ∧ State.reset.chip.fnExists 32 = true ∧
      State.reset.chip.unarmed) ∧
    (∀ v ∈ [0x2030, 0x5040], bitField v 7 5 ≤ 2 ∧ bitField v 14 12 ≤ 5 ∧ bitAt v 15 = false) ∧ bitAt 0x8000 15 = true ∧
    bitAt 1 0 ≠ (State.reset.chip.port 1).vfEnable ∧ (State.reset.chip.port 1).vfEnable = false := by
  refine ⟨by decide +kernel, by decide +kernel, by unfold State.entryGood; decide +kernel, by decide +kernel, by decide +kernel, by decide +kernel, by decide +kernel,
    by decide, by decide, ⟨by decide, by decide +kernel, by decide, by decide +kernel, by unfold Chip.unarmed; decide +kernel⟩, by decide, by decide, by decide +kernel, by decide +kernel⟩

/-- CAMPION.CTRL is a stored register (R384). -/
theorem witness_StoredRegisterWrite : State.reset.chip.fatal = 0 ∧ State.reset.fuse.lifecycle ≠ 4 ∧
    Chip.target State.reset.ctx State.reset.chip .mgmt 0x2100 = some ({ blk := .campion, inst := 0 }, 0x100) ∧
    regKind .campion 0x100 = .rw 0xFFFF0003 (100 * 65536 + 3) ∧ State.reset.chip.mayWrite .mgmt { blk := .campion, inst := 0 } 0x100 = true ∧
    (16 ≠ 32 ∧ 16 ≠ 64) ∧ 0x100 % (64 / 8) = 0 ∧ Chip.target State.reset.ctx State.reset.chip .mgmt 0x2104 = some ({ blk := .campion, inst := 0 }, 0x104) ∧
    0x104 % (64 / 8) ≠ 0 :=
  ⟨rfl, by decide, by decide, rfl, by decide, by decide, by decide, by decide, by decide⟩

theorem test_stored_register_reads_back : nextWith (exec (.regWrite .mgmt .control 0x2100 32 0x12345671) State.reset)
    (fun t => t.chip.reg 0x002 0x100 0 = 0x12340001 ∧ (t.chip.hdr 0x002).rsvdWr = true) := ⟨_, rfl, by decide, by decide⟩

theorem witness_LinkAndSegmentWrites : State.reset.reached .mgmt { blk := .vetch, inst := 23 } ∧
    State.reset.chip.mayWrite .mgmt { blk := .vetch, inst := 23 } 0x100 = true ∧
    State.reset.reached .mgmt { blk := .vetchFab, inst := 0 } ∧ 0x80000FFF &&& 0x7FFFF000 = 0 ∧ (∀ n < 24, State.reset.chip.linkUp n = false) ∧
    State.reset.reached .mgmt { blk := .cowslip, inst := 11 } ∧ State.reset.chip.mayWrite .mgmt { blk := .cowslip, inst := 11 } 0x154 = true ∧
    ∀ k ∈ State.reset.chip.cmds, k.phase = .waiting :=
  ⟨⟨by decide, rfl, by decide⟩, by decide, ⟨by decide, rfl, by decide⟩, by decide, by decide, ⟨by decide, rfl, by decide⟩, by decide,
    by decide⟩

/-- A chip whose first window fits, and whose partition 0 runs nothing. -/
def windowed : Chip := { tiers := { windows := [(0, { base := 226492404, size := 1, err := 0, enable := false })] } }

theorem witness_WindowsAndPerturbation : (st windowed).chip.writeReaches (st windowed).fuse .mgmt { blk := .hbmmap, inst := 0 } = true ∧
    windowed.mayWrite .mgmt { blk := .hbmmap, inst := 0 } 0x10C = true ∧ windowed.selOf Requester.mgmt.code 0x007 0x100 % 64 = 0 ∧
    (let w := windowed.window 0
     w.enable = false ∧ w.base % 12 = 0 ∧ 0 < w.size ∧ w.base + 12 * w.size ≤ 226492416) ∧
    (∀ e ∈ windowed.tiers.windows, e.1 ≠ 0 → e.2.enable = true →
      (windowed.window 0).base + 12 * (windowed.window 0).size ≤ e.2.base ∨ e.2.base + 12 * e.2.size ≤ (windowed.window 0).base ∨ e.2.size = 0) ∧
    windowed.partRunning 0 = false ∧
    ((State.reset.chip.window 0).enable = false ∧ ¬ 0 < (State.reset.chip.window 0).size) ∧
    (({ windowed with parts := [(0, part0)], cmds := [run 0x10 0 []] } : Chip)).partRunning 0 = true :=
  ⟨by decide, by decide, by decide, by decide, by decide, by decide, by decide, by decide⟩

/-- A window of each kind that R164 refuses: misplaced, of no size, outside HBM, over another. -/
theorem witness_WindowsAndPerturbation_refused : ∀ w ∈ [({ base := 6, size := 1 } : Window), { base := 0, size := 0 }, { base := 226492404, size := 2 }, { base := 12, size := 1 }],
    let c : Chip := { tiers := { windows := [(0, w), (1, { base := 0, size := 2, enable := true })] } }
    (c.window 0).enable = false ∧ c.partRunning 0 = false ∧
      (w.base % 12 = 0 ∧ 0 < w.size ↔ w.base = 226492404 ∨ w.base = 12) ∧ (w.base + 12 * w.size ≤ 226492416 ↔ w.base ≠ 226492404) ∧
      ((∀ e ∈ c.tiers.windows, e.1 ≠ 0 → e.2.enable = true → w.base + 12 * w.size ≤ e.2.base ∨ e.2.base + 12 * e.2.size ≤ w.base ∨ e.2.size = 0) ↔ w.base = 226492404 ∨ w.size = 0) := by
  decide +kernel

theorem witness_PertArm : (st { sec := { dbgLevel := 3, dbgHolder := 64 } }).reached .mgmt sorrel ∧
    (st { sec := { dbgLevel := 3, dbgHolder := 64 } }).chip.session .mgmt 3 = true ∧ State.reset.chip.sec.dbgLevel = 0 ∧ State.reset.reached .mgmt sorrel :=
  ⟨⟨by decide, rfl, by decide⟩, by decide, rfl, ⟨by decide, rfl, by decide⟩⟩

theorem witness_ControllerWrites : State.reset.chip.writeReaches State.reset.fuse .mgmt sorrel = true ∧
    State.reset.chip.writeReaches State.reset.fuse (.pf 0) sorrel = true ∧
    State.reset.chip.mayWrite .mgmt { blk := .spare, inst := 0 } 0x118 = true ∧ State.reset.chip.selftest.busy = false ∧
    (∀ e ∈ State.reset.chip.parts, bitAt e.2.pairs 47 = false) ∧ State.reset.chip.reg (0x080 + 11) 0x150 0 = 0 ∧
    State.reset.chip.reg (0x080 + 11) 0x154 0 = 0 ∧ (∃ e ∈ ([(0, part0)] : Tab Part), bitAt e.2.pairs 47 = true) ∧
    (State.reset.chip.setReg (0x080 + 11) 0x154 1).reg (0x080 + 11) 0x154 0 ≠ 0 :=
  ⟨by decide, by decide, by decide, rfl, by decide, by decide, by decide, ⟨_, List.mem_singleton.mpr rfl, by decide⟩, by decide⟩

theorem witness_UnassignedFrames : Page.ofFrame (0xB000 / 4096) = none ∧ Page.ofFrame (0x00F000 / 4096) = none ∧ sorrel.ok = true := by decide

/-! ### Events and the life of a command -/

theorem witness_EventCommands : State.reset.chip.writeReaches State.reset.fuse .mgmt { blk := .evt, inst := 0 } = true ∧
    State.reset.chip.writeReaches State.reset.fuse (.pf 0) { blk := .evt, inst := 0 } = true ∧
    State.reset.chip.mayEvent .mgmt 65535 = true ∧ (State.reset.chip.putEvent 65535 { count := 0xFFFFFFFF, overflow := true }).blocked 65535 ∧
    State.reset.chip.mayEvent (.pf 0) 65535 = false :=
  ⟨by decide +kernel, by decide +kernel, by decide +kernel, .inl (by decide +kernel), by decide +kernel⟩

/-- TANSY's page is READY, and a NOP for it waits; with WAIT_EN it is the oldest waiter of entry 9, whose count suffices. -/
def ready (k : Cmd) (e : Event) : Chip := { headers := [(0x005, { Header.reset 0x005 with ready := true })], cmds := [k], events := [(9, e)] }

/-- A signal that crosses a threshold, and one that lets the first of two waiters take, which leaves too little for the second. -/
theorem witness_EventCommands_effects (k : Cmd) (hk : k = cmd 0x00 0x7000 [(1, 4), (8, 9), (12, 3)])
    (j : Cmd) (hj : j = { cmd 0x00 0x7000 [(1, 4), (8, 9), (12, 3)] with id := 2 }) (s : State)
    (h : s = st { ready k { count := 1, waiters := [1, 2] } with cmds := [k, j] }) :
    (let e : Event := { irqOn := true, count := 1, threshold := 3, owner := some 0 }
     e.irqOn = true ∧ e.count < e.threshold ∧ e.threshold ≤ min (e.count + 2) 0xFFFFFFFF ∧ e.owner = some 0 ∧
       ({ parts := [(0, part0)] } : Chip).part? 0 = some part0) ∧
    s.entryGood 9 ∧ s.chip.mayEvent .mgmt 9 = true ∧ (s.chip.event 9).waiters = [1, 2] ∧ (s.chip.event 9).poisoned = false ∧ s.chip.cmd? 1 = some k ∧
    s.chip.cmd? 2 = some j ∧ k.flag 2 = true ∧ k.taken = false ∧ k.fld 8 2 = 9 ∧ k.fld 12 2 ≤ 1 + 2 ∧
    ((s.chip.putEvent 9 { s.chip.event 9 with count := 3 }).noteAll s.ctx).starts s.ctx k ∧
    (j.phase = .waiting ∧ j.flag 2 = true ∧ j.taken = false ∧ j.fld 8 2 = 9 ∧ 1 + 2 - k.fld 12 2 < j.fld 12 2) := by
  subst h hk hj
  unfold Chip.starts State.entryGood
  exact ⟨by decide +kernel, by decide +kernel, by decide +kernel, by decide +kernel, by decide +kernel, by decide +kernel, by decide +kernel, by decide +kernel,
    by decide +kernel, by decide +kernel, by decide +kernel, by decide +kernel, by decide +kernel⟩

theorem witness_NopAndEventReset : (run 0x00 0x7000 []).flag 3 = false ∧ (st { cmds := [run 0x00 0x7000 []] }).chip.runs 1 0x00 (run 0x00 0x7000 []) ∧
    (run 0x01 0x8000 [(16, 7)]).flag 3 = false ∧ (st { cmds := [run 0x01 0x8000 [(16, 7)]] }).chip.runs 1 0x01 (run 0x01 0x8000 [(16, 7)]) ∧
    ∀ i, ((st { cmds := [run 0x01 0x8000 [(16, 7)]] }).chip.event i).waiters = [] :=
  ⟨by decide +kernel, ⟨by decide +kernel, by decide +kernel, rfl⟩, by decide +kernel, ⟨by decide +kernel, by decide +kernel, rfl⟩, fun _ => rfl⟩

theorem witness_CommandStarts (s : State) (h : s = st (ready (cmd 0x00 0x7000 [(8, 9)]) {})) :
    s.sound ∧ s.chip.cmd? 1 = some (cmd 0x00 0x7000 [(8, 9)]) ∧ (s.chip.event 9).waiters = [] ∧ (s.chip.event 9).poisoned = false ∧ s.entryGood 9 ∧
      (s.chip.noteAll s.ctx).starts s.ctx (cmd 0x00 0x7000 [(8, 9)]) := by
  subst h
  unfold Chip.starts State.entryGood
  exact ⟨st_sound _ rfl, by decide +kernel, by decide +kernel, by decide +kernel, by decide +kernel, by decide +kernel⟩

theorem witness_CommandStarts_waiting (s : State) (k : Cmd) (hk : k = cmd 0x00 0x7000 [(1, 4), (8, 9), (12, 3)])
    (h : s = st (ready k { count := 3, waiters := [1] })) :
    k.flag 2 = true ∧ k.taken = false ∧ (s.chip.event 9).waiters = [1] ∧ (s.chip.noteAll s.ctx).starts s.ctx k := by
  subst h hk
  unfold Chip.starts
  exact ⟨by decide +kernel, rfl, by decide +kernel, by decide +kernel⟩

/-- A GATE_SEAL that may start (R216). -/
theorem witness_CommandStarts_seal (k : Cmd) (hk : k = cmd 0x21 0 []) (s : State)
    (h : s = st { parts := [(0, part0)], cmds := [k], gates := [(0, { state := .collecting })], headers := [(({ blk := .gate, inst := 0 } : Page).frame, { Header.reset 0 with ready := true })] }) :
    s.chip.cmd? 1 = some k ∧ (s.chip.event (k.fld 8 2)).waiters = [] ∧ (s.chip.event (k.fld 8 2)).poisoned = false ∧
      (s.chip.noteAll s.ctx).starts s.ctx k ∧ s.chip.cmdPart k = some 0 ∧ k.tclass = 0 ∧ k.opcode = 0x21 := by
  subst h hk
  unfold Chip.starts
  exact ⟨by decide +kernel, by decide +kernel, by decide +kernel, by decide +kernel, by decide +kernel, by decide +kernel, by decide +kernel⟩

theorem witness_PoisonedWait (s : State) (k : Cmd) (hk : k = cmd 0x00 0x7000 [(1, 12), (8, 9), (10, 4), (12, 3)])
    (h : s = st (ready k { count := 3, poisoned := true })) :
    s.sound ∧ s.chip.cmd? 1 = some k ∧ k.phase = .waiting ∧ k.flag 2 = true ∧ k.flag 3 = true ∧ k.taken = false ∧ k.fld 8 2 = 9 ∧
      (s.chip.event 9).poisoned = true ∧ s.chip.orderOk k = true ∧ (s.chip.noteAll s.ctx).inOrder s.ctx k = true ∧ s.entryGood 9 ∧
      (s.chip.event 9).waiters = [] ∧ ∀ i, i ≠ 9 → (s.chip.event i).waiters = [] := by
  subst h hk
  refine ⟨st_sound _ rfl, by decide +kernel, rfl, by decide +kernel, by decide +kernel, rfl, by decide +kernel, by decide +kernel, by decide +kernel, by decide +kernel,
    (fun e h => nomatch h), by decide +kernel, ?_⟩
  intro i hi
  show (tabGet ({} : Event) [(9, _)] i).waiters = []
  simp [tabGet, Ne.symm hi]

theorem witness_CommandCommits : (st { cmds := [{ run 0x00 0x7000 [(1, 8), (10, 4), (14, 2)] with phase := .ended }] }).sound ∧
    (st { cmds := [{ run 0x00 0x7000 [(1, 8), (10, 4), (14, 2)] with phase := .ended }] }).chip.cmd? 1 =
      some { run 0x00 0x7000 [(1, 8), (10, 4), (14, 2)] with phase := .ended } ∧
    (∀ i, ((st { cmds := [{ run 0x00 0x7000 [(1, 8), (10, 4), (14, 2)] with phase := .ended }] }).chip.event i).waiters = []) ∧
    (let k : Cmd := { run 0x00 0x7000 [(1, 8), (10, 4), (14, 2)] with phase := .ended }
     ({ cmds := [k], cqs := [(0, { enable := true })] } : Chip).cqOpen k) := by
  refine ⟨st_sound _ rfl, by decide +kernel, fun _ => rfl, ?_⟩
  unfold Chip.cqOpen
  decide +kernel

/-- A record write that fails is lost and stops the queue (R349). -/
theorem test_failed_record_write : nextWith (exec (.commandCommit 1 false)
    (st { cmds := [{ run 0x00 0x7000 [] with phase := .ended }], cqs := [(0, { enable := true })] }))
    (fun t => (t.chip.cq 0).error = true ∧ (t.chip.cq 0).cause = 2 ∧ t.chip.cmds = []) :=
  ⟨_, rfl, by decide +kernel, by decide +kernel, by decide +kernel⟩

theorem test_commit_signals : nextWith (exec (.commandCommit 1 true) (st { cmds := [{ run 0x00 0x7000 [(1, 8), (10, 4), (14, 2)] with phase := .ended }] }))
    (fun t => (t.chip.event 4).count = 2 ∧ t.chip.cmds = []) := ⟨_, rfl, by decide +kernel, by decide +kernel⟩

theorem test_failed_commit_poisons : nextWith (exec (.commandCommit 1 true)
    (st { cmds := [{ run 0x00 0x7000 [(1, 8), (10, 4), (14, 2)] with phase := .ended, status := 7 }] }))
    (fun t => (t.chip.event 4).count = 0 ∧ (t.chip.event 4).poisoned = true) := ⟨_, rfl, by decide +kernel, by decide +kernel⟩

/-! ### The host interface -/

/-- Function 0 with its queue 1 enabled over CQ 2, tail 3, nothing in flight. -/
def queued : Chip :=
  { sqs := [(1, { enable := true, state := 1, cq := 2, tail := 3 })], cqs := [(2, { enable := true, written := 5, head := 1 })] }

theorem witness_Doorbells : (st queued).sound ∧ queued.fnWrites 0 = true ∧ queued.power.pstate ≠ 3 ∧ (queued.sq (256 * 0 + 1)).enable = true ∧
    15 < ringSlots (queued.sq (256 * 0 + 1)).sizeLog2 ∧
    (let u := queued.cq (256 * 0 + 2)
     let n := ringSlots u.sizeLog2
     5 < n ∧ (5 + n - u.head) % n ≤ (u.tail + n - u.head) % n ∧ (u.tail + n - u.head) % n < (6 + n - u.head) % n ∧ n ≤ 16) ∧
    (queued.sq 3).enable = false ∧ ringSlots (queued.sq 1).sizeLog2 ≤ 16 :=
  ⟨st_sound _ rfl, by decide, by decide, by decide, by decide, by decide, by decide, by decide⟩

theorem witness_QueueConfiguration : queued.fnWrites 0 = true ∧ 255 < 256 ∧
    ((queued.sq 3).enable = false ∧ (queued.sq 3).state = 0 ∧ (queued.cq (256 * 0 + bitField (2 * 2 ^ 16 + 4) 23 16)).enable = true) ∧
    (∀ n ∈ [0, 1], let c : Chip := { queued with sqs := [(255, { state := 2, inFlight := n })] }
      (c.sq 255).enable = false ∧ (c.cq (256 * 0 + bitField (2 * 2 ^ 16 + 4) 23 16)).enable = true ∧ (c.sq 255).state ≠ 0 ∧
        (c.sq 255).inFlight = n ∧ (c.sq 255).reading = none ∧ ∀ r ∈ (c.cq (256 * 0 + 2)).waiting, r.sq ≠ 255) ∧
    (let c : Chip := { queued with sqs := [(1, { enable := true, state := 1, cq := 2, inFlight := 1 })] }
     (c.sq 1).enable = true ∧ (∀ k ∈ c.cmds, k.queue ≠ 256 * 0 + 1) ∧ (c.sq 1).inFlight ≠ 0) ∧
    (queued.cq (256 * 0 + bitField (255 * 2 ^ 16 + 4) 23 16)).enable = false ∧ (queued.sq 1).enable = true ∧
    ((queued.sq 1).inFlight = 0 ∧ (queued.sq 1).reading = none ∧ ∀ k ∈ queued.cmds, k.queue ≠ 256 * 0 + 1) ∧
    (queued.cq 3).enable = false ∧ (queued.cq 2).enable = true ∧
    (∀ i < 256, (({ queued with sqs := [] } : Chip).sq (256 * 0 + i)).enable = true → (({ queued with sqs := [] } : Chip).sq (256 * 0 + i)).cq ≠ 2) ∧
    ∃ i < 256, (queued.sq (256 * 0 + i)).enable = true ∧ (queued.sq (256 * 0 + i)).cq = 2 :=
  ⟨by decide, by decide, by decide, by decide, by decide, by decide, by decide, by decide, by decide, by decide, by decide +kernel, 1, by decide, by decide,
    by decide⟩

/-- A queue with one command that waits, disabled, and the CQ that takes its CANCELLED record (R349). -/
theorem witness_QueueConfiguration_cancel (k : Cmd) (hk : k = { cmd 0x00 0x7000 [(1, 8), (10, 4)] with sq := 1 })
    (c : Chip) (hc : c = { queued with sqs := [(1, { enable := true, state := 1, cq := 2, tail := 3, inFlight := 1 })], cmds := [k] }) :
    (c.sq (256 * 0 + 1)).enable = true ∧ c.cmds.filter (fun j => j.queue = 256 * 0 + 1 ∧ j.phase = .waiting) = [k] ∧ c.cmd? k.id = some k ∧
      (∀ i, (c.event i).waiters = []) ∧ k.flag 3 = true ∧ c.cqOpen k ∧ (c.sq 1).inFlight ≤ 1 ∧ (c.sq 1).reading = none := by
  subst hc hk
  unfold Chip.cqOpen
  exact ⟨by decide +kernel, by decide +kernel, by decide +kernel, fun _ => rfl, by decide +kernel, by decide +kernel, by decide +kernel, by decide +kernel⟩

theorem witness_DescriptorReads : queued.fetchTurn 0 1 = true ∧
    ({ queued with sqs := [(1, { enable := true, state := 1, cq := 2, tail := 3 }), (255, { enable := true, state := 1, cq := 2, tail := 3 })] } : Chip).fetchTurn 0 255 = false ∧
    queued.fnReach 0 = true ∧ queued.fatal = 0 ∧ (queued.sq 1).state = 1 ∧ (queued.sq 1).reading = none ∧
    (let u := queued.sq (256 * 0 + 1)
     let size := ringSlots u.sizeLog2
     min (min 16 ((u.tail + size - u.head) % size)) (min (size - u.head) (64 - queued.unstarted (256 * 0 + 1))) ≠ 0) ∧
    (let c : Chip := { sqs := [(1, { state := 1, reading := some (15, 1) })] }; (c.sq 1).reading = some (15, 1) ∧ (c.sq 1).state = 1) ∧
    (∀ r ∈ [HostRead.unsupported, .abort, .timeout, .poisoned], ∀ b, r ≠ .data b) :=
  ⟨by decide, by decide, by decide, by decide, by decide, by decide, by decide +kernel, by decide,
    fun r hr b h => by subst h; simp at hr⟩

theorem test_fetch_reads_to_the_tail : nextWith (exec (.descriptorFetch 0 1) (st queued))
    (fun t => (t.chip.sq 1).reading = some (0, 3) ∧ (t.chip.sq 1).head = 3) := ⟨_, rfl, by decide +kernel, by decide +kernel⟩

/-- A record that waits for its slot. -/
def rec0 : Record := (run 0x00 0x7000 []).record 0 0

theorem witness_RecordsAndVectors :
    (let c : Chip := { cqs := [(255, { waiting := [rec0] })] }
     (c.cq (256 * 0 + 255)).waiting = rec0 :: [] ∧ (c.cq (256 * 0 + 255)).full = false ∧ c.recordLets 0 = true ∧ (c.cq 3).waiting = [] ∧
       (∀ en ∈ [true, false], ((c.putCq 255 { c.cq 255 with enable := en }).cq 255).enable = en) ∧
       (let u : CQ := { enable := true, written := 1 }; u.waiting = [] ∧ u.error = false ∧ u.written ≠ 0)) ∧
    (let c : Chip := { fns := [(0, { pendingVecs := [2047] })], pcie := [(0, { linkUp := true })] }
     (c.fnRegs 0).pendingVecs.contains 2047 = true ∧ (c.fnRegs 0).pendingVecs.contains 2046 = false ∧ (c.port (0 / 32)).linkUp = true ∧ 2047 < msixSize 0) ∧
    (∀ u ∈ [[], [7]], let c : Chip := { time := 5000, cqs := [(3, { due := true, lastMsg := some 2000, coalUs := 3, vector := 7 })]
                                        fns := [(0, { unmasked := u })], pcie := [(0, { linkUp := true })] }
      (c.cq (256 * 0 + 3)).due = true ∧ (c.cq (256 * 0 + 3)).lastMsg = some 2000 ∧ 2000 + 1000 * (c.cq (256 * 0 + 3)).coalUs ≤ c.time ∧
        (c.port (0 / 32)).linkUp = true ∧ (c.cq (256 * 0 + 3)).vector < msixSize 0 ∧
        (c.fnRegs 0).unmasked.contains (c.cq (256 * 0 + 3)).vector = decide (u = [7])) ∧
    (let c : Chip := { time := 4999, cqs := [(3, { due := true, lastMsg := some 2000, coalUs := 3 })] }
     (c.cq (256 * 0 + 3)).coalUs ≠ 0 ∧ ¬ 2000 + 1000 * (c.cq (256 * 0 + 3)).coalUs ≤ c.time) :=
  ⟨by decide +kernel, by decide, by decide, by decide⟩

/-- A pending vector goes out when its entry opens (R348). -/
theorem test_unmask_sends : nextWith (exec (.msixUnmask 0 7)
    (st { fns := [(0, { pendingVecs := [7] })], pcie := [(0, { linkUp := true })] }))
    (fun t => (t.chip.fnRegs 0).pendingVecs = [] ∧ FnRegs.message {} 0 7 ∈ t.chip.outbox) := ⟨_, rfl, by decide +kernel, by decide +kernel⟩

/-- The memory tiers once HBM is up. -/
def tiersUp : Tiers := { units := (List.range 12).map (fun s => (s, { trained := true, zeroDone := true })) }

/-- A chip with partition 0 of function 0, HBM up. -/
def formed : Chip := { parts := [(0, part0)], tiers := tiersUp }

theorem witness_WindowFour : formed.fnWrites 0 = true ∧ formed.sec.recovery = false ∧ formed.bar4Held 0 = false ∧ (st formed).mem.lines = [] ∧
    (2 ^ 30 - 2) + 2 ≤ formed.bar4Size 0 ∧
    (let a := (formed.fnRegs 0).win4 * 2 ^ 30 + (2 ^ 30 - 2)
     a + 2 ≤ 0xD800000000 ∧ formed.bar4May 0 a 2 true = true ∧ formed.bar4May 0 a 2 false = true ∧
       ∀ i < 2, ∀ j < 2, formed.key (st formed).fuse (a + i) = formed.key (st formed).fuse (a + j) → i = j) :=
  ⟨by decide, by decide, by decide +kernel, rfl, by decide, by decide +kernel⟩

/-- A read of each kind: beyond BAR4, beyond HBM, of another's bytes, held, of good and of bad lines, and in recovery mode. -/
theorem witness_WindowFour_reads :
    (formed.fnReach 0 = true ∧ ¬ (2 ^ 30 - 1) + 2 ≤ formed.bar4Size 0 ∧ formed.sec.recovery = false) ∧
    (let c : Chip := { formed with fns := [(0, { win4 := 864 })] }; c.fnReach 0 = true ∧ 0xD800000000 < (c.fnRegs 0).win4 * 2 ^ 30 + 0 + 1) ∧
    ((fun c : Chip => c.bar4May 0 (2 ^ 30) 1 false = false ∧ (c.fnRegs 0).win4 * 2 ^ 30 = 2 ^ 30) { formed with fns := [(0, { win4 := 1 })] }) ∧
    (({ formed with tiers := {} } : Chip).bar4Held 0 = true ∧ ({ formed with tiers := {} } : Chip).bar4May 0 0 1 false = true) ∧
    (formed.bar4May 0 0 1 false = true ∧ formed.bar4Held 0 = false ∧ linesOf 0 1 = [0] ∧
      ∀ h ∈ [Health.good, .ue, .poison], formed.lineHealth { (st formed).ctx with mem := { cells := [], lines := if h = .good then [] else [(0, h)] } } 0 = h) ∧
    (let c : Chip := { sec := { recovery := true } }; c.fnReach 0 = true ∧ 0x3FFFFFF + 1 ≤ 0x4000000 ∧ 0x4000000 + 1 ≤ c.bar4Size 0) :=
  ⟨by decide +kernel, by decide +kernel, by decide +kernel, by decide +kernel, by decide +kernel, by decide +kernel⟩

/-! ### Arrays, vector units and training -/

/-- A command running for partition 0, whose gate is in a state; HBM is up. -/
def work (k : Cmd) (g : GState) : Chip := { parts := [(0, part0)], cmds := [k], gates := [(0, { state := g })], tiers := tiersUp }

/-- An image of zeros, of one byte run. -/
def im0 (n : Nat) : Image := { gen := 1, count := n, body := List.replicate (32 * n) 0 }

theorem work_sound (k : Cmd) (g : GState) : (st (work k g)).sound := st_sound _ rfl

theorem work_calm (k : Cmd) (g : GState) : (st (work k g)).calm := st_calm _ rfl

theorem witness_ArrayCommands : (st (work (run 0x10 0 [(20, 32)]) .ready)).chip.runs 1 0x10 (run 0x10 0 [(20, 32)]) ∧ env0.upsets = [] ∧
    (st (work (run 0x11 0 [(24, 4096)]) .ready)).chip.runs 1 0x11 (run 0x11 0 [(24, 4096)]) := by
  refine ⟨⟨by decide +kernel, by decide +kernel, by decide +kernel⟩, rfl, by decide +kernel, by decide +kernel, by decide +kernel⟩

theorem witness_BackwardProducts : (st (work (run 0x18 0x2 [(16, 1)]) .ready)).chip.runs 1 0x18 (run 0x18 0x2 [(16, 1)]) ∧
    bitAt ((run 0x18 0x2 [(16, 1)]).fld 16 1) 0 = true ∧
    (work (run 0x18 0x2 [(16, 1)]) .ready).accumHeld (run 0x18 0x2 [(16, 1)]) (run 0x18 0x2 [(16, 1)]).inst = false ∧
    (st (work (run 0x19 0x2 []) .ready)).chip.runs 1 0x19 (run 0x19 0x2 []) ∧
    (work (run 0x19 0x2 []) .ready).accumHeld (run 0x19 0x2 []) (run 0x19 0x2 []).inst = false := by
  refine ⟨⟨by decide +kernel, by decide +kernel, by decide +kernel⟩, by decide +kernel, by decide +kernel,
    ⟨by decide +kernel, by decide +kernel, by decide +kernel⟩, by decide +kernel⟩

theorem witness_VectorCommands (c : Chip) (h : c = { work (run 0x1A 0x1000 [(24, 4)]) .ready with tables := [(tableKey 2 0 0, { active := some (im0 4) })] })
    (d : Chip) (hd : d = { work (run 0x1B 0x1000 [(24, 4)]) .ready with tables := [(tableKey 2 0 0, { active := some (im0 4) })] }) :
    c.runs 1 0x1A (run 0x1A 0x1000 [(24, 4)]) ∧ c.imageFor (run 0x1A 0x1000 [(24, 4)]) (tableKey 2 (c.own (run 0x1A 0x1000 [(24, 4)])) 0) = some (im0 4) ∧
    d.runs 1 0x1B (run 0x1B 0x1000 [(24, 4)]) ∧ d.imageFor (run 0x1B 0x1000 [(24, 4)]) (tableKey 2 (d.own (run 0x1B 0x1000 [(24, 4)])) 0) = some (im0 4) := by
  subst h hd
  refine ⟨⟨by decide +kernel, by decide +kernel, by decide +kernel⟩, by decide +kernel, ⟨by decide +kernel, by decide +kernel, by decide +kernel⟩,
    by decide +kernel⟩

theorem witness_VectorCommands_argmax (s : State) (k : Cmd) (hk : k = run 0x1C 0x1000 [(17, 0x0B), (24, 2), (28, 64)]) (h : s = st (work k .ready)) :
    s.chip.runs 1 0x1C k ∧ (argReduce (!bitAt (k.fld 16 1) 0)
      ((if bitAt (k.fld 16 1) 1 then [argOfBytes (s.chip.rdBytes s.ctx (scratchAddr k.inst 0 + k.fld 40 4) 16)] else []) ++
        (List.range (k.fld 24 4)).map (fun e => argOne (toF32 ((vecOperand (s.chip.fmt k (s.chip.own k) (k.fld 17 1 % 16))
          (scratchAddr k.inst 0 + k.fld 28 4) (k.fld 24 4)).val (s.chip.rd s.ctx) 0 e)) (k.fld 32 8 + e)))).isSome = true := by
  subst h hk
  exact ⟨⟨by decide +kernel, by decide +kernel, by decide +kernel⟩, by decide +kernel⟩

theorem witness_Promotion : (-2097152 ≤ (2097152 : Int) ∧ (2097152 : Int) ≤ 2097152 ∧ -128 ≤ (106 : Int)) ∧
    ((2097151 : Int) ≠ 0 ∧ ((2097151 : Int).natAbs : Int) * 2 ^ (106 + 128 : Int).toNat < 2 ^ 256) ∧
    ((2 : Int) ^ 256 ≤ ((2097152 : Int).natAbs : Int) * 2 ^ (107 + 128 : Int).toNat) ∧
    ((1 : Int).natAbs : Int) * 2 ^ (-128 + 128 : Int).toNat < 2 ^ 256 ∧ ofF32 (promote 1 (-128)) = .num false 2097152 (-149) ∧
    AccState.start.pall = false ∧ AccState.start.blocks < 2 ^ 24 ∧ AccState.start.r = 0 ∧
    (groupSum 0 [[.num false 3 (-1), .num true 1 0]] AccState.start.nf).2.1 = false := by decide +kernel

/-- 3/2 rounds to 2 in the tree and -1 leaves 1 (R104-R106). -/
theorem test_tree_sum : (groupSum 0 [[.num false 3 (-1), .num true 1 0]] .empty).1 = 1 := by decide +kernel

theorem witness_GradientsAndOptimiser (k : Cmd) (hk : k = run 0x1E 0x2000 [(28, 4)]) :
    (st (work (run 0x1D 0x2000 [(24, 8)]) .collecting)).chip.runs 1 0x1D (run 0x1D 0x2000 [(24, 8)]) ∧
    (work (run 0x1D 0x2000 [(24, 8)]) .collecting).dramLets ((work (run 0x1D 0x2000 [(24, 8)]) .collecting).own (run 0x1D 0x2000 [(24, 8)])) [(0, 32)] = true ∧
    (∀ g ∈ [GState.skipped, .abandoned, .ready], (work k g).runs 1 0x1E k ∧ ((work k g).gate ((work k g).own k)).state = g) ∧
    (let c : Chip := { work k .ready with tables := [(tableKey 4 0 0, { active := some (im0 1) })] }
     c.runs 1 0x1E k ∧ (c.gate (c.own k)).state = .ready ∧ c.imageFor k (tableKey 4 (c.own k) 0) = some (im0 1)) := by
  subst hk
  exact ⟨⟨by decide +kernel, by decide +kernel, by decide +kernel⟩, by decide +kernel, by unfold Chip.runs; decide +kernel,
    by unfold Chip.runs; decide +kernel⟩

/-- Runs of HBM never wait while the partition's regulator 0 stands at 0 or above. -/
theorem witness_OptimiserRuns (rs : List (Nat × Nat)) (c : Chip) (hc : c = work (run 0x1E 0x2000 [(28, 4)]) .ready) : c.dramLets 0 rs = true := by
  subst hc
  have h0 : (work (run 0x1E 0x2000 [(28, 4)]) .ready).regLets 0 0 = true := by decide +kernel
  have h1 : (work (run 0x1E 0x2000 [(28, 4)]) .ready).regLets 0 1 = true := by decide +kernel
  have h2 : (work (run 0x1E 0x2000 [(28, 4)]) .ready).memHeld = false := by decide +kernel
  have h3 : (work (run 0x1E 0x2000 [(28, 4)]) .ready).hbmUp = true := by decide +kernel
  have h4 : (work (run 0x1E 0x2000 [(28, 4)]) .ready).ddrUp = true := by decide +kernel
  simp [Chip.dramLets, h0, h1, h2, h3, h4]

theorem witness_GateConfigureAndOpen :
    (let c := work (run 0x1F 0x2000 []) .idle
     c.runs 1 0x1F (run 0x1F 0x2000 []) ∧ (c.gate (c.own (run 0x1F 0x2000 []))).state = .idle) ∧
    (let c := work (run 0x1F 0x2000 []) .ready
     c.runs 1 0x1F (run 0x1F 0x2000 []) ∧ (c.gate (c.own (run 0x1F 0x2000 []))).state = .ready) ∧
    (let c := work (run 0x20 0x2000 []) .idle
     c.runs 1 0x20 (run 0x20 0x2000 []) ∧ (c.gate (c.own (run 0x20 0x2000 []))).state = .idle ∧ (c.gate (c.own (run 0x20 0x2000 []))).result = none) ∧
    (let c := work (run 0x20 0x2000 []) .collecting
     c.runs 1 0x20 (run 0x20 0x2000 []) ∧ (c.gate (c.own (run 0x20 0x2000 []))).state = .collecting) := by
  unfold Chip.runs
  exact ⟨by decide +kernel, by decide +kernel, by decide +kernel, by decide +kernel⟩

theorem witness_GateSealAndClose (k : Cmd) (hk : k = run 0x21 0x2000 []) (j : Cmd) (hj : j = run 0x22 0x2000 []) :
    (let c := work k .collecting
     c.runs 1 0x21 k ∧ k.stage = 0 ∧ c.cmdPart k = some 0 ∧ c.part? 0 = some part0 ∧ (c.gate 0).state = .collecting ∧ c.gateGroup 0 = none ∧
       (c.gate 0).kids = [] ∧ (c.gate 0).sent = false ∧ (c.gate 0).expired = false ∧ (c.gate 0).result = none ∧
       ∀ j ∈ c.cmds, j.phase = .running → j.opcode = 0x1D ∨ j.opcode = 0x21 ∨ j.opcode = 0x71 → j.id = 1) ∧
    (∀ g ∈ [GState.skipped, .abandoned, .ready], (work j g).runs 1 0x22 j ∧ ((work j g).gate ((work j g).own j)).state = g ∧
      ((work j g).gate ((work j g).own j)).slotAddr = 0 ∧ ∀ i ∈ (work j g).cmds, i.opcode = 0x1E → i.phase = .waiting) := by
  subst hk hj
  unfold Chip.runs
  exact ⟨by decide +kernel, by decide +kernel⟩

/-- The gate of partition 0 sealed at time 0 with TIMEOUT_MS 2, at a time in ns. -/
def sealed (g : GState) (sent : Bool) (t : Nat) : Chip :=
  { time := t, parts := [(0, part0)], gates := [(0, { state := g, sealAt := some 0, timeoutMs := 2, sent := sent })] }

theorem witness_Timers :
    (∀ t ∈ [1999999, 2000000, 7999999, 8000000], ((sealed .reducing false t).gate 0).sealAt = some 0 ∧ (sealed .reducing false t).gateGroup 0 = none ∧ ((sealed .reducing false t).gate 0).result = none) ∧
    ((sealed .reducing true 8000000).gate 0).sent = true ∧ ((sealed .reducing true 8000000).gate 0).state = .reducing ∧
    (({ time := 15999 } : Chip).time < ({ time := 15999 } : Chip).serve.refillAt + 16000 ∧ ({ time := 16000 } : Chip).serve.refillAt + 16000 ≤ 16000) ∧
    (let sv : Serve := { ctx := [], vecs := [(63, 0, 0, false)] }
     let c : Chip := { parts := [(0, part0)], serve := { parts := [(0, sv)] }, pcie := [(0, { linkUp := true })], fns := [(0, { unmasked := [63] })] }
     c.serveOf 0 = some sv ∧ c.part? 0 = some part0 ∧
       (∃ e ∈ sv.vecs, e.1 = 63 ∧ e.2.2.1 + 1000 * sv.f 58 2 ≤ c.time) ∧ (c.port (part0.fn / 32)).linkUp = true ∧
       63 < (if part0.fn % 32 = 0 then 2048 else 64) ∧ (c.fnRegs part0.fn).unmasked.contains 63 = true) ∧
    (∀ t ∈ [100000, 100001], let c : Chip := { time := t, parts := [(0, part0)], cmds := [run 0x10 0 []] }
      c.cmd? 1 = some (run 0x10 0 []) ∧ (run 0x10 0 []).phase = .running ∧ c.cmdPart (run 0x10 0 []) = some 0 ∧ c.part? 0 = some part0 ∧
        (run 0x10 0 []).opcode ≠ 0x71 ∧ (run 0x10 0 []).flag 3 = false ∧ (run 0x10 0 [(1, 8)]).flag 3 = true ∧ (c.event ((run 0x10 0 [(1, 8)]).fld 10 2)).waiters = [] ∧
        part0.watchdogUs = 100) ∧
    part0.levels.length = part0.regs.length := by
  refine ⟨by decide +kernel, by decide +kernel, by decide +kernel, by decide, ?_, by decide +kernel, by decide⟩
  exact ⟨by decide +kernel, by decide +kernel, ⟨_, List.mem_singleton.mpr rfl, by decide +kernel⟩, by decide +kernel, by decide +kernel, by decide +kernel⟩

/-- A running launch at and past its watchdog time, its untimed waits left out. -/
theorem witness_Timers_launch : ∀ t ∈ [100040, 100041], let k : Cmd := { run 0x71 0x6000 [] with watchdogUs := 100, untimed := 40 }
    let c : Chip := { time := t, parts := [(0, part0)], cmds := [k] }
    c.cmd? 1 = some k ∧ k.phase = .running ∧ c.cmdPart k = some 0 ∧ c.part? 0 = some part0 ∧ k.startNs + k.untimed + 1000 * k.watchdogUs = 100040 ∧
      k.tclass = 6 ∧ k.opcode = 0x71 ∧ k.flag 3 = false := by decide +kernel

/-- A regulator at RATE 3 gains three lines in each whole 64 ns and keeps the rest of the time (R330). -/
theorem test_regulator : nextWith (exec .regulatorRefill (st { time := 140, parts := [(0, { part0 with regs := [(3, 100)], levels := [-5] })] }))
    (fun t => (t.chip.part? 0).map (fun p => p.levels) = some [1] ∧ t.chip.regAt = 128) := ⟨_, rfl, by decide +kernel, by decide +kernel⟩

/-! ### Moves -/

/-- A copy of one 64-byte row of HBM, and an accumulating move of BF16 values of another scale into the wide buffer. -/
def copyCmd : Cmd := run 0x40 0x4000 [(20, 1), (23, 64), (40, 4096)]
def accumCmd : Cmd := run 0x40 0x5002 [(16, 4), (17, 0xBB), (20, 1), (23, 16), (40, wideAddr 2 0)]

theorem witness_LocalMoves (k : Cmd) (hk : k = copyCmd) (j : Cmd) (hj : j = accumCmd) :
    (let c := work k .ready
     c.runs 1 0x40 k ∧ (c.moveSrc 0 k).host = false ∧ (c.moveDst 0 k).host = false ∧ bitAt (k.fld 16 1) 1 = false ∧ bitAt (k.fld 16 1) 3 = false ∧
       bitAt (k.fld 16 1) 4 = false ∧ c.own k = 0 ∧ c.dramLets 0 (c.moveSrc 0 k).runs = true ∧ c.dramLets 0 (c.moveDst 0 k).runs = true ∧
       k.tclass = 4 ∧ bitAt (k.fld 16 1) 2 = false) ∧
    (let c := work j .ready
     c.runs 1 0x40 j ∧ (c.moveSrc 0 j).host = false ∧ (c.moveDst 0 j).host = false ∧ bitAt (j.fld 16 1) 1 = false ∧ bitAt (j.fld 16 1) 3 = false ∧
       bitAt (j.fld 16 1) 4 = false ∧ c.dramLets 0 (c.moveSrc 0 j).runs = true ∧ c.dramLets 0 (c.moveDst 0 j).runs = true ∧
       j.tclass = 5 ∧ c.regLets 0 (3 + j.inst) = true ∧ bitAt (j.fld 16 1) 2 = true ∧ c.accumHeld j j.inst = false) := by
  subst hk hj
  unfold Chip.runs
  exact ⟨by decide +kernel, by decide +kernel⟩

theorem witness_ResidentMove (k : Cmd) (hk : k = run 0x40 0x4003 [(16, 16), (20, 1), (23, 64), (30, 9), (40, scratchAddr 3 128)])
    (c : Chip) (hc : c = { work k .ready with tiers := { tiersUp with resid := [(3, [{ part := 0, tag := 9, off := 128, len := 256 }])] } }) :
    c.runs 1 0x40 k ∧ bitAt (k.fld 16 1) 4 = true ∧ k.tclass = 4 ∧ k.inst = 3 ∧ c.accumHeld k k.inst = false ∧ c.own k = 0 ∧
      (∀ e ∈ [c.moveSrc 0 k, c.moveDst 0 k], e.host = false → c.dramLets 0 e.runs = true) ∧
      (∃ r ∈ tabGet [] c.tiers.resid k.inst, r.part = 0 ∧ r.tag = k.fld 30 2 ∧ r.off = (c.moveDst 0 k).hull.1 % 0x1000000 ∧ r.len = (c.moveDst 0 k).hull.2) ∧
      (c.hdr (0x200 + k.inst)).ctr.length = 8 := by
  subst hc hk
  unfold Chip.runs
  exact ⟨by decide +kernel, by decide +kernel, by decide +kernel, by decide +kernel, by decide +kernel, by decide +kernel, by decide +kernel,
    by decide +kernel, by decide +kernel⟩

/-- The state after reset, and one without listed memory or windows, is placed. -/
theorem st_placed (c : Chip) (h : c.tiers.windows = []) : (st c).placed := by
  refine ⟨fun e h => (by cases h), ?_, (by decide +kernel : ∀ a < 96, State.reset.fuse.phys a < 104),
    (by decide +kernel : ∀ a < 96, ∀ b < 96, State.reset.fuse.phys a = State.reset.fuse.phys b → a = b)⟩
  intro e he
  rw [show (st c).chip.tiers.windows = [] from h] at he
  cases he

theorem witness_ZeroAndDrop : (let k := run 0x41 0x5001 [(20, 0x200000)]; let c := work k .ready
      c.runs 1 0x41 k ∧ c.accumHeld k k.inst = false ∧ c.tiers.windows = [] ∧ k.fld 16 4 = 0 ∧ k.fld 20 4 = 0x200000) ∧
    (let k := run 0x42 0x5001 [(16, 3)]; (work k .ready).runs 1 0x42 k) := by
  unfold Chip.runs
  exact ⟨by decide +kernel, by decide +kernel⟩

/-- Cell 1's wide buffer is about to be zeroed, with two bits of the word at `a` armed. -/
def injecting : Chip :=
  { work (run 0x41 0x5001 [(20, 0x400)]) .ready with
    headers := [(0x201, { Header.reset 0x201 with pert := { ctrl := 0x80000008#32, ecc := 0x40050003#32, addrLo := 0x00200080#32, addrHi := 0x208#32 } })]
    power.domains := [(0, { on := true })] }

theorem witness_Injection : injecting.runs 1 0x41 (run 0x41 0x5001 [(20, 0x400)]) ∧ injecting.accumHeld (run 0x41 0x5001 [(20, 0x400)]) 1 = false ∧
    (let h := injecting.hdr 0x201; let p := h.pert; let a := 0x20800200080
     wideAddr 1 0 ≤ a ∧ a + 64 ≤ wideAddr 1 0x400 ∧ a % 64 = 0 ∧ (0x201, h) ∈ injecting.headers ∧
     (∀ e ∈ injecting.headers, e.1 ≠ 0x201 → e.2.pert.ctrl.getLsbD 31 = false) ∧ bitField p.ecc.toNat 31 29 = 2 ∧
     bitField p.ecc.toNat 8 0 ≠ bitField p.ecc.toNat 24 16 ∧ bitField p.ecc.toNat 8 0 / 32 = bitField p.ecc.toNat 24 16 / 32 ∧
     p.addrLo.toNat + 2 ^ 32 * p.addrHi.toNat = a ∧ h.elog.valid = false ∧ injecting.sramOn a = true ∧ injecting.power.off = false) := by
  unfold Chip.runs
  exact ⟨by decide +kernel, by decide +kernel, by decide +kernel⟩

/-! ### The soft-target bridge and the stack engines -/

/-- An open ring of eight slots over bridge SRAM, both vocabularies over cell 0, opened at stamp 0; with a row set of a stream. -/
def ring0 (sets : Tab RowSet) (held : Option Nat) : Ring :=
  { tPart := 0, sPart := 0, base := 0, depth := 8, k := 4, tempIdx := 0, v := 128, vsliceT := 128, vsliceS := 128, tCells := [0], sCells := [0]
    rowsMax := 8, seqStart := 0, alpha := 0, labelAddr := 0, lossAddr := 4096, tau := 0x3F800000, scale := 0x3F800000, nextSeq := 0, sets := sets, held := held }

/-- A chip whose ring 0 is that one, running a head command. -/
def headed (k : Cmd) (r : Ring) : Chip := { work k .ready with bridge := { rings := [(0, r)] } }

theorem witness_RingCommands :
    (let k : Cmd := { run 0x50 0x3000 [] with ctx := List.replicate 96 0 }; (work k .ready).runs 1 0x50 k ∧ (work k .ready).tiers.windows = []) ∧
    (∀ m ∈ [0, 128], let k := run 0x51 0x3000 [(16, m)]; (headed k (ring0 [] none)).runs 1 0x51 k ∧ (headed k (ring0 [] none)).ringOf k = some (ring0 [] none)) := by
  unfold Chip.runs
  exact ⟨by decide +kernel, by decide +kernel⟩

/-- Memory in which the slot of sequence number 0 of that ring is not FREE. -/
def taken0 : Memory := { cells := [(3 * 2 ^ 48 + 3, 1)], lines := [] }

theorem witness_HeadWindows (k : Cmd) (hk : k = run 0x52 0x3000 [(16, 128), (22, 1), (55, 1)]) (r : Ring) (hr : r = ring0 [] none) :
    (headed k r).runs 1 0x52 k ∧ k.stage = 0 ∧ (headed k r).ringOf k = some r ∧ r.openedAt ≤ k.startAt ∧
      (k.seqs.any ((headed k r).slotTaken (st (headed k r)).ctx r)) = false ∧ (st (headed k r)).headRows k r [{}] true ∧
      bitAt (k.fld 16 1) 7 = true ∧
      (let s : State := { st (headed k r) with mem := taken0 }; k.seqs.any (s.chip.slotTaken s.ctx r) = true ∧ s.mem.lines = []) := by
  subst hk hr
  unfold Chip.runs
  refine ⟨by decide +kernel, rfl, by decide +kernel, by decide, by decide +kernel, ⟨rfl, fun h => (h ?_).elim, ?_⟩, by decide +kernel, by decide +kernel, rfl⟩
  all_goals decide +kernel

theorem witness_HeadWindows_hold (k : Cmd) (hk : k = { run 0x52 0x3000 [(16, 128), (22, 1), (55, 1)] with stage := 1 }) (r : Ring) (hr : r = ring0 [] (some 1)) :
    (headed k r).runs 1 0x52 k ∧ k.stage = 1 ∧ r.held = some 1 ∧ (headed k r).ringOf k = some r ∧
      (k.seqs.any ((headed k r).slotTaken (st (headed k r)).ctx r)) = false ∧
      (let s : State := { st (headed k r) with mem := taken0 }; k.seqs.any (s.chip.slotTaken s.ctx r) = true) := by
  subst hk hr
  unfold Chip.runs
  exact ⟨by decide +kernel, rfl, rfl, by decide +kernel, by decide +kernel, by decide +kernel⟩

set_option exponentiation.threshold 512 in
/-- Pass one begins its rows from records that are TEACHER_DONE; pass two goes on with an open row set. -/
theorem witness_HeadWindows_passes (k : Cmd) (hk : k = run 0x53 0x3000 [(22, 1), (55, 1)]) (j : Cmd) (hj : j = run 0x54 0x3000 [(22, 1), (55, 1)])
    (r : Ring) (hr : r = { ring0 [] none with nextSeq := 1 }) (q : Ring) (hq : q = ring0 [(2, { base := 0, last := 128, rows := [{}] })] none) :
    (headed k r).runs 1 0x53 k ∧ k.stage = 0 ∧ (headed k r).ringOf k = some r ∧
      (let s : State := { st (headed k r) with mem := taken0 }; k.stream = 1 ∧ tabFind r.sets 1 = none ∧ ∀ q ∈ k.seqs,
        0 < (r.nextSeq + 2 ^ 32 - q) % 2 ^ 32 ∧ (r.nextSeq + 2 ^ 32 - q) % 2 ^ 32 ≤ r.depth ∧
          s.chip.rdNat s.ctx (r.slotAddr q) 4 % 2 ^ 24 = q % 2 ^ 24 ∧ bitField (s.chip.rdNat s.ctx (r.slotAddr q) 4) 25 24 = 1) ∧
      (headed j q).runs 1 0x54 j ∧ j.stage = 0 ∧ (headed j q).ringOf j = some q ∧ (st (headed j q)).headRows j q [{}] false ∧
      (headed j q).dramLets ((headed j q).own j) (j.seqs.map (fun s => (q.lossAddr + 16 * q.slot s, 16))) = true := by
  subst hk hj hr hq
  unfold Chip.runs
  exact ⟨by decide +kernel, rfl, by decide +kernel, by decide +kernel, by decide +kernel, rfl, by decide +kernel, ⟨rfl, rfl⟩, by decide +kernel⟩

/-- A scheduler of round 1 with an open plan. -/
def serve1 (plan : Option (List PlanEntry)) : Serve := { ctx := List.replicate 128 0, plan := plan, reqs := [(2, { state := .running })] }

/-- The same in a chip that runs a command. -/
def served (k : Cmd) (sv : Serve) : Chip := { work k .ready with serve := { parts := [(0, sv)] } }

theorem witness_EngineCommands (k : Cmd) (hk : k = run 0x62 0x6000 [(28, 8), (36, 1)]) :
    (let k := run 0x60 0x6000 [(20, 1), (23, 64)]; let c := work k .ready
     c.runs 1 0x60 k ∧ bitAt (k.fld 16 1) 1 = false ∧ c.own k = 0 ∧ c.dramLets 0 (c.engSrc 0 k).runs = true ∧ c.dramLets 0 (c.engDst 0 k).runs = true) ∧
    (let k := run 0x61 0x6000 [(16, 2), (32, 1)]; let c := served k (serve1 (some []))
     c.serveOf 0 = some (serve1 (some [])) ∧ (serve1 (some [])).plan.isSome = true ∧ c.runs 1 0x61 k ∧ k.fld 32 4 = (serve1 (some [])).round ∧
       c.own k = 0 ∧ c.dramLets 0 [] = true) ∧
    (let c := served k (serve1 (some []))
     c.serveOf 0 = some (serve1 (some [])) ∧ c.runs 1 0x62 k ∧ k.fld 36 4 = (serve1 (some [])).round ∧ c.own k = 0 ∧ bitAt (k.fld 28 1) 3 = true ∧
       bitAt (k.fld 28 1) 2 = false ∧ c.regLets 0 0 = true ∧ c.regLets 0 1 = true ∧ c.memHeld = false ∧ (serve1 (some [])).f 8 2 % 32 = 0) := by
  subst hk
  unfold Chip.runs
  exact ⟨by decide +kernel, by decide +kernel, by decide +kernel⟩

/-! ### Serving -/

/-- A round with no plan, and one whose plan is a decode entry of request 2 with a draft. -/
def entry2 : PlanEntry :=
  { slot := 2, prefill := false, nDraft := 1, pos := 3, count := 2, kvLen := 3, tokenLen := 4, dkvLen := 2, first := false, last := true
    recompute := false, wPrefill := 0, wDecode := 1 }

theorem witness_RequestCommands :
    (let k : Cmd := run 0x68 0x7000 []; (work k .ready).runs 1 0x68 k) ∧
    (let k : Cmd := run 0x69 0x7000 [(16, 2)]; (served k (serve1 none)).serveOf ((served k (serve1 none)).own k) = some (serve1 none) ∧ (served k (serve1 none)).runs 1 0x69 k) ∧
    (∀ sv ∈ [serve1 none, serve1 (some [entry2])], let k : Cmd := run 0x6D 0x7000 [(16, 2), (18, 3)]
      (served k sv).serveOf ((served k sv).own k) = some sv ∧ (served k sv).runs 1 0x6D k ∧ (sv.req (k.fld 16 2)).state ≠ .free) ∧
    (let k : Cmd := run 0x6A 0x7000 [(16, 2)]; let sv := serve1 (some [entry2])
     (served k sv).serveOf ((served k sv).own k) = some sv ∧ (served k sv).runs 1 0x6A k ∧ k.stage = 0 ∧ sv.reqs.Pairwise (fun a b => a.1 < b.1) ∧
       (∃ e ∈ sv.plan.getD [], e.slot = k.fld 16 2) ∧ (sv.req (k.fld 16 2)).state ≠ .free) ∧
    (let k : Cmd := run 0x6A 0x7000 [(16, 2)]; let sv := serve1 none
     (served k sv).serveOf ((served k sv).own k) = some sv ∧ (served k sv).runs 1 0x6A k ∧ ¬ ∃ e ∈ sv.plan.getD [], e.slot = k.fld 16 2) := by
  unfold Chip.runs
  exact ⟨by decide +kernel, by decide +kernel, by decide +kernel, by decide +kernel, by decide +kernel⟩

theorem witness_RoundBegins : ∀ sv ∈ [serve1 none, serve1 (some [entry2])],
    let k : Cmd := run 0x6B 0x7000 [(16, 8)]; let c := served k sv
    c.runs 1 0x6B k ∧ c.serveOf (c.own k) = some sv ∧ c.part? (c.own k) = some part0 ∧ sv.reqs.Pairwise (fun a b => a.1 < b.1) := by
  unfold Chip.runs; decide +kernel

/-- A request whose PROMPT_LEN is 2, MAX_NEW 8 and ring has 4 records, at four tokens. -/
def decode2 : Req :=
  { state := .running, desc := leBytes 4 2 ++ leBytes 4 8 ++ List.replicate 12 0 ++ leBytes 4 4 ++ List.replicate 40 0, tokenLen := 4, kvLen := 3, spec := 1 }

/-- Memory at 0 whose verification record agrees with the entry's draft, or not. -/
def vrec2 (agree : Bool) : Memory := { cells := (if agree then [(104, 1)] else [(72, 1), (104, 1)]), lines := [] }

/-- The round's records: from zeros, N_DRAFT 1 at byte 104, the draft at byte 72 (R297). -/
theorem witness_RoundCommits (sv : Serve) (hsv : sv = { serve1 (some [entry2]) with reqs := [(2, decode2)] }) (k : Cmd) (hk : k = run 0x6C 0x7000 []) :
    (let c := served k sv
     c.runs 1 0x6C k ∧ c.serveOf (c.own k) = some sv ∧ c.part? (c.own k) = some part0 ∧ sv.plan = some [entry2] ∧
       ([entry2].map (fun e => e.slot)).Nodup ∧ sv.reqs.Pairwise (fun a b => a.1 < b.1) ∧ (∀ j ∈ c.cmds, j.opcode = 0x6A → j.stage ≠ 1) ∧
       k.fld 24 8 = 0) ∧
    (∀ agree ∈ [true, false], let b := (served k sv).rdBytes { (st (served k sv)).ctx with mem := vrec2 agree } 0 128
      let a := if agree then 1 else 0
      entry2.prefill = false ∧ vrecBad entry2 b = false ∧ ctxFld b 105 1 = 0 ∧ a ≤ ctxFld b 104 1 ∧ (∀ j < a, vrecWord b (18 + j) = vrecWord b j) ∧
        (a < ctxFld b 104 1 → vrecWord b (18 + a) ≠ vrecWord b a) ∧ (∀ j ≤ a, ¬ (bitAt (decode2.f 16 4) 31 = true ∧ vrecWord b j = 0)) ∧
        decode2.tokenLen + a + 1 < decode2.f 0 4 + decode2.f 4 4 ∧ decode2.state = .running ∧ decode2.recs < 2 ^ 32) ∧
    (({ served k sv with pcie := [(0, { linkUp := true })] } : Chip).port (part0.fn / 32)).linkUp = true := by
  subst hsv hk
  unfold Chip.runs
  exact ⟨by decide +kernel, by decide +kernel, by decide +kernel⟩

/-! ### The fabric and collectives -/

/-- A packet from device 7 in domain 5. -/
def pkt (type op addr len count coll : Nat) (data : List Byte) : Packet :=
  PacketSpec.make { type := type, vc := 0, dst := 0, op := op, tag := 9, domain := 5, flow := 0, addr := addr, len := len, count := count, coll := coll, data := data } 7

/-- A chip with partition 0 in domain 5, a packet delivered and event entry 3 open to the fabric. -/
def fabric (p : Packet) : Chip :=
  { parts := [(0, part0)], links := { inbox := [p] }, events := [(3, { owner := some 0, fabric := true })], tiers := tiersUp }

theorem witness_FabricRequests :
    (∀ p ∈ [pkt 1 0 0 256 0 0 (List.replicate 256 0), pkt 1 0 (2 ^ 30 - 1) 1 0 0 [7]],
      (fabric p).holdsPacket 0 1 p ∧ (0 < p.len ∧ p.len ≤ 4096 ∧ p.rsvdBad false false = false) ∧ p.data.length = p.len ∧
        (fabric p).judge p p.len true false = .inl 0 ∧ (fabric p).dramLets 0 [(p.addr, p.len)] = true) ∧
    (let p := pkt 2 0 64 4096 0 0 []
     (fabric p).holdsPacket 0 2 p ∧ p.rsvdBad false false = false ∧ p.len = 4096 ∧ (fabric p).judge p p.len false false = .inl 0 ∧ (fabric p).dramLets 0 [(p.addr, p.len)] = true) ∧
    (∀ op ∈ [0, 1, 2, 3], let p := pkt 3 op 64 16 0 0 (List.replicate 16 1)
      (fabric p).holdsPacket 0 3 p ∧ p.len = 16 ∧ p.data.length = 16 ∧ p.fld 7 1 = op ∧ p.addr % 8 = 0 ∧ p.rsvdBad false false = false ∧
        (fabric p).judge p 8 true true = .inl 0 ∧ (fabric p).dramLets 0 [(p.addr, 8)] = true) ∧
    (∀ n ∈ [1, 65535], let p := pkt 5 0 3 0 n 0 []
      (fabric p).holdsPacket 0 5 p ∧ p.addr = 3 ∧ p.count = n ∧ p.len = 0 ∧ p.rsvdBad true false = false ∧ ((fabric p).event 3).owner = some 0 ∧
        (fabric p).part? 0 = some part0 ∧ p.domain ≠ 0 ∧ part0.domain = p.domain ∧ ((fabric p).event 3).fabric = true ∧ ((fabric p).event 3).waiters = []) ∧
    (∀ a ∈ [0xD800000000, 2 ^ 30], let p := pkt 1 0 a 1 0 0 [7]
      (fabric p).holdsPacket 0 1 p ∧ (0 < p.len ∧ p.len ≤ 4096 ∧ p.rsvdBad false false = false) ∧ p.data.length = p.len ∧
        (fabric p).judge p p.len true false = .inr (if a = 2 ^ 30 then 2 else 1, a = 2 ^ 30)) := by
  unfold Chip.holdsPacket
  exact ⟨by decide +kernel, by decide +kernel, by decide +kernel, by decide +kernel, by decide +kernel⟩

/-- Group 1 of partition 0: member 1 of two, its stage at 0x100000. -/
def group1 : Group :=
  { part := 0, g := 2, member := 1, succ := 7, pred := 7, parent := 7, root := false, flat := false, site := none, eInit := 0, limit := 4
    stageBase := 0x100000, stageBytes := 0x8000, kids := [8] }

/-- A chip of that group, its gate in a state, with a packet and stage slots. -/
def grouped (p : Packet) (g : Gate) (stages : Tab Stage) : Chip :=
  { fabric p with coll := { groups := [(1, group1)], stages := stages }, gates := [(0, { g with group := 1 })] }

theorem witness_CollectivePackets_partials (r : Packet) (hr : r = pkt 4 0 0x104000 2176 0 (2 ^ 20 + 1) (List.replicate 2176 0))
    (t : Packet) (ht : t = pkt 4 0 0x104000 34 0 1 (16 :: List.replicate 33 0)) :
    (∀ u ∈ [r, t], ∀ x ∈ [({} : Stage), { inc := some 0, closed := some 0 }, { inc := some 1 }, { inc := some 0 }, { closed := some 1 }],
      let c := grouped u {} [(0x104000, x)]
      c.holdsPacket 0 4 u ∧ 0 < u.len ∧ u.len % 34 = 0 ∧ u.len ≤ 2176 ∧ u.data.length = u.len ∧ u.rsvdBad false true = false ∧ u.coll < 2 ^ 28 ∧
        c.region u.addr u.len ≠ none ∧ c.reducePart u u.len = some 0 ∧ c.slotMine 0 (u.coll % 256) = some group1 ∧ group1.holds u.addr = true ∧
        (u.addr - group1.stageBase) % 16384 = 0 ∧ (c.gate 0).lateFold = false ∧ c.tileAt u.addr = none ∧ c.stageAt u.addr = x ∧
        c.dramLets 0 [(u.addr, u.len)] = true) ∧
    (bitField r.coll 27 20 = ((grouped r {} []).gate 0).epoch % 256 + 1 ∧ bitField t.coll 27 20 = ((grouped t {} []).gate 0).epoch % 256) ∧
    ((chunks 34 (r.len / 34 + 1) r.data).map pb8OfBytes).all (fun b => !b.mismatch) = true ∧
    ((chunks 34 (t.len / 34 + 1) t.data).map pb8OfBytes).all (fun b => !b.mismatch) = false := by
  subst hr ht
  unfold Chip.holdsPacket
  exact ⟨by decide +kernel, by decide +kernel, by decide +kernel, by decide +kernel⟩

/-- A scalar record from a device, of an epoch; bit 29 marks the parent's result. -/
def scalarPkt (src epoch coll : Nat) : Packet :=
  PacketSpec.make { type := 4, vc := 7, dst := 0, op := 0, tag := 9, domain := 5, flow := 1, addr := 0x100000, len := 68, coll := coll, data := Scalar.bytes {} epoch } src

theorem witness_CollectivePackets_records :
    (∀ e ∈ [0, 1], let r := scalarPkt 8 e (2 ^ 28 + 1); let c := grouped r { state := .collecting } []
      c.holdsPacket 0 4 r ∧ r.scalarBad = false ∧ bitAt r.coll 28 = true ∧ tabFind c.coll.groups (r.coll % 256) = some group1 ∧ group1.stageBase = r.addr ∧
        r.domain ≠ 0 ∧ c.domainOf group1.part = r.domain ∧ (c.gate group1.part).group = r.coll % 256 ∧ bitAt r.coll 29 = false ∧
        group1.kids.contains r.src = true ∧ (scalarOf r.data).2 = e ∧ (c.gate 0).epoch = 0 ∧ (c.gate 0).state = .collecting ∧ (c.gate 0).sent = false ∧
        (c.gate 0).window = false ∧ tabFind (c.gate 0).kids r.src = none ∧ tabFind (c.gate 0).held r.src = none) ∧
    (let r := scalarPkt 7 0 (2 ^ 29 + 2 ^ 28 + 1); let c := grouped r { state := .reducing } []
     c.holdsPacket 0 4 r ∧ r.scalarBad = false ∧ bitAt r.coll 28 = true ∧ tabFind c.coll.groups (r.coll % 256) = some group1 ∧ group1.stageBase = r.addr ∧
       c.domainOf group1.part = r.domain ∧ (c.gate group1.part).group = r.coll % 256 ∧ bitAt r.coll 29 = true ∧ group1.root = false ∧ r.src = group1.parent ∧
       (scalarOf r.data).2 = (c.gate 0).epoch ∧ (c.gate 0).state = .reducing) ∧
    (∀ e ∈ [0, 1], let r := scalarPkt 7 e (2 ^ 29 + 2 ^ 28 + 1); let c := grouped r { state := .collecting } []
      c.holdsPacket 0 4 r ∧ r.scalarBad = false ∧ bitAt r.coll 28 = true ∧ tabFind c.coll.groups (r.coll % 256) = some group1 ∧ group1.stageBase = r.addr ∧
        c.domainOf group1.part = r.domain ∧ (c.gate group1.part).group = r.coll % 256 ∧ bitAt r.coll 29 = true ∧ group1.root = false ∧ r.src = group1.parent ∧
        (c.gate 0).result = none ∧ (scalarOf r.data).2 = e ∧ (c.gate 0).epoch = 0 ∧ (c.gate 0).state = .collecting) := by
  unfold Chip.holdsPacket
  exact ⟨by decide +kernel, by decide +kernel, by decide +kernel⟩

/-- A running gather at its stage, with one outstanding tag of an issuer and a response for it. -/
def gathering (k : Cmd) (who : Issuer) (t : Nat) (tags : Tab Outstanding) : Chip :=
  { work k .ready with time := t, links := { inbox := [pkt 8 6 0 0 2 0 []], tags := tags ++ [(10, { issuer := who, issuedAt := 0 })] }
                       coll := { groups := [(1, group1)] } }

theorem witness_RequestsEnd (k : Cmd) (hk : k = { run 0x72 0x6000 [(16, 1)] with stage := 1 }) :
    (∀ tags ∈ [([] : Tab Outstanding), [(9, { issuer := .scalar, issuedAt := 0 })], [(9, { issuer := .gather 1, issuedAt := 0 })]],
      let c := gathering k .scalar 0 tags
      c.holdsPacket 0 8 (pkt 8 6 0 0 2 0 []) ∧ (pkt 8 6 0 0 2 0 []).tag = 9 ∧ tabFind c.links.tags 9 = (tags.head?).map Prod.snd ∧ c.runs 1 0x72 k ∧ k.stage = 1 ∧
        (pkt 8 6 0 0 2 0 []).fld 7 1 = 6 ∧ (c.event (k.fld 18 2)).waiters.contains 1 = false) ∧
    (∀ t ∈ [999999, 1000000], ∀ who ∈ [Issuer.scalar, .gather 1], let c := gathering k who t []
      tabFind c.links.tags 10 = some { issuer := who, issuedAt := 0 } ∧ 0 + 1000 * max 1 c.links.txnTimeout = 1000000 ∧ c.runs 1 0x72 k ∧
        (c.event (k.fld 18 2)).waiters.contains 1 = false) := by
  subst hk
  unfold Chip.holdsPacket Chip.runs
  exact ⟨by decide +kernel, by decide +kernel⟩

/-- A chip that runs a collective command with group 1 bound. -/
def coll1 (k : Cmd) (launches : Tab Launch) (e : Event) : Chip :=
  { work k .ready with coll := { groups := [(1, group1)], launches := launches }, events := [(3, e)] }

/-- Its regulators limit nothing. -/
theorem part0_free (i : Nat) : (part0.regs.getD i (0, 0)).1 = 0 := by
  match i with
  | 0 => rfl
  | 1 => rfl
  | 2 => rfl
  | 3 => rfl
  | 4 => rfl
  | _ + 5 => rfl

theorem witness_CollectiveCommands :
    (let k : Cmd := { run 0x70 0x6000 [(16, 1)] with ctx := List.replicate 64 0 }; (work k .ready).runs 1 0x70 k) ∧
    (let k := run 0x73 0x6000 [(16, 1)]; (coll1 k [] {}).runs 1 0x73 k) ∧
    (let k := run 0x71 0x6000 [(16, 1)]; (coll1 k [] {}).runs 1 0x71 k ∧ k.stage = 0) ∧
    (let k : Cmd := { run 0x71 0x6000 [(16, 1)] with stage := 2 }
     let l : Launch := { e0 := 0, epoch := 0, group := 1, stage := 0x100000, hop := 1, part := 0, tiles := [.done], nf := false }
     let c := coll1 k [(1, l)] {}
     c.runs 1 0x71 k ∧ k.stage ≠ 0 ∧ k.tclass = 6 ∧ tabFind c.coll.launches 1 = some l ∧ l.group = k.fld 16 1 ∧ (∀ u ∈ l.tiles, u = .done) ∧
       bitAt (k.fld 17 1) 0 = false ∧ ∀ j ∈ c.cmds, j.phase = .running → j.opcode = 0x71 ∨ j.opcode = 0x21 → j.id = 1) ∧
    (let k : Cmd := { run 0x71 0x6000 [(16, 1), (20, 0), (22, 1), (24, 32), (26, 32)] with stage := 1 }
     let c := coll1 k [] {}
     c.runs 1 0x71 k ∧ k.stage = 1 ∧ c.part? (c.own k) = some part0 ∧ part0.state = .resident ∧ tabFind c.coll.groups (k.fld 16 1) = some group1 ∧
       c.accumHeld k (k.fld 19 1) = false ∧ 2 ≤ group1.g ∧ c.memHeld = false ∧ c.hbmUp = true ∧ c.ddrUp = true ∧ (group1.member + 2 * group1.g - k.fld 20 2 - 1) % group1.g = 0 ∧
       k.launchElems % 32 = 0 ∧ 0 < k.launchElems ∧ (c.cmds.map (fun j => j.id)).Nodup ∧
       ∀ j ∈ c.cmds, j.phase = .running → j.opcode = 0x71 ∨ j.opcode = 0x21 → j.id = 1) := by
  unfold Chip.runs
  exact ⟨by decide +kernel, by decide +kernel, by decide +kernel, by decide +kernel, by decide +kernel⟩

theorem witness_CollectiveCommands_gather :
    (let k := run 0x72 0x6000 [(16, 1), (20, 4097)]; let c := coll1 k [] {}
     c.runs 1 0x72 k ∧ k.stage = 0 ∧ tabFind c.coll.groups (k.fld 16 1) = some group1 ∧ k.gatherPiece group1 0 + k.fld 20 4 < 2 ^ 64 ∧
       c.dramLets (c.own k) [(k.gatherPiece group1 0, k.fld 20 4)] = true) ∧
    (∀ e ∈ [({ poisoned := true, waiters := [1] } : Event), { count := 1, waiters := [1] }],
      let k : Cmd := { run 0x72 0x6000 [(16, 1), (18, 3)] with stage := 2, data := [0] }; let c := coll1 k [] e
      c.runs 1 0x72 k ∧ k.stage = 2 ∧ c.event (k.fld 18 2) = e ∧ e.waiters = [1] ∧ tabFind c.coll.groups (k.fld 16 1) = some group1 ∧
        group1.g ≤ k.data.getD 0 0 + 2) ∧
    (∀ t ∈ [9999, 10000], let c : Chip := { time := t, gates := [(0, { state := .collecting, sealAt := some 0, lateFold := true, windowUs := 10 })] }
      (c.gate 0).sealAt = some 0 ∧ (c.gate 0).lateFold = true ∧ (c.gate 0).state = .collecting ∧ (c.gate 0).window = false ∧ 1000 * (c.gate 0).windowUs = 10000) := by
  unfold Chip.runs
  exact ⟨by decide +kernel, by decide +kernel, by decide +kernel⟩

/-! ### Tables and partitions -/

/-- An image of object 0, instance 0: a program of one entry, of a generation. -/
def image0 (g : Nat) : List Byte := [0, 1, 0, 0] ++ leBytes 4 g ++ [1, 0, 0, 0, 16] ++ List.replicate 35 0

/-- Its object's row of R49. -/
def obj0 : ObjInfo := { perPart := true, instances := 64, entries := 16384, exact := false, bytes := 16 }

theorem witness_TableCommands_host (b : List Byte) (hb : b = image0 2) (k : Cmd) (hk : k = run 0x80 0x7000 [(16, 2 ^ 63), (24, 48)]) :
    (imgHeader b).ok (k.fld 24 4) = true ∧ bitAt (k.fld 16 8) 63 = true ∧ b.take (k.fld 24 4) = b ∧
    (∀ t ∈ [({} : Table), { active := some (im0 1) }], let c : Chip := { work k .ready with tables := [(tableKey 0 0 0, t)] }
      c.runs 1 0x80 k ∧ k.stage = 0 ∧ c.loadLets k = true ∧ c.mayLoad k obj0 = true ∧ objInfo (imgHeader b).id = some obj0 ∧
        tableKey (imgHeader b).id (c.scopeOf k obj0) (imgHeader b).inst = tableKey 0 0 0 ∧ t.shadow = .empty ∧ (t.active = none ∨ t.active = some (im0 1)) ∧
        serialNewer 32 (imgHeader b).gen (im0 1).gen = true ∧ c.programBytes 0 0 + 16 * (imgHeader b).count ≤ 2 * 2 ^ 20 ∧
        (∀ j ∈ c.cmds, j.opcode = 0x80 → j.phase = .running → j.stage = 1 → j.id = 1) ∧ (c.cmdPart k).bind c.part? = some part0) ∧
    (∀ sh ∈ [Shadow.draining, .loading], let c : Chip := { work k .ready with tables := [(tableKey 0 0 0, { shadow := sh })] }
      c.runs 1 0x80 k ∧ c.loadLets k = true ∧ (c.table (tableKey (imgHeader b).id (c.scopeOf k obj0) (imgHeader b).inst)).shadow = sh) := by
  subst hb hk
  unfold Chip.runs
  exact ⟨by decide +kernel, by decide +kernel, by decide +kernel, by decide +kernel, by decide +kernel⟩

/-- Memory that holds the same image at 0. -/
def imaged (k : Cmd) : State := { st (work k .ready) with mem := { cells := [(1, 1), (4, 2), (8, 1), (12, 16)], lines := [] } }

/-- The image in HBM at 0, and loads of either source waiting for its shadow. -/
theorem witness_TableCommands_local (k : Cmd) (hk : k = run 0x80 0x7000 [(24, 48)]) :
    (bitAt (k.fld 16 8) 63 = false ∧ 32 ≤ k.fld 24 4 ∧ (imaged k).chip.loadRange k 32 = none ∧ (imaged k).chip.loadRange k (k.fld 24 4) = none ∧
      (imaged k).chip.loadLets k = true ∧ (imaged k).chip.rdBytes (imaged k).ctx 0 (k.fld 24 4) = image0 2) ∧
    (∀ j ∈ [({ run 0x80 0x7000 [(16, 2 ^ 63), (24, 48)] with stage := 1, ctx := image0 2 } : Cmd), { k with stage := 1, ctx := (image0 2).take 32 }],
      (work j .ready).runs 1 0x80 j ∧ j.stage = 1 ∧ (work j .ready).loadLets j = true ∧ objInfo (imgHeader (image0 2)).id = some obj0 ∧
        (work j .ready).table (tableKey (imgHeader (image0 2)).id ((work j .ready).scopeOf j obj0) (imgHeader (image0 2)).inst) = {} ∧
        ((bitAt (j.fld 16 8) 63 = true ∧ image0 2 = j.ctx) ∨
          (bitAt (j.fld 16 8) 63 = false ∧ (imaged j).chip.rdBytes (imaged j).ctx (j.fld 16 8) (j.fld 24 4) = image0 2 ∧ (image0 2).take 32 = j.ctx))) := by
  subst hk
  unfold Chip.runs
  exact ⟨by decide +kernel, by decide +kernel⟩

theorem witness_TableCommands_activate : ∀ g ∈ [1, 2], let k := run 0x81 0x7000 [(20, g)]
    let c : Chip := { work k .ready with tables := [(tableKey 0 0 0, { shadow := .valid, image := some (im0 1) })] }
    c.runs 1 0x81 k ∧ objInfo (k.fld 16 1) = some obj0 ∧ c.mayLoad k obj0 = true ∧
      (c.table (tableKey (k.fld 16 1) (c.scopeOf k obj0) (k.fld 17 1))).shadow = .valid ∧
      (c.table (tableKey (k.fld 16 1) (c.scopeOf k obj0) (k.fld 17 1))).image = some (im0 1) ∧ (im0 1).gen = 1 ∧ k.fld 20 4 = g := by
  unfold Chip.runs; decide +kernel

/-- The manager's command on partition 0 of function 1. -/
def managed (op : Nat) (fs : List (Nat × Nat)) (ctx : List Byte) (pt : Part) : Cmd × Chip :=
  let k : Cmd := { run op 0x7000 fs with ctx := ctx }
  (k, { parts := [(0, { pt with fn := 1 })], cmds := [k] })

theorem witness_PartitionCommands :
    (let r := managed 0x90 [(16, 15)] (List.replicate 128 0) part0; r.2.runs 1 0x90 r.1 ∧ r.1.fld 16 1 = 15) ∧
    (∀ op ∈ [0x92, 0x93, 0x91, 0x94], let r := managed op [(18, 1), (32, 2 ^ 40)] (List.replicate 128 0) part0
      r.2.runs 1 op r.1 ∧ r.2.part? (r.1.fld 16 1) = some { part0 with fn := 1 } ∧ (∀ j ∈ r.2.cmds, r.2.cmdPart j ≠ some (r.1.fld 16 1)) ∧
        (∀ e ∈ r.2.bridge.rings, e.2.tPart ≠ 0 ∧ e.2.sPart ≠ 0) ∧ r.2.pairs.Pairwise (fun a b => a.1 < b.1) ∧ part0.state ≠ .stopping) ∧
    (∀ ps ∈ [PState.idle, .resident], let k := run 0x95 0x7000 []; let c : Chip := { parts := [(0, { part0 with state := ps })], cmds := [k] }
      c.runs 1 0x95 k ∧ c.cmdPart k = some 0 ∧ c.part? 0 = some { part0 with state := ps } ∧ k.stage ≠ 1) ∧
    (∀ b ∈ [63, 128], let r := managed 0x96 [(16, b)] [] part0; r.2.runs 1 0x96 r.1 ∧ bitAt (r.1.fld 16 1) 7 = (b = 128)) := by
  unfold Chip.runs
  exact ⟨by decide +kernel, by decide +kernel, by decide +kernel, by decide +kernel⟩

/-- Partition 0 in a state, ready with a waiting cell command; pair 0 free or held by partition 1. -/
def contested (ps : PState) (held : Option Nat) : Chip :=
  { parts := [(0, { part0 with state := ps, prio := 1 }), (1, { part0 with fn := 1, prio := 0, state := .resident })], cmds := [cmd 0x10 0 []]
    pairs := [(0, { resident := held })] }

theorem witness_GrantsAndStops :
    (∀ held ∈ [none, some 1], let c := contested .idle held
      c.part? 0 = some { part0 with state := .idle, prio := 1 } ∧ c.pairs.Pairwise (fun a b => a.1 < b.1) ∧ (c.cmds.map (fun k => k.id)).Nodup ∧
        c.power.pstate = 0 ∧ c.fatal = 0 ∧ (c.noteParts (st c).ctx).candidates = [0] ∧ (∀ q ∈ bitsOf 48 part0.pairs, c.pairLost (st c).fuse q = false) ∧
        (c.pairRes 0).resident = held ∧ ∀ q ∈ bitsOf 48 part0.pairs, q ≠ 0 → (c.pairRes q).resident = none) ∧
    ((contested .idle (some 1)).part? 1 = some { part0 with fn := 1, prio := 0, state := .resident } ∧ part0.preempt = true ∧ 0 ∈ bitsOf 48 part0.pairs) ∧
    (contested .stopping none).allCheap { part0 with state := .stopping, prio := 1 } = true ∧ (contested .stopping none).tiers.windows = [] ∧
    (∀ t ∈ [9999, 10000], let pt : Part := { part0 with state := .stopping, stopDeadline := 10 }
      let c : Chip := { time := t, parts := [(0, pt)], sqs := [(1, { state := 1 })] }
      c.part? 0 = some pt ∧ c.allCheap pt = false ∧ pt.stopAt + 1000 * pt.stopDeadline = 10000) ∧
    (contested .spilling none).part? 0 = some { part0 with state := .spilling, prio := 1 } ∧
    (let c : Chip := { contested .restoring none with power := { domains := (List.range 48).map (fun d => (d, { on := true })) }
                                                      pairs := (List.range 48).map (fun q => (q, { last := some 0 })) }
     c.part? 0 = some { part0 with state := .restoring, prio := 1 } ∧ (∀ q ∈ bitsOf 48 part0.pairs, (c.domain q).on = true ∧ (c.pairRes q).last = some 0)) := by
  exact ⟨by decide +kernel, by decide +kernel, by decide +kernel, by decide +kernel, by decide +kernel, by decide +kernel, by decide +kernel⟩

/-- A program of one range, 64 bytes of rank 0's scratchpad. -/
def range1 : Table := { active := some { gen := 1, count := 2, body := List.replicate 16 0 ++ [0, 0, 0, 0, 0, 0, 0, 0, 1] ++ List.replicate 7 0 } }

/-- A stop at a cheap point whose spill image memory does not answer for, or does; and a spill held back. -/
theorem witness_GrantsAndStops_held : ∀ up ∈ [true, false], ∀ ps ∈ [PState.stopping, .spilling, .restoring],
    let r : SpillRange := { rank := 0, space := 0, off := 0, len := 64 }
    let pt : Part := { part0 with state := ps, spilled := if ps = .stopping then [] else [r], spillHeld := decide (ps = .spilling) }
    let c : Chip := { parts := [(0, pt)], sqs := [(0, { state := 1, prog := some 0 })], tables := [(tableKey 0 0 0, range1)], tiers := if up then tiersUp else {} }
    c.part? 0 = some pt ∧ c.pairs.Pairwise (fun a b => a.1 < b.1) ∧ (c.cmds.map (fun k => k.id)).Nodup ∧ c.tiers.windows = [] ∧ c.allCheap pt = true ∧
      (c.liveRanges 0 pt).filter pt.spillFits = [r] ∧ c.imagesUp pt [r] = up := by decide +kernel

/-! ### Link ports -/

/-- Port 0 in a state whose entry has an ACTION, a timeout of 5 µs to state 2, and a first condition. -/
def trained (act cond : Byte) (p : LinkPort) (t : Nat) : Chip :=
  { time := t, links := { ports := [(0, { p with entry := some ([act, 0, 0, 0, 5, 0, 0, 0, 2, 0, 0, 0, 0, 0, 0, 0, cond, 1] ++ List.replicate 14 0) })] } }

/-- A port whose state carries DATA flits, LINK_UP. -/
def upPort (p : LinkPort) : Chip :=
  { links := { ports := [(0, { p with entry := some ([7, 1] ++ List.replicate 30 0) })] } }

/-- Lanes that see nothing. -/
def dark : LaneView := { signal := 0, pmd := 0, locked := 0, reversed := false }

/-- A view whose lanes have locked. -/
def lit (l : Nat) : LaneView := { signal := 255, pmd := 255, locked := l, reversed := true }

theorem witness_LinkTraining :
    (let c := trained 1 15 {} 5000; c.linkOn = true ∧ entryBad (c.portRaw (c.link 0)) = true) ∧
    (∀ cond ∈ ([0, 14] : List Byte), let c := trained 1 cond {} 5000; let p := c.link 0
      c.linkOn = true ∧ entryBad (c.portRaw p) = false ∧ entryFld (c.portEntry p) 0 1 = 1 ∧ c.power.linkLost = false ∧
        ({ p with signalLost := dark.signal &&& p.usedLanes ≠ p.usedLanes, lanes := 0 } : LinkPort).next (c.portEntry p) c.time dark =
          (if cond = 14 then some (14, 1) else none)) ∧
    (∀ act ∈ ([3, 4] : List Byte), ∀ l ∈ [0xFF, 0x0F, 0xF0, 0x3C], let c := trained act 0 {} 0; let p := c.link 0
      entryBad (c.portRaw p) = false ∧ entryFld (c.portEntry p) 0 1 = act.toNat ∧
        ∀ w ∈ [0, 4, 8], ({ p with signalLost := (lit l).signal &&& p.usedLanes ≠ p.usedLanes, lanes := l, width := w, reversed := true } : LinkPort).next
          (c.portEntry p) c.time (lit l) = none) ∧
    (∀ t ∈ [4999, 5000], let c := trained 1 0 {} t; let p := c.link 0
      entryFld (c.portEntry p) 4 4 = 5 ∧ p.enteredAt = 0 ∧
        ({ p with signalLost := dark.signal &&& p.usedLanes ≠ p.usedLanes, lanes := 0 } : LinkPort).next (c.portEntry p) c.time dark = none) ∧
    (∀ n ∈ [2047, 2048], ∀ from_ ∈ [4094, 4095], let f : TxFlit := { seq := 0, vc := 0, sop := true, eop := true, payload := [] }
      let p := (upPort { replay := [f], replayAt := some 0, replayFrom := from_, idleAck := n }).link 0
      p.replay ≠ [] ∧ p.retryCfg / 65536 = 2048 ∧ (p.replayAt ≠ none ∧ p.replayFrom = (p.replay.head?.map (fun f => (f.seq + 4095) % 4096)).getD 4095 ↔ from_ = 4095)) ∧
    (∀ t ∈ [999999, 1000000], ((trained 1 0 {} t).link 0).ucwStart = 0 ∧ (trained 1 0 {} t).time = t) := by
  exact ⟨by decide +kernel, by decide +kernel, by decide +kernel, by decide +kernel, by decide +kernel, by decide +kernel⟩

/-- One DATA flit of one byte, first of its packet or not, of a sequence number. -/
def flit1 (sop : Bool) (seq : Nat) : List Byte := (TxFlit.flit { seq := seq, vc := 0, sop := sop, eop := true, payload := [9] }).bytes

/-- It is good, whatever its number. -/
theorem flit1_good : ∀ sop ∈ [true, false], ∀ q ∈ [0, 4095], flitBad (flit1 sop q) = false := by
  intro sop hs q hq
  have h := flit_carries_crc (TxFlit.flit { seq := q, vc := 0, sop := sop, eop := true, payload := [9] }) (Nat.le_of_ble_eq_true rfl)
  have hl : (flit1 sop q).length = 256 := h.1
  have hc : leNat (((flit1 sop q).drop 248).take 8) = crc64 ((flit1 sop q).take 248) := h.2
  have hf : ∀ sop ∈ [true, false], ∀ q ∈ [0, 4095], (flitOfBytes (flit1 sop q)).kind = 1 ∧ (flitOfBytes (flit1 sop q)).len = 1 := by decide
  obtain ⟨hk, hn⟩ := hf sop hs q hq
  simp [flitBad, hl, hc, hk, hn]

theorem witness_FlitReceive : (∀ sop ∈ [true, false], ∀ q ∈ [0, 4095], let f := flitOfBytes (flit1 sop q)
      f.kind = 1 ∧ f.ackValid = false ∧ f.nak = false ∧ f.seq = q ∧ f.sop = sop ∧ f.vc = 0) ∧
    flitBad [] = true ∧ ((upPort {}).link 0).expected = 0 ∧ (upPort {}).linkOn = true ∧ (upPort {}).portAction ((upPort {}).link 0) = 7 ∧
    (∀ rx ∈ [[], [({ vc := 0, flits := [], whole := true } : RxPacket)]], let p := (upPort { rxQueue := rx }).link 0
      tabFind p.cut 0 = none ∧ ∀ q ∈ p.rxQueue, q.whole = true ∨ q.vc ≠ 0) ∧
    (let p := (upPort { rxQueue := [{ vc := 0, flits := [[7]], whole := false }] }).link 0
     tabFind p.cut 0 = none ∧ ∃ q ∈ p.rxQueue, q.whole = false ∧ q.vc = 0) ∧
    ((upPort { expected := 2046 }).link 0).expected + 4096 - 4095 = 2047 := by
  refine ⟨by decide, by decide, by decide, by decide, by decide, by decide, ⟨by decide, _, List.mem_singleton.mpr rfl, rfl, rfl⟩, by decide⟩

/-- A route table with device 5 over port 0 and this device, 3, here. -/
def routes : Table :=
  { active := some { gen := 1, count := 4096, body := List.replicate 24 0 ++ [0, 0, 0, 3, 0, 0, 0, 0] ++ List.replicate 8 0 ++ [1, 0, 0, 1, 0, 0, 0, 0] } }

/-- That chip with port 0 up. -/
def routed (p : LinkPort) (out : List (Packet × Option Nat)) : Chip :=
  { links := { ports := [(0, { p with entry := some ([6, 1] ++ List.replicate 30 0) })], out := out, deviceId := 2 ^ 31 + 3 }, tables := [(tableKey 7 16 0, routes)] }

/-- A response to a device, and the same as it stands in a receive buffer. -/
def answerTo (d : Nat) : Packet := PacketSpec.make { type := 8, vc := 2, dst := d, op := 0, tag := 0, domain := 0, flow := 0, addr := 0, len := 0, coll := 0, data := [] } 3
def rx (d : Nat) (old : Bool) : RxPacket := { vc := 2, flits := (answerTo d).payloads, whole := true, old := old }

theorem witness_FlitsAndPackets :
    (∀ d ∈ [3, 5, 6], let c := routed {} [(answerTo d, none)]
      c.links.out = [(answerTo d, none)] ∧ (answerTo d).type = 8 ∧ (c.routeTo (answerTo d).dst).map (fun r => r.here) = (if d = 6 then none else some (decide (d = 3))) ∧
        (d = 5 → (c.routeTo (answerTo d).dst).bind (fun r => c.routePort r (answerTo d)) = some 0)) ∧
    (∀ bs ∈ [[], [[2]]], ∀ n ∈ [0, 1], ∀ o ∈ [none, some (1, 1)],
     let q : TxPacket := { flits := [1] :: bs, entering := false, started := false, more := n, origin := o }
     let c := routed { txQueue := [(1, [q])], credit := [0, 4, 0, 0, 0, 0, 0, 0] } []
     c.portAction (c.link 0) = 6 ∧ (c.link 0).replayAt = none ∧ (c.link 0).arbitrate = some 1 ∧ tabGet [] (c.link 0).txQueue 1 = [q]) ∧
    ((routed {} []).link 0).arbitrate = none ∧
    (∀ d ∈ [3, 5], ∀ old ∈ [true, false], let c := routed { rxQueue := [rx d old] } []
      (c.link 0).rxQueue = [rx d old] ∧ (rx d old).wellFormed = true ∧ (rx d old).pkt.fld 6 1 ≠ 1 ∧ 32 ≤ ((rx d old).flits.headD []).length ∧
        (c.routeTo (rx d old).pkt.dst).map (fun r => r.here) = some (decide (d = 3)) ∧
        (d = 5 → (c.routeTo (rx d old).pkt.dst).bind (fun r => c.routePort r (rx d old).pkt) = some 0)) := by
  exact ⟨by decide +kernel, by decide +kernel, by decide +kernel, by decide +kernel⟩

/-! ### Memory tiers, domains and power -/

/-- The state after reset with another chip and other fuses. -/
def stf (c : Chip) (fz : Fuses) : State := { st c with fuse := fz }

theorem stf_sound (c : Chip) (fz : Fuses) (h : c.between = c) (hl : fz.lifecycle ≤ 4) (hi : ∀ i, fz.intent = some i → i.dest ≤ 4) :
    (stf c fz).sound := ⟨rfl, h, hl, hi⟩

/-- HBM stack 0 running, its bank 3 owing a number of refreshes, row 9 open. -/
def tiered (n : Nat) : Chip := { tiers := { units := [(0, { trained := true, zeroDone := true, postponed := [(3, n)], open_ := [(3, 9)] })] } }

theorem witness_MemoryTiers :
    (∀ n ∈ [7, 8], (tiered n).tierRuns 0 = true ∧ tabGet 0 ((tiered n).tier 0).postponed 3 = n) ∧ (({} : Chip).tierRuns 0 = false) ∧
    ((tiered 0).reg (tierFrame 0) 0x104 32 ≠ 0 ∧ ((tiered 0).setReg (tierFrame 0) 0x104 0).reg (tierFrame 0) 0x104 32 = 0) ∧
    (tiered 0).reg (tierFrame 0) 0x108 24 ≠ 0 ∧
    (let c : Chip := { power := { domains := [(60, { on := true })] } }
     c.sramOn (bridgeAddr 0x9FFFFC0) = true ∧ c.power.off = false ∧ c.store (bridgeAddr 0x9FFFFC0) 1 = some .bridge ∧
       (∀ k < 3, c.sramOn (hubAddr k + 0xFFFFFF) = true ∧ c.store (hubAddr k + 0xFFFFFF) 1 = some (.hub k)) ∧ c.fatal = 0 ∧ c.power.pstate ≠ 4) ∧
    (∀ h ∈ [Health.ce [0], .ue, .poison], ({ cells := [], lines := [(evtLine 65535, h)] } : Memory).health (evtLine 65535) = h ∧
      ({ cells := [], lines := [((5 * 2 ^ 48 + hubAddr 1 - 2 ^ 44) / 64, h)] } : Memory).health (State.reset.chip.key State.reset.fuse (hubAddr 1) / 64) = h) ∧
    (let c : Chip := { sec := { verified := true }, tiers := { ddrChannels := [2] } }
     c.sec.verified = true ∧ (c.tier 0).zeroDone = false ∧ c.tiers.hbmFailed = false ∧ c.tiers.ddrChannels ≠ [] ∧
       (∀ k ∈ c.tiers.ddrChannels, (c.tier (16 + k)).zeroDone = false) ∧ (∀ k ∈ c.tiers.ddrChannels, k ∉ [3]) ∧ ∃ k ∈ c.tiers.ddrChannels, k ∈ [2]) :=
  ⟨by decide +kernel, by decide, by decide +kernel, by decide +kernel, by decide +kernel, by decide +kernel, by decide +kernel⟩

/-- Domain 47 in a state, at a time in ns; pair 47 held by partition 0 or not. -/
def domained (d : Domain) (t : Nat) (used : Bool) : Chip :=
  { time := t, power := { domains := [(47, d)] }, pairs := if used then [(47, { resident := some 0 })] else [] }

theorem witness_DomainsAndClocks :
    ((domained {} 0 true).domainWanted 47 = true ∧ ((domained {} 0 true).domain 47).on = false ∧ ((domained {} 0 true).domain 47).failed = false) ∧
    (∀ t ∈ [9999, 10000, 49999, 50000], ∀ a ∈ [0, 1], let c := domained { switching := true, attempts := a } t true
      (c.domain 47).switching = true ∧ (c.domain 47).startedAt = 0 ∧ (c.domain 47).attempts = a ∧ c.tiers.windows = []) ∧
    (∀ t ∈ [99999, 100000], let c := domained { on := true } t false
      (c.domain 47).on = true ∧ c.domainWanted 47 = false ∧ (c.domain 47).usedAt + 1000 * (c.campCtrl / 65536) = 100000) ∧
    (State.reset.chip.power.off = false ∧ State.reset.chip.power.pstate ≠ 4 ∧ ∀ p < 2, State.reset.chip.power.pllFed.getD p false = false) :=
  ⟨by decide +kernel, by decide +kernel, by decide +kernel, by decide⟩

theorem witness_SupplyAndPowerUp :
    Instr.lastMateBreak ∈ [Instr.overcurrentTrip, .bulkUndervoltage, .inputBelow40v, .inputAbove62v, .lastMateBreak] ∧ State.reset.chip.power.off = false ∧
    (∀ l ∈ [true, false], ∀ e ∈ [true, false], let c : Chip := { power := { off := true, latched := l }, pins := { pwrEn := e } }
     c.power.off = true ∧ c.pins.lastMate = true ∧ (st c).fuse.intent = none ∧ ((c.power.latched && c.pins.pwrEn) = false ↔ l = false ∨ e = false) ∧
       46000 ≤ 60000 ∧ ¬ 46000 ≤ 45999) :=
  ⟨by decide, rfl, by decide⟩

theorem witness_PowerStates :
    (∀ p ∈ [0, 3, 4], let c : Chip := { power := { pstate := p } }
      c.power.off = false ∧ c.campWrites (st c).fuse .mgmt = true ∧ c.mayWrite .mgmt { blk := .campion, inst := 0 } 0x10C = true ∧ c.standbyErr = 0 ∧
        c.tripHolds = false ∧ c.power.pstate = p ∧ c.power.trans = none ∧ (st c).fuse.intent = none) ∧
    (∀ e ∈ [40, 41], ∀ target ∈ [0, 3], let c : Chip := { power := { pstate := 3, trans := some { target := target, ends := e } } }
      c.power.off = false ∧ c.campWrites (st c).fuse .mgmt = true ∧ c.mayWrite .mgmt { blk := .campion, inst := 0 } 0x10C = true ∧
        c.power.trans = some { target := target, ends := e } ∧ (c.time + 40 < e ↔ e = 41)) ∧
    ({ bridge := { rings := [(0, ring0 [] none)] } } : Chip).standbyErr = 3 ∧
    ((51 < 52 ∧ (1840 : Int) ≤ 1840) ∧ (52 ≤ 63 ∧ 63 < 64 ∧ (1680 : Int) ≤ 1680) ∧
      ¬ ((51 < 52 ∧ (1840 : Int) ≤ 1839) ∨ (52 ≤ 51 ∧ 51 < 64 ∧ (1680 : Int) ≤ 1839)) ∧
      ¬ ((64 < 52 ∧ (1840 : Int) ≤ 2000) ∨ (52 ≤ 64 ∧ 64 < 64 ∧ (1680 : Int) ≤ 2000))) ∧
    State.reset.chip.power.inputFault = false :=
  ⟨by decide +kernel, by decide +kernel, by decide +kernel, by decide, rfl⟩

theorem witness_ReadingsAndGovernor :
    (∀ t ∈ [999, 1000, 9999, 10000], let c : Chip := { time := t }
      c.power.off = false ∧ c.power.measureAt = 0 ∧ c.power.monitorAt = 0 ∧ c.power.sensorAt = 0 ∧ c.power.governorAt = 0 ∧ c.power.energyAt = 0) ∧
    ([(111, 40), (112, 41)].map Prod.fst).Nodup ∧ (∀ x ∈ [((60 : Nat), (1600 : Int)), (67, 0)], x.1 < 68) ∧
    (let c : Chip := { power := { sensors := [(0, 1568)] } }; c.domainTemp 0 = some 1568 ∧ 16 * c.throttleC = 1600) :=
  ⟨by decide, by decide, by decide, by decide +kernel⟩

theorem witness_DeviceResets :
    (State.reset.chip.power.off = false ∧ ¬ (State.reset.chip.power.pstate = 4 ∧ State.reset.chip.tripHolds = true) ∧ State.reset.fuse.intent = none) ∧
    (let s := stf {} { lifecycle := 1, intent := some { dest := 1 } }
     s.sound ∧ s.chip.power.off = false ∧ s.chip.power.pstate ≠ 4 ∧ s.fuse.intent = some { dest := 1 } ∧ s.fuse.lifecycle ≤ 1) ∧
    State.reset.chip.reaches State.reset.fuse (.pf State.reset.chip.primary) { blk := .pcie, inst := State.reset.chip.primary } = true ∧
    (let c : Chip := { power := { pstate := 4, thermtrip := true, sensors := [(51, 1680)] } }; ¬ (c.power.off = false ∧ ¬ (c.power.pstate = 4 ∧ c.tripHolds = true))) ∧
    ¬ ((Requester.pf 1) = .pf State.reset.chip.primary) ∧
    (({ pins := { resetN := false } } : Chip).pins.resetN = false ∧ State.reset.chip.pins.resetN = true) ∧ (State.reset.chip.hdr 3).ctr.length = 8 :=
  ⟨by decide +kernel, ⟨stf_sound _ _ rfl (by decide) (fun i h => by cases h; decide), by decide, by decide, by decide, by decide⟩, by decide +kernel, by decide +kernel,
    by decide, by decide, by decide +kernel⟩

theorem witness_PortsAndFunctions :
    (let c : Chip := { sec := { verified := true }, pins := { perstN := [false, true] } }
     c.power.off = false ∧ c.power.pstate ≠ 4 ∧ c.pins.perstN.getD 1 false = true ∧ (4 ∈ [1, 2, 4, 8, 16]) ∧ (∀ e ∈ [(1, false), (3, false), (4, true), (4, false), (6, true)], (e.1 = 6 → e.2 = true) ∧ (e.1 < 4 → e.2 = false)) ∧ c.fnWrites (32 * 1) = true) ∧
    (let c : Chip := { pcie := [(1, { vfEnable := true, numVfs := 31 })], sqs := [(256 * 63, {})] }
     63 / 32 = 1 ∧ c.fnExists 63 = true ∧ 63 % 32 ≠ 0 ∧ (∀ fn, c.partOfFn fn = none) ∧ (∀ k ∈ c.cmds, k.fn ≠ 63) ∧ c.sqs.Pairwise (fun a b => a.1 < b.1) ∧
       c.fnWrites 32 = true) ∧
    (let k : Cmd := { run 0x10 0 [(1, 8), (10, 4)] with fn := 63 }
     let pt : Part := { part0 with fn := 63, fault := true, keepLost := [1] }
     let c : Chip := { pcie := [(1, { vfEnable := true, numVfs := 31 })], parts := [(0, pt)], cmds := [k] }
     c.fnExists 63 = true ∧ c.partOfFn 63 = some 0 ∧ c.part? 0 = some pt ∧ pt.state ≠ .stopping ∧ c.cmd? k.id = some k ∧ k.phase = .running ∧ k.flag 3 = true ∧
       (∀ j ∈ c.cmds, j ≠ k → j.id ≠ k.id ∧ j.fn ≠ 63 ∧ c.cmdPart j ≠ some 0) ∧ (c.event (k.fld 10 2)).waiters = []) :=
  ⟨by decide +kernel, ⟨by decide, by decide +kernel, by decide, fun _ => rfl, by decide, by decide, by decide +kernel⟩, by decide +kernel⟩

/-- A flash that holds nothing fails check 1 of R387. -/
theorem witness_BootAndSupervision :
    (State.reset.chip.booting = true ∧ (stf { sec := { verified := true } } {}).chip.booting = false ∧ ({ lifecycle := 4 } : Fuses).lifecycle = 4) ∧
    (State.reset.fuse.lifecycle ≠ 4 ∧ State.reset.chip.sec.force = false ∧
      imageCheck State.reset.fuse (fun o n => State.reset.chip.rdBytes State.reset.ctx (flashAddr o) n) none = 1) ∧
    ({ sec := { force := true } } : Chip).sec.force = true ∧
    (∀ t ∈ [999999999, 1000000000], let c : Chip := { time := t, sorrel := { running := true } }
      c.sorrel.running = true ∧ c.sorrel.halted = false ∧ bitAt c.wdtCtrl 31 = true ∧ c.sorrel.lastKick + c.wdtPeriod = 1000000000) ∧
    (∀ v ∈ [({ on := true } : Domain), { failed := true }, {}], let c : Chip := { selftest := { busy := true, index := 47 }, power := { domains := [(47, v)] } }
     c.selftest.busy = true ∧ (Finding.columns 99 true [3]).phys ∈ c.selftest.units State.reset.fuse ∧ c.domain c.selftest.domain = v ∧ v.switching = false ∧
       ({ c with selftest.busy := false } : Chip).domainWanted c.selftest.domain = false) := by
  refine ⟨by decide, ⟨by decide, rfl, ?_⟩, rfl, by decide +kernel, by decide +kernel⟩
  have h : ctxFld (State.reset.chip.rdBytes State.reset.ctx (flashAddr 0) 4096) 0 4 = 0 := by
    simp only [ctxFld, Chip.rdBytes, List.drop_zero, ← List.map_take, List.take_range]
    decide +kernel
  simp [imageCheck, imageFormOk, h]

/-! ### Security -/

/-- The hypotheses that no token stands in: an accepted token of a lifecycle operation, or an enrolment, quotes the nonce, which is a free value, under a
signature, so no literal one can be written out. A token of DBG_UNLOCK in MFG has none: `tokenChip_accepted`. -/
theorem witness_LifecycleOperations :
    ((st {}).mailboxFree .mgmt ∧ Requester.mgmt ≠ .jtag) ∧ (refusedIn 0 0 0x01 = false ∧ refusedIn 1 0 0x01 = true ∧ refusedIn 0 0 0x02 = false) ∧
    (({} : Chip).lcCheck { lifecycle := 1 } 0x03 [0] = 1 ∧ ({} : Chip).lcCheck {} 0x03 [0] = 0 ∧ ({} : Chip).lcCheck { lifecycle := 1 } 0x10 [1] = 0 ∧
      ({} : Chip).lcCheck { lifecycle := 2 } 0x10 [1] ≠ 0 ∧ ({} : Chip).lcCheck { lifecycle := 2 } 0x11 [2] = 0 ∧ ({} : Chip).lcCheck { lifecycle := 2 } 0x12 [1, 2] = 0 ∧
      ({} : Chip).lcCheck { lifecycle := 3 } 0x13 [1, 2, 3] = 0) ∧
    (({ ident := { key := some 1, chain0 := [0x30, 0] } } : Fuses).ident.key ≠ none) ∧ refusedIn 1 0 0x31 = false ∧
    (let s : State := { st {} with mem := { cells := [(0, 0x30), (1, 2)], lines := [] } }
     chainLen (fun o k => s.chip.rdBytes s.ctx (s.chip.mboxAddr + o) k) 4096 0 = 4 ∧ s.chip.power.pstate = 0 ∧ s.chip.region s.chip.mboxAddr 4 ≠ none ∧
       s.chip.trafficLets none [(s.chip.mboxAddr, 4)] = false ∧ ({ tiers := tiersUp } : Chip).trafficLets none [(s.chip.mboxAddr, 4)] = true) ∧
    (({} : Chip).sec.recovery = false ∧ ({} : Chip).sec.blocked = false ∧ ({ sec := { recovery := true, blocked := true } } : Chip).sec.recovery = true) ∧
    ({} : Chip).rmaCheck { lifecycle := 1 } .mgmt ≠ 0 ∧ (st { sec := { jtagIr := 0x10 } }).mailboxFree .jtag ∧
    (∀ d ∈ [3, 4], let s := stf { sec := { op := 0x12, dbgLevel := 1 } } { lifecycle := 2, intent := some { dest := d } }
      s.fuse.intent = some { dest := d } ∧ s.chip.sec.op ∈ [0x03, 0x10, 0x11, 0x12, 0x13] ∧ s.chip.power.off = false ∧ s.chip.power.trans = none ∧
        s.chip.power.pstate = 0 ∧ s.chip.sec.zeroising = none ∧ s.fuse.lifecycle ≤ d ∧ s.chip.sec.dbgLevel ≠ 0) := by
  refine ⟨⟨⟨by decide +kernel, by decide, rfl⟩, by decide⟩, by decide, by decide +kernel, by decide, by decide, by decide +kernel, by decide, by decide +kernel,
    ⟨by decide +kernel, by decide, rfl⟩, by decide⟩

/-- A transition whose intent is fused commits at the next idle tick (R390). -/
theorem test_intent_commits : nextWith (step (stf { sec := { op := 0x03 } } { intent := some { dest := 1 } }))
    (fun t => t.fuse.lifecycle = 1 ∧ t.fuse.intent = none ∧ t.chip.sec.result = 0 ∧ t.chip.sec.op = 0) :=
  ⟨_, rfl, by decide +kernel, by decide +kernel, by decide +kernel, by decide +kernel⟩

/-- A chip whose mailbox holds a token without signature (key 0xFF) for the management controller, with nonce `n`. -/
def tokenChip (n level part : Nat) : Chip :=
  { regs := [(74, 896), (256, 0x4E4B5444), (257, BitVec.ofNat 32 (0xFF000001 + 256 * level + 65536 * part)), (258, 2),
             (262, BitVec.ofNat 32 n), (263, BitVec.ofNat 32 (n / 2 ^ 32)), (264, BitVec.ofNat 32 (n / 2 ^ 64)), (265, BitVec.ofNat 32 (n / 2 ^ 96))] }

theorem mboxBytes_part (c : Chip) (o m : Nat) (h : o + m ≤ 896) : ((c.mboxBytes 0 896).drop o).take m = c.mboxBytes o m := by
  apply List.ext_getElem
  · simp [Chip.mboxBytes]; omega
  · intro i h1 h2
    simp [Chip.mboxBytes]

theorem mboxBytes_word (c : Chip) (w : Nat) (h : c.reg foxFrame (0x400 + 4 * w) 0 < 2 ^ 32) :
    leNat (c.mboxBytes (4 * w) 4) = c.reg foxFrame (0x400 + 4 * w) 0 := by
  have e (i : Nat) (hi : i < 4) : (4 * w + i) / 4 * 4 = 4 * w ∧ (4 * w + i) % 4 = i := by omega
  simp only [Chip.mboxBytes, List.range, List.range.loop, List.map, leNat, Chip.mboxByte, (e 0 (by omega)).1, (e 0 (by omega)).2, (e 1 (by omega)).1,
    (e 1 (by omega)).2, (e 2 (by omega)).1, (e 2 (by omega)).2, (e 3 (by omega)).1, (e 3 (by omega)).2, BitVec.toNat_ofNat]
  generalize c.reg foxFrame (0x400 + 4 * w) 0 = r at *
  simp
  omega

theorem tokenChip_nonce (n l p : Nat) : ctxFld ((tokenChip n l p).mboxBytes 0 896) 24 16 = n % 2 ^ 128 := by
  rw [ctxFld, mboxBytes_part _ _ _ (by omega)]
  have a (i : Nat) : (tokenChip n l p).mboxBytes 24 16 = (tokenChip n l p).mboxBytes (4 * 6) 4 ++ ((tokenChip n l p).mboxBytes (4 * 7) 4 ++
      ((tokenChip n l p).mboxBytes (4 * 8) 4 ++ (tokenChip n l p).mboxBytes (4 * 9) 4)) := rfl
  have q (xs ys : List Byte) (h : xs.length = 4) : leNat (xs ++ ys) = leNat xs + 2 ^ 32 * leNat ys := by
    match xs, h with
    | [a, b, c, d], _ => simp [leNat]; omega
  have r (w v : Nat) (h : (tokenChip n l p).reg foxFrame (0x400 + 4 * w) 0 = (BitVec.ofNat 32 v).toNat) :
      leNat ((tokenChip n l p).mboxBytes (4 * w) 4) = v % 2 ^ 32 := by
    rw [mboxBytes_word _ _ (by rw [h]; exact BitVec.isLt _), h, BitVec.toNat_ofNat]
  rw [a 0, q _ _ rfl, q _ _ rfl, q _ _ rfl, r 6 n rfl, r 7 (n / 2 ^ 32) rfl, r 8 (n / 2 ^ 64) rfl, r 9 (n / 2 ^ 96) rfl]
  omega

theorem tokenChip_form : ∀ a ∈ [(1, 0xFF), (3, 0)], tokenFormOk ((tokenChip (Config.freeNat 0) a.1 a.2).mboxBytes 0 896) 1 = true := by decide +kernel

/-- Tokens for D1 of no partition and for D3 that are accepted (R397, R398): their nonce is the free value of the state. -/
theorem tokenChip_accepted : ∀ a ∈ [(1, 0xFF), (3, 0)],
    let c := tokenChip (Config.freeNat 0) a.1 a.2
    c.mboxHolds 896 = true ∧ ctxFld (c.mboxBytes 0 896) 5 1 = a.1 ∧ c.tokenCheck {} .mgmt (c.mboxBytes 0 896) 1 (Fuses.debugKeys {}) = 0 ∧
      ∀ part, c.unlockCheck .mgmt a.1 part = 0 := by
  intro a h c
  have m : a = (1, 0xFF) ∨ a = (3, 0) := by simpa using h
  have f : ctxFld (c.mboxBytes 0 896) 8 1 = 2 ∧ ctxFld (c.mboxBytes 0 896) 7 1 = 0xFF ∧ ctxFld (c.mboxBytes 0 896) 16 8 = 0 ∧
      ctxFld (c.mboxBytes 0 896) 5 1 = a.1 := by
    rcases m with h | h <;> subst h <;> decide +kernel
  have g : ctxFld (c.mboxBytes 0 896) 24 16 = c.nonce := tokenChip_nonce _ _ _
  refine ⟨by rcases m with h | h <;> subst h <;> rfl, f.2.2.2, ?_, ?_⟩
  · rw [Chip.tokenCheck, tokenChip_form a h]
    simp [f.1, f.2.1, f.2.2.1, g, holderCode, Fuses.debugKeys]
  · intro part
    rcases m with h | h <;> subst h <;> rfl

theorem witness_DebugAndFirmware :
    (st {}).mailboxFree .mgmt ∧ ¬ ((st {}).fuse.lifecycle = 2) ∧ (st {}).chip.mboxHolds 896 = false ∧
    (∀ l ∈ [0, 1, 2, 3], (st { sec := { dbgLevel := l, dbgHolder := Requester.mgmt.code, op := 0 } }).chip.sec.dbgLevel = l) ∧
    (({ sec := { zeroising := some 65 } } : Chip).sec.zeroising = some 65 ∧ 65 < 66 ∧ 65 ≠ 63) ∧
    (let c : Chip := Chip.setReg { sec := { verified := true } } foxFrame 0x134 4096
     refusedIn 0 c.sec.dbgLevel 0x30 = false ∧ c.sec.verified = true ∧ c.power.pstate = 0 ∧ c.trafficLets none [(c.mboxAddr, 4096)] = false ∧
       ({ tiers := tiersUp } : Chip).trafficLets none [(c.mboxAddr, 4096)] = true ∧ c.recovLen = 4096 ∧ c.region c.mboxAddr c.recovLen = some .hbm ∧
       c.unowned c.mboxAddr c.recovLen = true) ∧
    (∀ op ∈ [0x30, 0x32], ({ sec := { op := op, image := some [7] } } : Chip).sec.op = op ∧ ({ sec := { op := op, image := some [7] } } : Chip).sec.image = some [7]) ∧ ({ sec := { recovery := true } } : Chip).mboxReach {} .mgmt = true := by
  refine ⟨⟨by decide +kernel, by decide, rfl⟩, by decide, by decide +kernel, by decide, by decide, by decide +kernel, by decide, by decide +kernel⟩

/-- Fuses of an OWNED device with a chain of one empty certificate. -/
def owned : Fuses := { lifecycle := 2, ident := { key := some 1, chain0 := [0x30, 0] } }

/-- A responder whose transport 0 stands at a step. -/
def spdm0 (s : Spdm) : Chip := { sec := { spdm := [(0, s)], unwrapped := some 1 } }

theorem witness_SpdmResponder :
    (∀ s ∈ [({} : Spdm), { version := true }, { version := true, caps := true }, { version := true, caps := true, algos := true }],
      (spdm0 s).spdmReach owned 0 = true ∧ (spdm0 s).sec.recovery = false ∧ (spdm0 s).spdmOf 0 = s ∧ (spdm0 s).sec.unwrapped = some 1) ∧
    (({ spdm0 { version := true, caps := true, algos := true } with sec.unwrapped := none } : Chip).sec.unwrapped = none ∧
      bitAt (ctxFld ([0x12, 0xE0, 1, 1] : List Byte) 2 1) 0 = true) ∧
    (let m : List Byte := [0x12, 0xE3, 0, 0, 32, 0, 0, 0, 8, 0, 0, 0, 1] ++ List.replicate 19 0
     ctxFld m 0 1 = 0x12 ∧ ctxFld m 1 1 = 0xE3 ∧ 32 ≤ m.length ∧ bitAt (ctxFld m 8 4) 3 = true ∧ bitAt (ctxFld m 12 4) 0 = true) ∧
    (let m : List Byte := [0x12, 0x82, 0, 0, 0, 0, 0xFF, 0xFF]
     8 ≤ m.length ∧ ctxFld m 4 2 < (chainForm (owned.ident.chain (ctxFld m 2 1 % 16))).length) ∧
    (let m : List Byte := [0x12, 0x83, 0, 0] ++ List.replicate 32 0
     36 ≤ m.length ∧ owned.ident.chain (ctxFld m 2 1 % 16) ≠ [] ∧ ctxFld m 3 1 = 0) ∧
    (let m : List Byte := [0x12, 0xE0, 0, 0xFF]; bitAt (ctxFld m 2 1) 0 = false ∧ ctxFld m 3 1 = 0xFF) ∧
    (let m : List Byte := [0x12, 0xEE, 1, 0, 38, 0] ++ List.replicate 34 0 ++ [0x30, 0]
     owned.lifecycle = 2 ∧ (0 = (spdm0 {}).primary) ∧ ctxFld m 2 1 % 16 = 1 ∧ owned.ident.key = some 1 ∧ m.drop 40 ≠ [] ∧ ctxFld m 4 2 = 36 + (m.drop 40).length) ∧
    spdmCodes.contains 0x85 = false := by
  exact ⟨by decide +kernel, by decide, by decide, by decide +kernel, by decide, by decide, by decide, by decide⟩

theorem witness_ManagementTransports :
    (State.reset.chip.fnReach (32 * 1) = true ∧ State.reset.chip.sec.recovery = false ∧ 65536 < 65537 ∧ 65536 ≤ 65536 ∧ 1 < 2) ∧
    (let m : List Byte := 0x10 :: 0x84 :: List.replicate 65527 0
     (spdm0 {}).spdmReach owned 0 = true ∧ 65528 < m.length ∧ ctxFld m 1 1 = 0x84) ∧
    (let c : Chip := { sorrel := { running := true } }; c.mgmtUp = true) ∧
    (∀ m ∈ ([[0, 0x80, 1, 1, 8], [0, 0x80, 2, 0, 0], [0, 0x80, 3, 0, 0]] : List (List Byte)), ctxFld m 0 1 % 128 = 0 ∧ bitAt (ctxFld m 1 1) 7 = true) ∧
    (({ lifecycle := 4 } : Fuses).lifecycle = 4 ∧ State.reset.fuse.lifecycle ≠ 4) ∧ (3 ∈ [2, 3, 6, 7] ∧ 0x2F ∉ [1, 2, 3, 6, 7]) ∧
    ((∃ l, (some 3 : Option Nat) = some l ∧ l ≤ ({ sec := { dbgLevel := 3 } } : Chip).sec.dbgLevel) ∧
      ¬ ∃ l, (some 3 : Option Nat) = some l ∧ l ≤ State.reset.chip.sec.dbgLevel) ∧
    (({ power := { inputFault := true } } : Chip).alert = true ∧ State.reset.chip.alert = false) := by
  refine ⟨by decide +kernel, ⟨by decide +kernel, by simp only [List.length_cons, List.length_replicate]; omega, by rfl⟩, by decide, by decide, by decide, by decide, ⟨⟨3, rfl, by decide⟩, ?_⟩, by decide⟩
  rintro ⟨l, h, hl⟩
  cases h
  revert hl
  decide

/-! ### The cryptography -/

/-- FIPS 180-4's example: the digest of "abc". -/
theorem test_sha256 : hashNat [0x61, 0x62, 0x63] = 0xBA7816BF8F01CFEA414140DE5DAE2223B00361A396177A9CB410FF61F20015AD := by decide +kernel

/-! ### Well-formed commands -/

/-- One ill-formed term for each kind of check, each refused. -/
theorem wf_refuses : ∀ i ∈ [Instr.regWrite (.pf 2) .control 0 32 0, .regWrite (.vf 0 0) .control 0 32 0, .regWrite (.vf 0 32) .control 0 32 0, .regWrite .mgmt .control 0 24 0,
    .regWrite .mgmt .control 0 32 (2 ^ 32), .softReset .mgmt { blk := .vetch, inst := 24 }, .segOwnerWrite .mgmt 12 0x150 0, .portEnable .mgmt 24 true,
    .sqTailDoorbell 64 0 0, .sqTailDoorbell 0 256 0, .sqTailDoorbell 0 0 (2 ^ 32), .msixUnmask 0 2048, .arrayMm 0 { env0 with feed := 2 ^ 32 },
    .spillBegin 16, .portStateEval 0 { dark with locked := 256 }, .packetRoute (some 24) [], .txnTimeout (2 ^ 32), .refreshDue 12 0 true false 0, .refreshDue 28 0 true false 0,
    .selftestDone [.broken 116], .selftestDone [.columns 0 true [128]], .thermtrip 68 0, .domainSwitchOn 61, .pllRelock 3, .pciePortReset 2 true,
    .pcieLinkTrained 0 7 16 true 0, .pcieLinkTrained 0 6 12 true 0, .hubFatal 0, .getVersion 3 [], .jtagInstruction 256 [], .vfEnable 0 true 32,
    .bootVerify [{ channel := 12, kindOk := true, gb := 64, ranks := 1, x8 := false, mts := 6400 }] true], i.wf = false := by decide +kernel

/-- The bounds themselves are well formed. -/
theorem wf_admits : ∀ i ∈ [Instr.regWrite (.vf 1 31) .control 0 64 (2 ^ 64 - 1), .softReset .jtag { blk := .vetch, inst := 23 }, .segOwnerWrite .mgmt 11 0x154 0,
    .sqTailDoorbell 63 255 (2 ^ 32 - 1), .msixUnmask 63 2047, .spillBegin 15, .refreshDue 27 0 true false 3, .txnTimeout (2 ^ 32 - 1), .selftestDone [.broken 115], .thermtrip 67 0,
    .domainSwitchOn 60, .pcieLinkTrained 1 6 16 true 0, .hubFatal 3, .getVersion 2 [], .vfEnable 1 true 31], i.wf = true := by decide +kernel

end Sys2Proof.Tests
end

section
/-! SUPPORT. Steps that stage nothing answer an equation; what reporting never takes back, and what it leaves of the queues. -/

namespace Sys2Proof.Machine

/-! ### Steps that stage nothing -/

theorem State.sound_unstaged {s : State} (h : s.sound) : s.chip.staged = [] :=
  ((Chip.between_iff s.chip).mp (State.sound_staged h)).1

/-- A step of the chip that stages nothing changes the chip alone. -/
theorem onChip_unstaged {f : Ctx → Chip → Chip} {s : State} (h : s.sound) (hc : (f s.ctx s.chip).staged = []) :
    onChip f s = .next { s with chip := (f s.ctx s.chip).between } := by
  have h' : (f s.ctx s.chip.between).staged = [] := by rw [State.sound_staged h]; exact hc
  obtain ⟨t, ht, heq⟩ := (onChip_idle f s (fun t => t = { s with chip := (f s.ctx s.chip).between }) h').mpr (by rw [State.sound_staged h])
  rw [ht, heq]

/-- A step that may program fuses, but leaves them and stages nothing, changes the chip alone. -/
theorem onFuse_unstaged {f : Ctx → Chip → Chip × Fuses} {s : State} {c : Chip} (h : s.sound) (hf : f s.ctx s.chip = (c, s.fuse))
    (hc : c.staged = []) : onFuse f s = .next { s with chip := c.between } := by
  obtain ⟨t, ht, heq⟩ := (onFuse_next f s (fun t => t = { s with chip := c.between })).mpr (by
    rw [State.sound_staged h, hf, hc, Memory.commit_nil, Fuses.blow_self])
  rw [ht, heq]

/-- A step that leaves the chip of a sound state leaves the state. -/
theorem State.sound_next {s : State} (h : s.sound) :
    (.next { s with chip := s.chip.between } : Host.Outcome State Fault Refusal) = .next s := by
  rw [State.sound_staged h]

/-! ### What reporting never takes back -/

theorem getD_listSet {α : Type} (l : List α) (n m : Nat) (x d : α) :
    (listSet l n x).getD m d = if m = n ∧ n < l.length then x else l.getD m d := by
  induction l generalizing n m with
  | nil => simp [listSet]
  | cons y l ih =>
    cases n with
    | zero => cases m <;> simp [listSet]
    | succ n =>
      cases m with
      | zero => simp [listSet]
      | succ m => simpa [listSet] using ih n m

/-- What reporting never takes back: what was sent stays sent, counters do not fall below their limit of 64 bits, and a vector whose
entry is open does not become pending. -/
structure Chip.Grows (c d : Chip) : Prop where
  outs : ∀ o ∈ c.outbox, o ∈ d.outbox
  ctrs : ∀ f n, min ((c.hdr f).ctr.getD n 0) (2 ^ 64 - 1) ≤ (d.hdr f).ctr.getD n 0
  masks : ∀ fn, (d.fnRegs fn).unmasked = (c.fnRegs fn).unmasked
  pend : ∀ fn v, v ∈ (c.fnRegs fn).unmasked → v ∈ (d.fnRegs fn).pendingVecs → v ∈ (c.fnRegs fn).pendingVecs

namespace Chip.Grows

/-- A change of other fields alone. -/
theorem of_fields {c d : Chip} (ho : d.outbox = c.outbox) (hh : d.headers = c.headers) (hf : d.fns = c.fns) : c.Grows d where
  outs _ h := ho ▸ h
  ctrs _ _ := by simp only [Chip.hdr, hh]; exact min_le_left _ _
  masks _ := by simp only [Chip.fnRegs, hf]
  pend _ _ _ h := by simpa only [Chip.fnRegs, hf] using h

theorem refl (c : Chip) : c.Grows c := of_fields rfl rfl rfl

theorem trans {a b c : Chip} (h : a.Grows b) (k : b.Grows c) : a.Grows c where
  outs o ho := k.outs o (h.outs o ho)
  ctrs f n := (le_min (h.ctrs f n) (min_le_right _ _)).trans (k.ctrs f n)
  masks fn := (k.masks fn).trans (h.masks fn)
  pend fn v hv hp := h.pend fn v hv (k.pend fn v (h.masks fn ▸ hv) hp)

/-- A header replaced by one whose counters are no lower. -/
theorem putHdr (c : Chip) (f : Nat) (h : Header) (hc : ∀ n, min ((c.hdr f).ctr.getD n 0) (2 ^ 64 - 1) ≤ h.ctr.getD n 0) :
    c.Grows (c.putHdr f h) where
  outs _ ho := ho
  ctrs g n := by
    rw [Chip.hdr_putHdr]
    split_ifs with e
    · exact e ▸ hc n
    · exact min_le_left _ _
  masks _ := rfl
  pend _ _ _ hp := hp

/-- A counter raised, or at its limit. -/
theorem putCtr (c : Chip) (f n v : Nat) (h : Header) (hh : h.ctr = listSet (c.hdr f).ctr n v)
    (hv : min ((c.hdr f).ctr.getD n 0) (2 ^ 64 - 1) ≤ v) : c.Grows (c.putHdr f h) := by
  refine putHdr c f h (fun m => ?_)
  rw [hh, getD_listSet]
  split_ifs with e
  · exact e.1 ▸ hv
  · exact min_le_left _ _

theorem traceAppend (c : Chip) (f s i : Nat) : c.Grows (c.traceAppend f s i) := of_fields rfl rfl rfl

/-- A message sent, in place of an earlier one or beside what was sent. -/
theorem sends (c : Chip) (o : Out) (l : List Out) (v : List (Nat × Nat)) (h : ∀ p ∈ c.outbox, p ≠ o → p ∈ l) :
    c.Grows { c with outbox := o :: l, sentVecs := v } where
  outs p hp := by
    by_cases e : p = o
    · exact e ▸ List.mem_cons_self
    · exact List.mem_cons_of_mem _ (h p hp e)
  ctrs _ _ := min_le_left _ _
  masks _ := rfl
  pend _ _ _ hp := hp

/-- A vector whose entry is masked kept pending. -/
theorem pends (c : Chip) (fn v : Nat) (h : v ∉ (c.fnRegs fn).unmasked) :
    c.Grows (c.putFn fn { c.fnRegs fn with pendingVecs := (c.fnRegs fn).pendingVecs ++ [v] }) where
  outs _ ho := ho
  ctrs _ _ := min_le_left _ _
  masks g := by
    rw [Chip.fnRegs_putFn]
    split_ifs with e
    · rw [e]
    · rfl
  pend g w hw hp := by
    rw [Chip.fnRegs_putFn] at hp
    split_ifs at hp with e
    · subst e
      rcases List.mem_append.mp hp with hp | hp
      · exact hp
      · exact absurd (List.mem_singleton.mp hp ▸ hw) h
    · exact hp

theorem foldl {α : Type} (g : Chip → α → Chip) (hg : ∀ c a, Chip.Grows c (g c a)) (l : List α) (c : Chip) : c.Grows (l.foldl g c) := by
  induction l generalizing c with
  | nil => exact refl c
  | cons a l ih => exact (hg c a).trans (ih _)

end Chip.Grows

/-- A notice takes nothing back (R30, R351, R413). -/
theorem notice_grows (fuel : Nat) (e : Notice) (c : Chip) : c.Grows (notice fuel e c) := by
  induction fuel generalizing e c with
  | zero => exact .refl c
  | succ fuel ih =>
    cases e with
    | count f n k =>
      simp only [notice]
      split_ifs
      · exact .putCtr c f n _ _ rfl ((min_le_left _ _).trans (Nat.le_add_right _ _))
      · exact .putCtr c f n _ _ rfl (min_le_right _ _)
      · refine Chip.Grows.trans ?_ (ih _ _)
        exact .putCtr c f n _ _ rfl (min_le_right _ _)
    | fire f src =>
      have fired (i : Nat) : c.Grows ((c.putHdr f { c.hdr f with irqRaw := (c.hdr f).irqRaw ||| (1#32 <<< src) }).traceAppend f src i) := by
        refine Chip.Grows.trans ?_ (.traceAppend _ f src i)
        exact .putHdr c f _ (fun _ => min_le_left _ _)
      simp only [notice]
      split_ifs
      · exact (fired _).trans (ih _ _)
      · exact (fired _).trans (ih _ _)
      · exact fired _
      · exact fired _
    | rise f =>
      simp only [notice]
      split
      · exact .refl c
      · refine .foldl _ (fun c fn => ?_) _ c
        split
        · exact ih _ _
        · exact .refl c
    | vector fn v =>
      simp only [notice]
      by_cases hl : (!(c.port (fn / 32)).linkUp) = true
      · rw [if_pos hl]; exact .refl c
      rw [if_neg hl]
      by_cases hv : (if fn % 32 = 0 then 2048 else 64) ≤ v
      · rw [if_pos hv]; exact ih _ _
      rw [if_neg hv]
      by_cases hm : (!(c.fnRegs fn).unmasked.contains v) = true
      · rw [if_pos hm]
        split
        · exact .refl c
        · exact .pends c fn v (by simpa using hm)
      rw [if_neg hm]
      split
      · exact .sends c _ _ _ (fun p hp e => (List.mem_erase_of_ne e).mpr hp)
      · exact (Chip.Grows.sends c _ c.outbox _ (fun p hp _ => hp)).trans (ih _ _)

theorem count_grows (c : Chip) (f n k : Nat) : c.Grows (c.count f n k) := notice_grows _ _ _

theorem fire_grows (c : Chip) (f src : Nat) : c.Grows (c.fire f src) := notice_grows _ _ _

theorem vector_grows (c : Chip) (fn v : Nat) : c.Grows (c.vector fn v) := notice_grows _ _ _

theorem errVector_grows (c : Chip) (fn : Nat) : c.Grows (c.errVector fn) := by
  unfold Chip.errVector
  dsimp only
  split_ifs
  · exact vector_grows _ _ _
  · exact .refl c

theorem log_grows (c : Chip) (f : Nat) (r : LogReq) : c.Grows (c.log f r) := by
  unfold Chip.log
  dsimp only
  split_ifs
  · refine Chip.Grows.trans ?_ (fire_grows _ _ _)
    exact .putHdr c f _ (fun _ => min_le_left _ _)
  · exact .putHdr c f _ (fun _ => min_le_left _ _)

/-- A raised counter has risen (R413), and stays so whatever else is reported. -/
theorem count_countedMore (c : Chip) (f n k : Nat) : c.countedMore (c.count f n k) f n k := by
  intro hn
  have put (h : Header) (v : Nat) (hh : h.ctr = listSet (c.hdr f).ctr n v) : ((c.putHdr f h).hdr f).ctr.getD n 0 = v := by
    rw [Chip.hdr_putHdr, if_pos rfl, hh, getD_listSet, if_pos ⟨rfl, hn⟩]
  show _ ≤ ((notice (11 + 1) (.count f n k) c).hdr f).ctr.getD n 0
  rw [notice]
  dsimp only
  split_ifs
  · rw [put _ _ rfl]; exact min_le_left _ _
  · rw [put _ _ rfl]; exact min_le_right _ _
  · refine le_trans ?_ ((notice_grows _ _ _).ctrs f n)
    rw [put _ _ rfl, min_self]; exact min_le_right _ _

theorem Chip.countedMore_grows {c d e : Chip} {f n k : Nat} (h : c.countedMore d f n k) (g : d.Grows e) : c.countedMore e f n k :=
  fun hn => (le_min (h hn) (min_le_right _ _)).trans (g.ctrs f n)

/-- A vector whose link is up and whose entry is masked is kept pending (R351). -/
theorem vector_of_masked {c : Chip} {fn v : Nat} (hl : (c.port (fn / 32)).linkUp = true) (hv : v < msixSize fn)
    (hm : (c.fnRegs fn).unmasked.contains v = false) :
    c.vector fn v = if (c.fnRegs fn).pendingVecs.contains v then c
      else c.putFn fn { c.fnRegs fn with pendingVecs := (c.fnRegs fn).pendingVecs ++ [v] } := by
  have size : ¬ (if fn % 32 = 0 then 2048 else 64) ≤ v := not_le.mpr hv
  show notice (11 + 1) (.vector fn v) c = _
  rw [notice, if_neg (by simp [hl]), if_neg size]
  dsimp only
  rw [if_pos (by rw [hm]; rfl)]

/-- A vector whose link is up and whose entry is open is sent (R351). -/
theorem vector_of_open {c : Chip} {fn v : Nat} (hl : (c.port (fn / 32)).linkUp = true) (hv : v < msixSize fn)
    (hm : (c.fnRegs fn).unmasked.contains v = true) : (c.fnRegs fn).message fn v ∈ (c.vector fn v).outbox := by
  have size : ¬ (if fn % 32 = 0 then 2048 else 64) ≤ v := not_le.mpr hv
  show _ ∈ (notice (11 + 1) (.vector fn v) c).outbox
  rw [notice, if_neg (by simp [hl]), if_neg size]
  dsimp only
  rw [if_neg (by rw [hm]; exact Bool.false_ne_true)]
  split
  · exact List.mem_cons_self
  · refine (notice_grows _ _ _).outs _ ?_
    exact List.mem_cons_self

/-- A vector that becomes due is raised (R351). -/
theorem vector_raised (c : Chip) (fn v : Nat) : c.raised (c.vector fn v) fn v := by
  intro hl hv
  split
  next hm => exact vector_of_open hl hv hm
  next hm =>
    rw [vector_of_masked hl hv (by simpa using hm)]
    split
    · assumption
    · simp

theorem errVector_errRaised (c : Chip) (fn : Nat) : c.errRaised (c.errVector fn) fn := by
  intro he
  unfold Chip.errVector
  rw [if_pos he]
  exact vector_raised _ _ _

/-- Whatever is reported or logged before, a vector is raised for the same function registers. -/
theorem Chip.errRaised_logs {c d e : Chip} {fn : Nat} (h : Chip.logs c d) (r : d.errRaised e fn) : c.errRaised e fn := by
  obtain ⟨hq, -, hf⟩ := h
  have hp : d.quiet.port (fn / 32) = c.quiet.port (fn / 32) := by rw [hq]
  have he : (d.fnRegs fn).kept.errVec = (c.fnRegs fn).kept.errVec := by rw [hf]
  have hu : (d.fnRegs fn).kept.unmasked = (c.fnRegs fn).kept.unmasked := by rw [hf]
  have hm (v : Nat) : (d.fnRegs fn).kept.message fn v = (c.fnRegs fn).kept.message fn v := by rw [hf]
  change d.port (fn / 32) = c.port (fn / 32) at hp
  change (d.fnRegs fn).errVec = (c.fnRegs fn).errVec at he
  change (d.fnRegs fn).unmasked = (c.fnRegs fn).unmasked at hu
  change ∀ v, (d.fnRegs fn).message fn v = (c.fnRegs fn).message fn v at hm
  simpa only [Chip.errRaised, Chip.raised, hp, he, hu, hm] using r

/-! ### What reporting leaves of the queues and commands -/

@[simp] theorem notice_fields (fuel : Nat) (e : Notice) (c : Chip) :
    (notice fuel e c).time = c.time ∧ (notice fuel e c).staged = c.staged ∧ (notice fuel e c).events = c.events ∧
    (notice fuel e c).cmds = c.cmds ∧ (notice fuel e c).sqs = c.sqs ∧ (notice fuel e c).cqs = c.cqs ∧ (notice fuel e c).parts = c.parts := by
  obtain ⟨h1, -, -, -, -, -, -, h2, h3, h4, h5, -, -, -, -, h6, -⟩ := Chip.reports_fields (notice_reports fuel e c)
  exact ⟨h1, notice_staged fuel e c, h2, h3, h4, h5, h6⟩

@[simp] theorem count_fields (c : Chip) (f n k : Nat) :
    (c.count f n k).time = c.time ∧ (c.count f n k).staged = c.staged ∧ (c.count f n k).events = c.events ∧
    (c.count f n k).cmds = c.cmds ∧ (c.count f n k).sqs = c.sqs ∧ (c.count f n k).cqs = c.cqs ∧ (c.count f n k).parts = c.parts :=
  notice_fields _ _ _

@[simp] theorem fire_fields (c : Chip) (f src : Nat) :
    (c.fire f src).time = c.time ∧ (c.fire f src).staged = c.staged ∧ (c.fire f src).events = c.events ∧
    (c.fire f src).cmds = c.cmds ∧ (c.fire f src).sqs = c.sqs ∧ (c.fire f src).cqs = c.cqs ∧ (c.fire f src).parts = c.parts :=
  notice_fields _ _ _

@[simp] theorem vector_fields (c : Chip) (fn v : Nat) :
    (c.vector fn v).time = c.time ∧ (c.vector fn v).staged = c.staged ∧ (c.vector fn v).events = c.events ∧
    (c.vector fn v).cmds = c.cmds ∧ (c.vector fn v).sqs = c.sqs ∧ (c.vector fn v).cqs = c.cqs ∧ (c.vector fn v).parts = c.parts :=
  notice_fields _ _ _

@[simp] theorem errVector_fields (c : Chip) (fn : Nat) :
    (c.errVector fn).time = c.time ∧ (c.errVector fn).staged = c.staged ∧ (c.errVector fn).events = c.events ∧
    (c.errVector fn).cmds = c.cmds ∧ (c.errVector fn).sqs = c.sqs ∧ (c.errVector fn).cqs = c.cqs ∧ (c.errVector fn).parts = c.parts := by
  unfold Chip.errVector
  dsimp only
  split <;> simp

@[simp] theorem log_fields (c : Chip) (f : Nat) (r : LogReq) :
    (c.log f r).time = c.time ∧ (c.log f r).staged = c.staged ∧ (c.log f r).events = c.events ∧
    (c.log f r).cmds = c.cmds ∧ (c.log f r).sqs = c.sqs ∧ (c.log f r).cqs = c.cqs ∧ (c.log f r).parts = c.parts := by
  unfold Chip.log
  dsimp only
  split <;> simp

theorem Chip.logs_refl (c : Chip) : Chip.logs c c := ⟨rfl, fun _ => rfl, fun _ => rfl⟩

theorem Chip.logs_trans {a b c : Chip} (h : Chip.logs a b) (k : Chip.logs b c) : Chip.logs a c :=
  ⟨k.1.trans h.1, fun f => (k.2.1 f).trans (h.2.1 f), fun f => (k.2.2 f).trans (h.2.2 f)⟩

end Sys2Proof.Machine
end

section
/-! SUPPORT. Completion records, unmasked vectors and coalesced messages (R348, R349, R351, R352), and the statement about them. -/

namespace Sys2Proof.Machine

/-! ### Queues that settle, records that are written -/

theorem Chip.cq_congr {c d : Chip} (h : d.cqs = c.cqs) (j : Nat) : d.cq j = c.cq j := by rw [Chip.cq, h, Chip.cq]

theorem Chip.sq_congr {c d : Chip} (h : d.sqs = c.sqs) (j : Nat) : d.sq j = c.sq j := by rw [Chip.sq, h, Chip.sq]

/-- A queue that settles changes its own state alone (R349). -/
theorem settleSq_frame (c : Chip) (key : Nat) :
    ∃ q, c.settleSq key = { c with sqs := q } ∧ ∀ j, j ≠ key → tabGet ({} : SQ) q j = c.sq j := by
  unfold Chip.settleSq
  dsimp only
  split
  · exact ⟨_, rfl, fun j hj => by rw [tabGet_tabSet, if_neg (Ne.symm hj)]; rfl⟩
  · exact ⟨c.sqs, rfl, fun _ _ => rfl⟩

theorem settleSqs_frame (c : Chip) (fn q : Nat) : ∃ l, c.settleSqs fn q = { c with sqs := l } := by
  unfold Chip.settleSqs
  generalize c.sqs.filter _ = keys
  induction keys generalizing c with
  | nil => exact ⟨c.sqs, rfl⟩
  | cons e keys ih =>
    obtain ⟨l, hl, -⟩ := settleSq_frame c e.1
    obtain ⟨m, hm⟩ := ih (c.settleSq e.1)
    exact ⟨m, by rw [List.foldl_cons, hm, hl]⟩

/-- A completion queue's vector sent or held: of the queues only its own bookkeeping of messages changes (R348). -/
theorem cqVector_frame (c : Chip) (key : Nat) :
    (c.cqVector key).staged = c.staged ∧ (c.cqVector key).events = c.events ∧ (c.cqVector key).cmds = c.cmds ∧
    (c.cqVector key).sqs = c.sqs ∧ c.Grows (c.cqVector key) ∧
    ∃ due last masked, (c.cqVector key).cqs = (c.putCq key { c.cq key with due := due, lastMsg := last, masked := masked }).cqs := by
  unfold Chip.cqVector
  split
  · unfold Chip.cqSend
    dsimp only
    simp only [vector_fields, Chip.putCq_fields, true_and]
    refine ⟨Chip.Grows.trans ?_ (vector_grows _ _ _), _, _, _, rfl⟩
    exact .of_fields rfl rfl rfl
  · exact ⟨rfl, rfl, rfl, rfl, .of_fields rfl rfl rfl, true, _, _, rfl⟩

/-- The charge of a record write to the regulator of its function's partition (R352). -/
def Chip.recordCharged (c : Chip) (fn : Nat) : Chip :=
  match c.partOfFn fn with
  | some p => (c.regTake p (3 + fn / 32) 1).count (0x020 + p) 4 1
  | none => c

theorem recordCharged_fields (c : Chip) (fn : Nat) :
    (c.recordCharged fn).staged = c.staged ∧ (c.recordCharged fn).events = c.events ∧ (c.recordCharged fn).cmds = c.cmds ∧
    (c.recordCharged fn).sqs = c.sqs ∧ (c.recordCharged fn).cqs = c.cqs := by
  unfold Chip.recordCharged
  split <;> simp [Chip.regTake]

theorem recordCharged_grows (c : Chip) (fn : Nat) : c.Grows (c.recordCharged fn) := by
  unfold Chip.recordCharged
  split
  · refine Chip.Grows.trans ?_ (count_grows _ _ _ _)
    exact .of_fields rfl rfl rfl
  · exact .refl c

/-- A record as it is written to the slot a completion queue writes next (R41, R348). -/
def Chip.slotRecord (c : Chip) (key : Nat) (r : Record) : Out :=
  let q := c.cq key
  .record (key / 256) (key % 256) (q.base + 32 * q.tail)
    (Record.bytes { r with sqHead := (c.sq (256 * (key / 256) + r.sq)).head } ((q.written / ringSlots q.sizeLog2 + 1) % 2 = 1))

theorem slotRecord_putCq (c : Chip) (key : Nat) (rs : List Record) (r : Record) :
    (c.putCq key { c.cq key with waiting := rs }).slotRecord key r = c.slotRecord key r := by
  unfold Chip.slotRecord
  rw [Chip.cq_putCq, if_pos rfl]
  rfl

/-- A record written goes out, is counted and charged, and may raise its queue's vector. -/
theorem emitRecord_eq (c : Chip) (key : Nat) (r : Record) :
    c.emitRecord key r =
      (let d := (((c.putCq key { c.cq key with written := (c.cq key).written + 1 }).send (c.slotRecord key r)).count
        (0x010 + key / 256 / 32) 2 1).recordCharged (key / 256)
      if (c.cq key).irqEn && r.irq then d.cqVector key else d) := rfl

/-- A record written: commands, events and submission queues stand; of the completion queues only its own counts the record and may
note its message; the record is out (R348). -/
theorem emitRecord_frame (c : Chip) (key : Nat) (r : Record) :
    (c.emitRecord key r).staged = c.staged ∧ (c.emitRecord key r).events = c.events ∧ (c.emitRecord key r).cmds = c.cmds ∧
    (c.emitRecord key r).sqs = c.sqs ∧ c.slotRecord key r ∈ (c.emitRecord key r).outbox ∧
    ∃ due last masked, ∀ j, (c.emitRecord key r).cq j =
      if key = j then { c.cq key with written := (c.cq key).written + 1, due := due, lastMsg := last, masked := masked } else c.cq j := by
  rw [emitRecord_eq]
  dsimp only
  generalize hw : (c.putCq key { c.cq key with written := (c.cq key).written + 1 }).send (c.slotRecord key r) = w
  obtain ⟨h1, h2, h3, h4, h5⟩ := recordCharged_fields (w.count (0x010 + key / 256 / 32) 2 1) (key / 256)
  simp only [count_fields] at h1 h2 h3 h4 h5
  have grown := (count_grows w (0x010 + key / 256 / 32) 2 1).trans (recordCharged_grows _ (key / 256))
  generalize (w.count (0x010 + key / 256 / 32) 2 1).recordCharged (key / 256) = d at *
  have out : c.slotRecord key r ∈ d.outbox := grown.outs _ (by rw [← hw]; exact List.mem_cons_self)
  have counted (j : Nat) : d.cq j = if key = j then { c.cq key with written := (c.cq key).written + 1 } else c.cq j := by
    rw [Chip.cq_congr h5, ← hw]
    exact Chip.cq_putCq c key j _
  subst hw
  simp only [Chip.send_fields, Chip.putCq_fields] at h1 h2 h3 h4
  split
  · obtain ⟨v1, v2, v3, v4, vg, due, last, masked, v5⟩ := cqVector_frame d key
    refine ⟨v1.trans h1, v2.trans h2, v3.trans h3, v4.trans h4, vg.outs _ out, due, last, masked, fun j => ?_⟩
    rw [Chip.cq_congr v5, Chip.cq_putCq]
    split
    · rw [counted, if_pos rfl]
    · rw [counted, if_neg ‹_›]
  · exact ⟨h1, h2, h3, h4, out, _, _, _, counted⟩

/-- A failed access of host memory is counted, logged and announced: nothing else of queues, commands and events changes, the count
has risen and ERR_VECTOR is raised (R349, R412). -/
theorem hostFailure_reported (c : Chip) (f fn n : Nat) (r : LogReq) :
    ((((c.count f n 1).log f r).fire f 4).errVector fn).staged = c.staged ∧
    ((((c.count f n 1).log f r).fire f 4).errVector fn).events = c.events ∧
    ((((c.count f n 1).log f r).fire f 4).errVector fn).cmds = c.cmds ∧
    ((((c.count f n 1).log f r).fire f 4).errVector fn).cqs = c.cqs ∧
    c.countedMore ((((c.count f n 1).log f r).fire f 4).errVector fn) f n 1 ∧
    c.errRaised ((((c.count f n 1).log f r).fire f 4).errVector fn) fn := by
  have errors : Chip.logs c (((c.count f n 1).log f r).fire f 4) :=
    logs_reports (Chip.logs_trans (logs_reports (Chip.logs_refl c) (count_reports _ _ _ _)) (log_logs _ _ _)) (fire_reports _ _ _)
  refine ⟨by simp, by simp, by simp, by simp, ?_, Chip.errRaised_logs errors (errVector_errRaised _ _)⟩
  exact Chip.countedMore_grows (count_countedMore c f n 1) (((log_grows _ _ _).trans (fire_grows _ _ _)).trans (errVector_grows _ _))

/-- A record whose write fails puts its completion queue in ERROR with CAUSE 2 and loses what waits there; of the other completion
queues, the commands and the events nothing changes, and the failure is counted in CTR6 of the port and raises ERR_VECTOR (R349). -/
theorem recordWriteFailed_frame (c : Chip) (fn q : Nat) :
    (c.recordWriteFailed fn q).staged = c.staged ∧ (c.recordWriteFailed fn q).events = c.events ∧
    (c.recordWriteFailed fn q).cmds = c.cmds ∧
    (∀ j, (c.recordWriteFailed fn q).cq j =
      if 256 * fn + q = j then { c.cq (256 * fn + q) with error := true, cause := 2, waiting := [] } else c.cq j) ∧
    c.countedMore (c.recordWriteFailed fn q) (0x010 + fn / 32) 6 1 ∧ c.errRaised (c.recordWriteFailed fn q) fn := by
  unfold Chip.recordWriteFailed
  dsimp only
  obtain ⟨l, hl⟩ := settleSqs_frame (c.putCq (256 * fn + q) { c.cq (256 * fn + q) with error := true, cause := 2, waiting := [] }) fn q
  rw [hl]
  obtain ⟨h1, h2, h3, h4, h5, h6⟩ := hostFailure_reported
    { c.putCq (256 * fn + q) { c.cq (256 * fn + q) with error := true, cause := 2, waiting := [] } with sqs := l }
    (0x010 + fn / 32) fn 6 { cls := 0x0B, sev := 1, part := c.partOfFn fn }
  refine ⟨h1, h2, h3, fun j => ?_, h5, h6⟩
  rw [Chip.cq_congr h4]
  exact Chip.cq_putCq c _ j _

/-! ### PENDING_RECORD_WRITE (R348, R349, R352) -/

theorem queueKey_div {fn q : Nat} (hq : q < 256) : (256 * fn + q) / 256 = fn := by omega

theorem queueKey_mod {fn q : Nat} (hq : q < 256) : (256 * fn + q) % 256 = q := by omega

theorem slotRecord_queue {fn q : Nat} (hq : q < 256) (c : Chip) (r : Record) :
    c.slotRecord (256 * fn + q) r =
      .record fn q ((c.cq (256 * fn + q)).base + 32 * (c.cq (256 * fn + q)).tail)
        (Record.bytes { r with sqHead := (c.sq (256 * fn + r.sq)).head }
          (((c.cq (256 * fn + q)).written / ringSlots (c.cq (256 * fn + q)).sizeLog2 + 1) % 2 = 1)) := by
  unfold Chip.slotRecord
  rw [queueKey_div hq, queueKey_mod hq]

/-- The oldest waiting record, once its slot is free and the regulator lets it, is written or fails. -/
theorem pendingRecord_goes {c : Chip} {fn q : Nat} {r : Record} {rs : List Record} (hw : (c.cq (256 * fn + q)).waiting = r :: rs)
    (he : (c.cq (256 * fn + q)).enable = true) (hf : (c.cq (256 * fn + q)).full = false) (hl : c.recordLets fn = true) (written : Bool) :
    c.pendingRecord fn q written =
      if written then ((c.putCq (256 * fn + q) { c.cq (256 * fn + q) with waiting := rs }).emitRecord (256 * fn + q) r).settleSq (256 * fn + r.sq)
      else c.recordWriteFailed fn q := by
  simp only [Chip.pendingRecord, hw, he, hf, hl]
  rfl

/-- A record that has no slot, or that the regulator does not let, waits on. -/
theorem pendingRecord_waits {c : Chip} {fn q : Nat} (hw : (c.cq (256 * fn + q)).waiting ≠ [])
    (h : (c.cq (256 * fn + q)).enable = false ∨ (c.cq (256 * fn + q)).full = true ∨ c.recordLets fn = false) (written : Bool) :
    c.pendingRecord fn q written = c := by
  obtain ⟨r, rs, hr⟩ := List.exists_cons_of_ne_nil hw
  simp only [Chip.pendingRecord, hr]
  exact if_pos (by rcases h with h | h | h <;> simp [h])

/-- With none waiting only a failure is reported: of a record written before. -/
theorem pendingRecord_none {c : Chip} {fn q : Nat} (hw : (c.cq (256 * fn + q)).waiting = []) (written : Bool) :
    c.pendingRecord fn q written =
      if !written && (c.cq (256 * fn + q)).enable && !(c.cq (256 * fn + q)).error && (c.cq (256 * fn + q)).written ≠ 0 then c.recordWriteFailed fn q
      else c := by
  simp only [Chip.pendingRecord, hw]

/-- A waiting record written: it is out and no longer waits; of the queues only its own, and the submission queue it came from, change. -/
theorem pendingRecord_written {c : Chip} {fn q : Nat} {r : Record} {rs : List Record} (hw : (c.cq (256 * fn + q)).waiting = r :: rs)
    (he : (c.cq (256 * fn + q)).enable = true) (hf : (c.cq (256 * fn + q)).full = false) (hl : c.recordLets fn = true) :
    (c.pendingRecord fn q true).staged = c.staged ∧ (c.pendingRecord fn q true).events = c.events ∧ (c.pendingRecord fn q true).cmds = c.cmds ∧
    ((c.pendingRecord fn q true).cq (256 * fn + q)).waiting = rs ∧
    ((c.pendingRecord fn q true).cq (256 * fn + q)).written = (c.cq (256 * fn + q)).written + 1 ∧
    (∀ j, j ≠ 256 * fn + q → (c.pendingRecord fn q true).cq j = c.cq j) ∧
    (∀ j, j ≠ 256 * fn + r.sq → (c.pendingRecord fn q true).sq j = c.sq j) ∧
    c.slotRecord (256 * fn + q) r ∈ (c.pendingRecord fn q true).outbox := by
  rw [pendingRecord_goes hw he hf hl, if_pos rfl]
  obtain ⟨e1, e2, e3, e4, out, due, last, masked, ecq⟩ :=
    emitRecord_frame (c.putCq (256 * fn + q) { c.cq (256 * fn + q) with waiting := rs }) (256 * fn + q) r
  generalize (c.putCq (256 * fn + q) { c.cq (256 * fn + q) with waiting := rs }).emitRecord (256 * fn + q) r = d at *
  obtain ⟨l, hl, hsq⟩ := settleSq_frame d (256 * fn + r.sq)
  rw [hl]
  have own : d.cq (256 * fn + q) = { c.cq (256 * fn + q) with
      waiting := rs, written := (c.cq (256 * fn + q)).written + 1, due := due, lastMsg := last, masked := masked } := by
    rw [ecq, if_pos rfl, Chip.cq_putCq, if_pos rfl]
  refine ⟨e1, e2, e3, ?_, ?_, fun j hj => ?_, fun j hj => (hsq j hj).trans (Chip.sq_congr e4 j), ?_⟩
  · exact congrArg CQ.waiting own
  · exact congrArg CQ.written own
  · refine (ecq j).trans ?_
    rw [if_neg (Ne.symm hj), Chip.cq_putCq, if_neg (Ne.symm hj)]
  · rw [← slotRecord_putCq c (256 * fn + q) rs r]
    exact out

/-! ### MSIX_UNMASK and CQ_COAL_TIMER (R348, R351) -/

/-- The entry of a vector opened, with no message of it pending. -/
def Chip.opened (c : Chip) (fn v : Nat) : Chip :=
  c.putFn fn { c.fnRegs fn with
    unmasked := (c.fnRegs fn).unmasked.filter (· ≠ v) ++ [v], pendingVecs := (c.fnRegs fn).pendingVecs.filter (· ≠ v) }

theorem unmask_idle {c : Chip} {fn v : Nat} (h : (c.fnRegs fn).pendingVecs.contains v = false) : c.unmask fn v = c.opened fn v := by
  unfold Chip.unmask
  dsimp only
  rw [if_neg (by rw [h]; exact Bool.false_ne_true)]
  rfl

/-- Where the opened vector was pending, its message is the latest of the completion queues that it was due for, and goes out. -/
theorem unmask_pending {c : Chip} {fn v : Nat} (h : (c.fnRegs fn).pendingVecs.contains v = true) :
    c.unmask fn v = ({ c.opened fn v with cqs := c.cqs.map (fun e =>
      if e.1 / 256 = fn ∧ e.2.masked = true ∧ e.2.vector = v then (e.1, { e.2 with masked := false, lastMsg := some c.time })
      else e) } : Chip).vector fn v := by
  unfold Chip.unmask
  dsimp only
  rw [if_pos h]
  congr 3
  funext e
  simp only [CQ.unmask]
  by_cases h1 : e.1 / 256 = fn
  · by_cases h2 : e.2.masked = true ∧ e.2.vector = v
    · simp [h1, h2]
    · rw [if_pos h1, if_neg (by simpa using h2), if_neg (fun h => h2 h.2)]
  · simp [h1]

/-- An open entry's vector is not left pending. -/
theorem vector_opened_pending {c : Chip} {fn v : Nat} (h : v ∈ (c.fnRegs fn).unmasked) (hp : v ∉ (c.fnRegs fn).pendingVecs) :
    ((c.vector fn v).fnRegs fn).pendingVecs.contains v = false := by
  simpa using fun hc => hp ((vector_grows c fn v).pend fn v h hc)

theorem coalPassed_iff (u : CQ) (now : Nat) :
    u.coalPassed now = true ↔ u.coalUs = 0 ∨ ∀ last, u.lastMsg = some last → last + 1000 * u.coalUs ≤ now := by
  unfold CQ.coalPassed
  cases u.lastMsg <;> simp

theorem vectorMasked_iff (c : Chip) (fn v : Nat) :
    c.vectorMasked fn v = true ↔
      ((c.port (fn / 32)).linkUp = true ∧ v < msixSize fn) ∧ (c.fnRegs fn).unmasked.contains v = false := by
  simp [Chip.vectorMasked]

/-- A vector that is due, once its interval has passed, is sent or kept pending. -/
theorem coalTimer_sends {c : Chip} {fn q : Nat} (hd : (c.cq (256 * fn + q)).due = true) (hp : (c.cq (256 * fn + q)).coalPassed c.time = true) :
    c.coalTimer fn q = c.cqSend (256 * fn + q) := by
  simp only [Chip.coalTimer, hd, hp]
  rfl

theorem coalTimer_idle {c : Chip} {fn q : Nat} (h : (c.cq (256 * fn + q)).due = false ∨ ¬ (c.cq (256 * fn + q)).coalPassed c.time = true) :
    c.coalTimer fn q = c := by
  unfold Chip.coalTimer
  exact if_neg (by rcases h with h | h <;> simp [h])

theorem cqSend_open {c : Chip} {fn q : Nat} (hq : q < 256) (hm : c.vectorMasked fn (c.cq (256 * fn + q)).vector = false) :
    c.cqSend (256 * fn + q) =
      (c.putCq (256 * fn + q) { c.cq (256 * fn + q) with due := false, lastMsg := some c.time }).vector fn (c.cq (256 * fn + q)).vector := by
  simp only [Chip.cqSend, queueKey_div hq, hm, Bool.or_false]
  rfl

theorem cqSend_masked {c : Chip} {fn q : Nat} (hq : q < 256) (hm : c.vectorMasked fn (c.cq (256 * fn + q)).vector = true) :
    c.cqSend (256 * fn + q) =
      (c.putCq (256 * fn + q) { c.cq (256 * fn + q) with due := false, masked := true }).vector fn (c.cq (256 * fn + q)).vector := by
  simp only [Chip.cqSend, queueKey_div hq, hm, Bool.or_true]
  rfl

/-- A pending vector whose entry opens goes out and is pending no more. -/
theorem unmask_sends {c : Chip} {fn v : Nat} (hp : (c.fnRegs fn).pendingVecs.contains v = true) :
    Chip.reports { c.opened fn v with cqs := c.cqs.map (fun e =>
      if e.1 / 256 = fn ∧ e.2.masked = true ∧ e.2.vector = v then (e.1, { e.2 with masked := false, lastMsg := some c.time }) else e) }
      (c.unmask fn v) ∧
    ((c.unmask fn v).fnRegs fn).pendingVecs.contains v = false ∧
    ((c.port (fn / 32)).linkUp = true → v < msixSize fn → (c.fnRegs fn).message fn v ∈ (c.unmask fn v).outbox) := by
  rw [unmask_pending hp]
  generalize hd : ({ c.opened fn v with cqs := c.cqs.map _ } : Chip) = d
  have regs : d.fnRegs fn = { c.fnRegs fn with
      unmasked := (c.fnRegs fn).unmasked.filter (· ≠ v) ++ [v], pendingVecs := (c.fnRegs fn).pendingVecs.filter (· ≠ v) } := by
    rw [← hd]
    exact (Chip.fnRegs_putFn c fn fn _).trans (if_pos rfl)
  have isOpen : v ∈ (d.fnRegs fn).unmasked := by simp [regs]
  refine ⟨vector_reports _ _ _, vector_opened_pending isOpen (by simp [regs]), fun hl hv => ?_⟩
  have sent := vector_of_open (c := d) (by rw [← hd]; exact hl) hv (by simpa using isOpen)
  rw [regs] at sent
  exact sent

/-- A coalesced vector that is due and whose entry is not masked goes out. -/
theorem coalTimer_open {c : Chip} {fn q : Nat} (hq : q < 256) (hd : (c.cq (256 * fn + q)).due = true)
    (hp : (c.cq (256 * fn + q)).coalPassed c.time = true) (hm : c.vectorMasked fn (c.cq (256 * fn + q)).vector = false) :
    Chip.reports (c.putCq (256 * fn + q) { c.cq (256 * fn + q) with due := false, lastMsg := some c.time }) (c.coalTimer fn q) ∧
    ((c.port (fn / 32)).linkUp = true → (c.cq (256 * fn + q)).vector < msixSize fn →
      (c.fnRegs fn).message fn (c.cq (256 * fn + q)).vector ∈ (c.coalTimer fn q).outbox) := by
  rw [coalTimer_sends hd hp, cqSend_open hq hm]
  refine ⟨vector_reports _ _ _, fun hl hv => ?_⟩
  have isOpen : (c.fnRegs fn).unmasked.contains (c.cq (256 * fn + q)).vector = true := by
    by_contra hn
    exact absurd ((vectorMasked_iff c fn _).mpr ⟨⟨hl, hv⟩, by simpa using hn⟩) (by simp [hm])
  exact vector_of_open (c := c.putCq (256 * fn + q) _) hl hv isOpen

/-- A coalesced vector that is due and whose entry is masked is kept pending. -/
theorem coalTimer_masked {c : Chip} {fn q : Nat} (hq : q < 256) (hd : (c.cq (256 * fn + q)).due = true)
    (hp : (c.cq (256 * fn + q)).coalPassed c.time = true) (hm : c.vectorMasked fn (c.cq (256 * fn + q)).vector = true) :
    Chip.reports (c.putCq (256 * fn + q) { c.cq (256 * fn + q) with due := false, masked := true }) (c.coalTimer fn q) ∧
    ((c.coalTimer fn q).fnRegs fn).pendingVecs.contains (c.cq (256 * fn + q)).vector = true := by
  rw [coalTimer_sends hd hp, cqSend_masked hq hm]
  obtain ⟨⟨hl, hv⟩, closed⟩ := (vectorMasked_iff c fn _).mp hm
  refine ⟨vector_reports _ _ _, ?_⟩
  generalize hd : c.putCq (256 * fn + q) { c.cq (256 * fn + q) with due := false, masked := true } = d
  have kept := vector_raised d fn (c.cq (256 * fn + q)).vector (by rw [← hd]; exact hl) hv
  have closed' : (d.fnRegs fn).unmasked.contains (c.cq (256 * fn + q)).vector = false := by rw [← hd]; exact closed
  rwa [if_neg (by rw [closed']; exact Bool.false_ne_true)] at kept

/-! ### The rows as steps, and the statement -/

/-- PENDING_RECORD_WRITE of a chip that stages nothing. -/
theorem exec_pendingRecordWrite {s : State} (h : s.sound) {fn q : Nat} {written : Bool} (hc : (s.chip.pendingRecord fn q written).staged = []) :
    exec (.pendingRecordWrite fn q written) s = .next { s with chip := (s.chip.pendingRecord fn q written).between } :=
  onChip_unstaged (f := fun _ c => c.pendingRecord fn q written) h hc

theorem pendingRecordWrite_idle {s : State} (h : s.sound) {fn q : Nat} {written : Bool} (hc : s.chip.pendingRecord fn q written = s.chip) :
    exec (.pendingRecordWrite fn q written) s = .next s := by
  rw [exec_pendingRecordWrite h (by rw [hc]; exact State.sound_unstaged h), hc, State.sound_next h]

/-- PENDING_RECORD_WRITE whose write fails (R349). -/
theorem pendingRecordWrite_failed {s : State} (h : s.sound) {fn q : Nat}
    (failed : s.chip.pendingRecord fn q false = s.chip.recordWriteFailed fn q) :
    nextWith (exec (.pendingRecordWrite fn q false) s) (fun t =>
      (t.mem = s.mem ∧ t.fuse = s.fuse ∧ t.pending = s.pending ∧ t.chip.cmds = s.chip.cmds ∧ t.chip.events = s.chip.events) ∧
      (∀ j, t.chip.cq j =
        if 256 * fn + q = j then { s.chip.cq (256 * fn + q) with error := true, cause := 2, waiting := [] } else s.chip.cq j) ∧
      s.chip.countedMore t.chip (0x010 + fn / 32) 6 1 ∧ s.chip.errRaised t.chip fn) := by
  obtain ⟨d1, d2, d3, d4, d5, d6⟩ := recordWriteFailed_frame s.chip fn q
  rw [← failed] at d1 d2 d3 d4 d5 d6
  rw [exec_pendingRecordWrite h (d1.trans (State.sound_unstaged h)), nextWith_next]
  exact ⟨⟨rfl, rfl, rfl, d3, d2⟩, d4, d5, d6⟩

/-- MSIX_UNMASK stages nothing. -/
theorem exec_msixUnmask {s : State} (h : s.sound) (fn v : Nat) :
    exec (.msixUnmask fn v) s = .next { s with chip := (s.chip.unmask fn v).between } := by
  refine onChip_unstaged (f := fun _ c => c.unmask fn v) h ?_
  cases hp : (s.chip.fnRegs fn).pendingVecs.contains v with
  | false => rw [unmask_idle hp]; exact State.sound_unstaged h
  | true =>
    rw [unmask_pending hp]
    simp only [vector_fields]
    exact State.sound_unstaged h

/-- CQ_COAL_TIMER stages nothing. -/
theorem exec_cqCoalTimer {s : State} (h : s.sound) (fn q : Nat) :
    exec (.cqCoalTimer fn q) s = .next { s with chip := (s.chip.coalTimer fn q).between } := by
  refine onChip_unstaged (f := fun _ c => c.coalTimer fn q) h ?_
  unfold Chip.coalTimer Chip.cqSend
  dsimp only
  split <;> simp [State.sound_unstaged h]

/-- Settles O21: each row is its equation in the model, and reporting takes nothing back of what it sends. -/
theorem recordsAndVectors : Obligations.RecordsAndVectors := by
  refine ⟨fun s fn q h hq => ⟨fun r rs hw he hf hl => ⟨?_, ?_⟩, fun hw hn ok => ?_, fun hw => ?_, fun hw he herr hn => ?_⟩,
    fun s fn v h => ⟨fun hp => ?_, fun hp => ?_⟩, fun s fn q h hq => ⟨fun hd hp hm => ?_, fun hd hp hm => ?_, fun hn => ?_⟩⟩
  · obtain ⟨d1, d2, d3, d4, d5, d6, d7, d8⟩ := pendingRecord_written hw he hf hl
    rw [exec_pendingRecordWrite h (d1.trans (State.sound_unstaged h)), nextWith_next]
    rw [slotRecord_queue hq] at d8
    exact ⟨rfl, rfl, rfl, d3, d2, d4, d5, d6, d7, d8⟩
  · have failed : s.chip.pendingRecord fn q false = s.chip.recordWriteFailed fn q := by
      rw [pendingRecord_goes hw he hf hl, if_neg Bool.false_ne_true]
    obtain ⟨t, ht, ⟨d1, d2, d3, d4, d5⟩, cqs, -, -⟩ := pendingRecordWrite_failed h failed
    exact ⟨t, ht, d1, d2, d3, d4, d5, (cqs _).trans (if_pos rfl), fun j hj => (cqs j).trans (if_neg (Ne.symm hj))⟩
  · exact pendingRecordWrite_idle h (pendingRecord_waits hw hn ok)
  · exact pendingRecordWrite_idle h (pendingRecord_none hw true)
  · have failed : s.chip.pendingRecord fn q false = s.chip.recordWriteFailed fn q := by
      rw [pendingRecord_none hw false, if_pos (by simp [he, herr, hn])]
    obtain ⟨t, ht, ⟨d1, d2, d3, d4, d5⟩, cqs, counted, raised⟩ := pendingRecordWrite_failed h failed
    have own := (cqs (256 * fn + q)).trans (if_pos rfl)
    rw [← hw] at own
    exact ⟨t, ht, d1, d2, d3, d4, d5, own, counted, raised⟩
  · rw [becomesJust, exec_msixUnmask h, unmask_idle hp]
    rfl
  · obtain ⟨rep, clear, sent⟩ := unmask_sends hp
    rw [exec_msixUnmask h, nextWith_next]
    exact ⟨rfl, rfl, rfl, rep, clear, sent⟩
  · obtain ⟨rep, sent⟩ := coalTimer_open hq hd ((coalPassed_iff _ _).mpr hp) (by rw [← Bool.not_eq_true, vectorMasked_iff]; exact hm)
    rw [exec_cqCoalTimer h, nextWith_next]
    exact ⟨rfl, rfl, rfl, rep, fun ho => sent ho.1 ho.2⟩
  · obtain ⟨rep, kept⟩ := coalTimer_masked hq hd ((coalPassed_iff _ _).mpr hp) ((vectorMasked_iff _ _ _).mpr hm)
    rw [exec_cqCoalTimer h, nextWith_next]
    exact ⟨rfl, rfl, rfl, rep, kept⟩
  · rw [exec_cqCoalTimer h, coalTimer_idle (by rw [coalPassed_iff]; exact hn), State.sound_next h]

end Sys2Proof.Machine
end

section
/-! SUPPORT. What a register write does: to a stored register of a page, to an event entry, in BAR2 and in the configuration space; and
the statement about them. -/

namespace Sys2Proof.Machine

/-! ### Stored registers (R8, R9, R26) -/

theorem Chip.reg_setReg (c : Chip) (f g off q v d : Nat) :
    (c.setReg f off v).reg g q d = if regKey f off = regKey g q then v % 2 ^ 32 else c.reg g q d := by
  simp only [Chip.reg, Chip.setReg, tabFind_tabSet]
  by_cases h : regKey f off = regKey g q <;> simp [h]

/-- RSVD_WR is set by a 1 in a reserved bit (R9). -/
theorem rsvd_hdr (c : Chip) (pg : Page) (v m f : Nat) :
    (c.rsvd pg v m).hdr f =
      if pg.frame = f then { c.hdr pg.frame with rsvdWr := (c.hdr pg.frame).rsvdWr || v &&& m != 0 } else c.hdr f := by
  unfold Chip.rsvd
  by_cases h : v &&& m = 0
  · rw [if_pos h, h, show ((0 : Nat) != 0) = false from rfl, Bool.or_false]
    split
    · rename_i hf; rw [← hf]
    · rfl
  · rw [if_neg h, Chip.hdr_putHdr, bne_iff_ne.mpr h, Bool.or_true]

/-- Only the headers change. -/
theorem rsvd_frame (c : Chip) (pg : Page) (v m : Nat) : ∃ h, c.rsvd pg v m = { c with headers := h } := by
  unfold Chip.rsvd
  split
  · exact ⟨c.headers, rfl⟩
  · exact ⟨_, rfl⟩

/-- A write of the right width and alignment is one of the register it names. -/
theorem controlWrite_word {x : Ctx} {c : Chip} {r : Requester} {off o v : Nat} {pg : Page} (ht : Chip.target x c r off = some (pg, o))
    (ho : o % 4 = 0) (hv : v < 2 ^ 32) : Chip.controlWrite x c r off 32 v = Chip.write32 x c r pg o v := by
  have good : ¬ badWidth 32 o = true := by simp [badWidth, ho]
  simp only [Chip.controlWrite, ht]
  rw [if_neg good, if_neg (by decide), Nat.mod_eq_of_lt hv]

/-- A write of another width or alignment sets BAD_WIDTH (R26). -/
theorem controlWrite_badWidth {x : Ctx} {c : Chip} {r : Requester} {off o width v : Nat} {pg : Page} (ht : Chip.target x c r off = some (pg, o))
    (hf : c.fatal = 0) (hl : x.fuse.lifecycle ≠ 4) (hw : (width ≠ 32 ∧ width ≠ 64) ∨ o % (width / 8) ≠ 0) :
    Chip.controlWrite x c r off width v = (c.setBadWidth pg, x.fuse) := by
  have bad : badWidth width o = true := by simpa [badWidth] using hw
  simp only [Chip.controlWrite, ht]
  rw [if_pos bad, if_neg (by simp [hf, hl])]

/-- The pages whose registers all have a rule of their own store none. -/
theorem regKind_rw_blk {b : Block} {o mask reset : Nat} (h : regKind b o = .rw mask reset) :
    b ≠ .pcie ∧ b ≠ .evt ∧ b ≠ .foxglove ∧ b ≠ .sorrel := by
  refine ⟨?_, ?_, ?_, ?_⟩ <;> rintro rfl
  · simp only [regKind] at h; split_ifs at h
  · exact absurd h (by simp [regKind])
  · exact absurd h (by simp [regKind])
  · simp only [regKind] at h; split_ifs at h

/-- A stored register takes its writable bits; a 1 in a reserved bit is noted (R8, R9, R33). -/
theorem write32_stored {x : Ctx} {c : Chip} {r : Requester} {pg : Page} {o v mask reset : Nat} (hk : regKind pg.blk o = .rw mask reset)
    (ho : 0x100 ≤ o) (hf : c.fatal = 0) (hl : x.fuse.lifecycle ≠ 4) (hw : c.mayWrite r pg o = true) :
    Chip.write32 x c r pg o v =
      ((c.rsvd pg v (0xFFFFFFFF - regDefined pg.blk o)).setReg pg.frame o (v &&& regDefined pg.blk o &&& mask), x.fuse) := by
  obtain ⟨h1, h2, h3, h4⟩ := regKind_rw_blk hk
  simp only [Chip.write32, h1, h2, h3, h4, hf, hl, Chip.blockWrite, hw, hk, Nat.not_lt.mpr ho]
  rfl

theorem exec_controlWrite {s : State} (h : s.sound) {r : Requester} {off width v : Nat} {c : Chip}
    (hw : Chip.controlWrite s.ctx s.chip r off width v = (c, s.fuse)) (hc : c.staged = []) :
    exec (.regWrite r .control off width v) s = .next { s with chip := c.between } :=
  onFuse_unstaged (f := fun x c => Chip.regWrite x c r .control off width v) h hw hc

/-- REG_WRITE of a stored register. -/
theorem storedWrite_next {s : State} (h : s.sound) {r : Requester} {pg : Page} {off o v mask reset : Nat} (hf : s.chip.fatal = 0)
    (hl : s.fuse.lifecycle ≠ 4) (ht : Chip.target s.ctx s.chip r off = some (pg, o)) (ho : 0x100 ≤ o) (ha : o % 4 = 0)
    (hk : regKind pg.blk o = .rw mask reset) (hw : s.chip.mayWrite r pg o = true) (hv : v < 2 ^ 32) :
    nextWith (exec (.regWrite r .control off 32 v) s) (fun t =>
      t.mem = s.mem ∧ t.fuse = s.fuse ∧ t.pending = s.pending ∧
      t.chip.reg pg.frame o reset = v &&& regDefined pg.blk o &&& mask ∧
      (∀ f q d, regKey f q ≠ regKey pg.frame o → t.chip.reg f q d = s.chip.reg f q d) ∧
      t.chip.hdr pg.frame =
        { s.chip.hdr pg.frame with rsvdWr := (s.chip.hdr pg.frame).rsvdWr || v &&& (0xFFFFFFFF - regDefined pg.blk o) != 0 } ∧
      (∀ f, f ≠ pg.frame → t.chip.hdr f = s.chip.hdr f) ∧
      { t.chip with regs := [], headers := [] } = { s.chip with regs := [], headers := [] }) := by
  have written := (controlWrite_word ht ha hv).trans (write32_stored hk ho hf hl hw)
  have hdrs := rsvd_hdr s.chip pg v (0xFFFFFFFF - regDefined pg.blk o)
  obtain ⟨l, hr⟩ := rsvd_frame s.chip pg v (0xFFFFFFFF - regDefined pg.blk o)
  rw [hr] at written hdrs
  rw [exec_controlWrite h written (State.sound_unstaged h), nextWith_next]
  have small : v &&& regDefined pg.blk o &&& mask < 2 ^ 32 := (Nat.and_le_left.trans Nat.and_le_left).trans_lt hv
  refine ⟨rfl, rfl, rfl, ?_, fun f q d hq => ?_, (hdrs _).trans (if_pos rfl), fun f hf => (hdrs f).trans (if_neg (Ne.symm hf)), ?_⟩
  · refine (Chip.reg_setReg _ _ _ _ _ _ _).trans ?_
    rw [if_pos rfl, Nat.mod_eq_of_lt small]
  · refine (Chip.reg_setReg _ _ _ _ _ _ _).trans ?_
    rw [if_neg (Ne.symm hq)]
    rfl
  · show ({ s.chip.between with regs := [], headers := [] } : Chip) = _
    rw [State.sound_staged h]

/-! ### The configuration space (R336, R338, R355) -/

/-- Only what software has written changes. -/
theorem cfgPut_frame (c : Chip) (fn o v : Nat) : ∃ l, c.cfgPut fn o v = { c with fns := l } := by
  unfold Chip.cfgPut
  dsimp only
  split
  · exact ⟨c.fns, rfl⟩
  · exact ⟨_, rfl⟩

theorem cfgPut_staged (c : Chip) (fn o v : Nat) : (c.cfgPut fn o v).staged = c.staged := by
  obtain ⟨l, hl⟩ := cfgPut_frame c fn o v
  rw [hl]

theorem cfgMask_cfg (r : FnRegs) (t : Tab (BitVec 32)) (pf : Bool) (o : Nat) : ({ r with cfg := t } : FnRegs).cfgMask pf o = r.cfgMask pf o := rfl

/-- The writable bits of a configuration word read back as written, unless its payload or request size is above the limits of R336. -/
theorem cfgBits_cfgPut {c : Chip} {fn o v : Nat} (hv : v < 2 ^ 32) (ho : o = 0x078 → bitField v 7 5 ≤ 2 ∧ bitField v 14 12 ≤ 5) :
    (c.cfgPut fn o v).cfgBits fn o = v &&& (c.fnRegs fn).cfgMask (fn % 32 = 0) o := by
  have keep : (if o = 0x078 then (if 2 < bitField v 7 5 then 0xE0 else 0) + (if 5 < bitField v 14 12 then 0x7000 else 0) else 0) = 0 := by
    split
    · rename_i h
      rw [if_neg (not_lt.mpr (ho h).1), if_neg (not_lt.mpr (ho h).2)]
    · rfl
  unfold Chip.cfgPut
  dsimp only
  rw [keep]
  by_cases hm : (c.fnRegs fn).cfgMask (fn % 32 = 0) o = 0
  · rw [if_pos hm, Chip.cfgBits, hm, Nat.and_zero, Nat.and_zero]
  · have small : v &&& (c.fnRegs fn).cfgMask (fn % 32 = 0) o < 2 ^ 32 := Nat.and_le_left.trans_lt hv
    rw [if_neg hm, Chip.cfgBits, Chip.fnRegs_putFn, if_pos rfl, cfgMask_cfg (c.fnRegs fn) (tabSet (c.fnRegs fn).cfg o _)]
    dsimp only
    rw [tabFind_tabSet, if_pos rfl, Option.map_some, Option.getD_some, Nat.and_zero, Nat.or_zero, Nat.sub_zero, Nat.and_two_pow_sub_one_eq_mod,
      Nat.mod_eq_of_lt small, BitVec.toNat_ofNat, Nat.mod_eq_of_lt small, Nat.and_assoc, Nat.and_self]

/-- A word that is stored nowhere takes nothing. -/
theorem cfgPut_none {c : Chip} {fn o : Nat} (v : Nat) (h : (c.fnRegs fn).cfgMask (fn % 32 = 0) o = 0) : c.cfgPut fn o v = c := by
  simp only [Chip.cfgPut, h]
  rfl

theorem configRow_word {x : Ctx} {c : Chip} {r : Requester} {fn o v : Nat} (hr : fnOf r = some fn) (he : c.fnExists fn = true)
    (ho : o % 4 = 0) (hv : v < 2 ^ 32) : Chip.configRow x c r o 32 v = Chip.configWrite x c fn o v := by
  simp only [Chip.configRow, hr, he, ho, Nat.mod_eq_of_lt hv]
  rfl

/-- Below the SR-IOV capability a word is stored, and only the device control does more. -/
theorem configWrite_stored {x : Ctx} {c : Chip} {fn o v : Nat} (ho : o < 0x200) (h : o ≠ 0x078 ∨ bitAt v 15 = false) :
    Chip.configWrite x c fn o v = c.cfgPut fn o v := by
  simp only [Chip.configWrite]
  by_cases hd : o = 0x078
  · rw [if_pos hd, if_neg (by simpa [hd] using h)]
  · rw [if_neg hd]
    split
    · rfl
    · rw [if_neg (by omega), if_neg (by omega), if_neg (by omega), if_neg (by omega), if_neg (by omega)]

/-- Bit 15 of the device control resets the function (R355). -/
theorem configWrite_flr {x : Ctx} {c : Chip} {fn v : Nat} (h : bitAt v 15 = true) :
    Chip.configWrite x c fn 0x078 v = Chip.flr x (c.cfgPut fn 0x078 v) fn := by
  simp only [Chip.configWrite, h, if_true]

/-- VF Enable changed (R338). -/
theorem configWrite_vfEnable {x : Ctx} {c : Chip} {fn v : Nat} (hp : fn % 32 = 0) (h : bitAt v 0 ≠ (c.port (fn / 32)).vfEnable) :
    Chip.configWrite x c fn 0x208 v = Chip.vfEnable x (c.cfgPut fn 0x208 v) (fn / 32) (bitAt v 0) (c.port (fn / 32)).numVfs := by
  obtain ⟨l, hl⟩ := cfgPut_frame c fn 0x208 v
  have port : (c.cfgPut fn 0x208 v).port (fn / 32) = c.port (fn / 32) := by rw [hl]; rfl
  simp [Chip.configWrite, port, hp, h]

/-- NumVFs written while VF Enable is clear (R338). -/
theorem configWrite_numVfs {x : Ctx} {c : Chip} {fn v : Nat} (hp : fn % 32 = 0) (h : (c.port (fn / 32)).vfEnable = false) :
    Chip.configWrite x c fn 0x210 v = c.putPort (fn / 32) { c.port (fn / 32) with numVfs := min (v % 65536) 31 } := by
  simp [Chip.configWrite, cfgPut_none v (show (c.fnRegs fn).cfgMask (fn % 32 = 0) 0x210 = 0 from rfl), hp, h]

theorem exec_configWrite {s : State} (h : s.sound) {r : Requester} {fn o v : Nat} (hr : fnOf r = some fn) (he : s.chip.fnExists fn = true)
    (ho : o % 4 = 0) (hv : v < 2 ^ 32) {c : Chip} (hw : Chip.configWrite s.ctx s.chip fn o v = c) (hc : c.staged = []) :
    becomesJust (.regWrite r .config o 32 v) s c :=
  onFuse_unstaged (f := fun x c => Chip.regWrite x c r .config o 32 v) h
    (congrArg (·, s.fuse) ((configRow_word hr he ho hv).trans hw)) hc

/-- Where no perturbation is armed, a register write that makes of the chip what a row makes of another with the same headers is that
row (R417). -/
theorem onFuse_asRow {s : State} (h : s.sound) (hu : s.chip.unarmed) {d : Chip} (hd : d.headers = s.chip.headers) (hb : d.between = d)
    {g : Ctx → Chip → Chip × Fuses} {f : Ctx → Chip → Chip} (hg : g s.ctx s.chip = (f s.ctx d, s.fuse)) :
    onFuse g s = onChip f { s with chip := d } := by
  have frames : d.eccFrames = s.chip.eccFrames := by rw [Chip.eccFrames, hd, Chip.eccFrames]
  have ctx : ({ s with chip := d } : State).ctx = s.ctx := by simp only [State.ctx, frames]
  obtain ⟨t, ht, heq⟩ := (onChip_next f { s with chip := d } (· = _) (by rw [ctx]; exact Chip.unarmed_ecc hu)).mpr rfl
  obtain ⟨u, hu, hequ⟩ := (onFuse_next g s (· = _)).mpr rfl
  rw [ht, hu, heq, hequ, State.sound_staged h, hg, ctx]
  simp only [hb, Fuses.blow_self]

theorem exec_configRow {s : State} (h : s.sound) (hu : s.chip.unarmed) {r : Requester} {fn o v : Nat} (hr : fnOf r = some fn)
    (he : s.chip.fnExists fn = true) (ho : o % 4 = 0) (hv : v < 2 ^ 32) {f : Ctx → Chip → Chip}
    (hw : Chip.configWrite s.ctx s.chip fn o v = f s.ctx (s.chip.cfgPut fn o v)) :
    exec (.regWrite r .config o 32 v) s = onChip f { s with chip := s.chip.cfgPut fn o v } := by
  obtain ⟨l, hl⟩ := cfgPut_frame s.chip fn o v
  refine onFuse_asRow (g := fun x c => Chip.regWrite x c r .config o 32 v) h hu (by rw [hl]) ?_
    (congrArg (·, s.fuse) ((configRow_word hr he ho hv).trans hw))
  rw [hl]
  show ({ s.chip.between with fns := l } : Chip) = _
  rw [State.sound_staged h]

/-! ### The event table's memory (R46) -/

theorem getD_leBytes (n v i : Nat) (h : i < n) : (leBytes n v).getD i 0 = BitVec.ofNat 8 (v / 256 ^ i) := by
  induction n generalizing v i with
  | zero => omega
  | succ n ih =>
    cases i with
    | zero => simp [leBytes]
    | succ i => rw [leBytes, List.getD_cons_succ, ih _ _ (by omega), Nat.div_div_eq_div_mul, Nat.pow_succ, Nat.mul_comm]

/-- The 16 bytes of an entry with the bytes of a number laid over them from a byte on. -/
def overlaid (old : List Byte) (o n v : Nat) : List Byte :=
  (List.range 16).map (fun j => if o ≤ j && j < o + n then BitVec.ofNat 8 (v / 256 ^ (j - o)) else old.getD j 0)

/-- The bytes laid over read as the number. -/
theorem overlaid_same {o n v : Nat} (h : o + n ≤ 16) (old : List Byte) (hv : v < 256 ^ n) : leNat (((overlaid old o n v).drop o).take n) = v := by
  have bytes : ((overlaid old o n v).drop o).take n = leBytes n v := by
    refine List.ext_getElem (by simp [overlaid]; omega) fun i h1 h2 => ?_
    have hi : i < n := by simpa using h2
    rw [← List.getD_eq_getElem (leBytes n v) 0 h2, getD_leBytes n v i hi]
    simp [overlaid, hi]
  rw [bytes, leNat_leBytes n v hv]

/-- The other bytes stand. -/
theorem overlaid_other {o n v a k : Nat} (old : List Byte) (ho : old.length = 16) (h : a + k ≤ o ∨ o + n ≤ a) :
    ((overlaid old o n v).drop a).take k = (old.drop a).take k := by
  refine List.ext_getElem (by simp [overlaid, ho]) fun i h1 h2 => ?_
  have hi : i < k ∧ a + i < 16 := by simp [ho] at h2; omega
  have away : ¬ (o ≤ a + i ∧ a + i < o + n) := by omega
  simp [overlaid, away, ho, hi]

@[simp] theorem Event.bytes_length (e : Event) : e.bytes.length = 16 := by simp [Event.bytes]

theorem Event.bytes_threshold {e : Event} (h : e.threshold < 2 ^ 32) : leNat ((e.bytes.drop 4).take 4) = e.threshold := by
  rw [← leNat_leBytes 4 e.threshold h]
  rfl

theorem Event.bytes_vector {e : Event} (h : e.vector < 2 ^ 16) : leNat ((e.bytes.drop 10).take 2) = e.vector := by
  rw [← leNat_leBytes 2 e.vector h]
  rfl

theorem Event.bytes_flags {e : Event} (h : ∀ p, e.owner = some p → p < 16) :
    leNat ((e.bytes.drop 9).take 1) = flagNat e.irqOn + 2 * flagNat e.fabric + 4 * flagNat e.poisoned + 8 * flagNat e.overflow := by
  have value : leNat ((e.bytes.drop 9).take 1) = ((match e.owner with
      | some p => 128 + p
      | none => 0) + 256 * (flagNat e.irqOn + 2 * flagNat e.fabric + 4 * flagNat e.poisoned + 8 * flagNat e.overflow)) / 256 % 256 := rfl
  have bit (b : Bool) : flagNat b ≤ 1 := by cases b <;> decide
  have := bit e.irqOn
  have := bit e.fabric
  have := bit e.poisoned
  have := bit e.overflow
  rw [value]
  cases ho : e.owner with
  | none => dsimp only; omega
  | some p => have := h p ho; dsimp only; omega

/-- An entry of a line without an error is read as it stands (R408). -/
theorem meetEvent_good {s : State} {i : Nat} (h : s.entryGood i) : s.chip.meetEvent s.ctx i = s.chip := by
  have none : s.ctx.mem.lines.any (fun e => e.1 = evtLine i) = false :=
    List.any_eq_false.mpr fun e he => by simpa using h e he
  simp only [Chip.meetEvent, none]
  rfl

/-- A field of an entry as a write of it makes it. -/
def Event.field (e : Event) (o n v a k : Nat) : Nat := leNat (((overlaid e.bytes o n v).drop a).take k)

theorem Event.field_same (e : Event) {o n v : Nat} (h : o + n ≤ 16) (hv : v < 256 ^ n) : e.field o n v o n = v := overlaid_same h _ hv

theorem Event.field_other (e : Event) {o n a k : Nat} (v : Nat) (h : a + k ≤ o ∨ o + n ≤ a) :
    e.field o n v a k = leNat ((e.bytes.drop a).take k) := by
  rw [Event.field, overlaid_other _ e.bytes_length h]

/-- A write within the reach of its requester is taken, or refused whole (R46). -/
theorem eventWrite_eq {x : Ctx} {c : Chip} {r : Requester} {i o n v : Nat} (hf : c.fatal = 0) (hr : c.reachesEvents x.fuse r = true)
    (hi : i < 2 ^ 16) (ho : o < 16) (hn : 0 < n) :
    Chip.eventWrite x c r (16 * i + o) (8 * n) v =
      if !c.ownsEvent r i || !((List.range n).map (o + ·)).all eventByteOk ||
          (((List.range n).map (o + ·)).contains 9 && 4 ≤ (c.event i).field o n v 9 1) then
        c.send (.writeRefused r.code (16 * i + o) 2)
      else
        (c.meetEvent x i).putEvent i { (c.meetEvent x i).event i with
          threshold := (c.event i).field o n v 4 4, irqOn := bitAt ((c.event i).field o n v 9 1) 0
          fabric := bitAt ((c.event i).field o n v 9 1) 1, vector := (c.event i).field o n v 10 2 } := by
  have h1 : (16 * i + o) / 16 = i := by omega
  have h2 : (16 * i + o) % 16 = o := by omega
  have h3 : 8 * n / 8 = n := by omega
  have h4 : ¬ 0x100000 ≤ 16 * i + o := by omega
  have h5 : ¬ n = 0 := by omega
  simp only [Chip.eventWrite, h1, h2, h3]
  rw [if_neg (by simp [h4, h5, hf, hr])]
  rfl

/-- A write of the bytes a requester may write, of an entry it owns, is taken. -/
theorem eventWrite_taken {s : State} {r : Requester} {i o n v : Nat} (hf : s.chip.fatal = 0) (hr : s.chip.reachesEvents s.fuse r = true)
    (hi : i < 2 ^ 16) (ho : o < 16) (hn : 0 < n) (hown : s.chip.ownsEvent r i = true) (hg : s.entryGood i)
    (hb : ((List.range n).map (o + ·)).all eventByteOk = true)
    (h9 : ((List.range n).map (o + ·)).contains 9 = false ∨ (s.chip.event i).field o n v 9 1 < 4) :
    Chip.eventWrite s.ctx s.chip r (16 * i + o) (8 * n) v =
      s.chip.putEvent i { s.chip.event i with
        threshold := (s.chip.event i).field o n v 4 4, irqOn := bitAt ((s.chip.event i).field o n v 9 1) 0
        fabric := bitAt ((s.chip.event i).field o n v 9 1) 1, vector := (s.chip.event i).field o n v 10 2 } := by
  rw [eventWrite_eq hf hr hi ho hn, meetEvent_good hg, if_neg]
  rw [hown, hb]
  rcases h9 with h9 | h9
  · rw [h9, Bool.false_and]; decide
  · rw [decide_eq_false (not_le.mpr h9), Bool.and_false]; decide

/-- A write of an entry of another, of a byte that no write takes, or of a FLAGS bit that none does, is refused. -/
theorem eventWrite_refused {x : Ctx} {c : Chip} {r : Requester} {i o n v : Nat} (hf : c.fatal = 0) (hr : c.reachesEvents x.fuse r = true)
    (hi : i < 2 ^ 16) (ho : o < 16) (hn : 0 < n)
    (h : c.ownsEvent r i = false ∨ ((List.range n).map (o + ·)).all eventByteOk = false ∨
      ((List.range n).map (o + ·)).contains 9 = true ∧ 4 ≤ (c.event i).field o n v 9 1) :
    Chip.eventWrite x c r (16 * i + o) (8 * n) v = c.send (.writeRefused r.code (16 * i + o) 2) := by
  rw [eventWrite_eq hf hr hi ho hn, if_pos]
  rcases h with h | h | ⟨h, h'⟩
  · simp only [h]; simp
  · simp only [h]; simp
  · simp only [h, h']; simp

theorem exec_eventWrite {s : State} (h : s.sound) {r : Requester} {off width v : Nat} {c : Chip}
    (hw : Chip.eventWrite s.ctx s.chip r off width v = c) (hc : c.staged = []) : becomesJust (.regWrite r .event off width v) s c :=
  onFuse_unstaged (f := fun x c => Chip.regWrite x c r .event off width v) h (congrArg (·, s.fuse) hw) hc

/-- The flags of an entry as its byte holds them. -/
theorem bitAt_flags (a b c d : Bool) :
    bitAt (flagNat a + 2 * flagNat b + 4 * flagNat c + 8 * flagNat d) 0 = a ∧
      bitAt (flagNat a + 2 * flagNat b + 4 * flagNat c + 8 * flagNat d) 1 = b := by
  revert a b c d
  decide

/-- A byte that no write takes, anywhere among the bytes of a write. -/
theorem eventBytes_bad {o n : Nat} (h : ∃ j < n, o + j < 4 ∨ o + j = 8 ∨ 12 ≤ o + j) :
    ((List.range n).map (o + ·)).all eventByteOk = false := by
  obtain ⟨j, hj, hb⟩ := h
  refine List.all_eq_false.mpr ⟨o + j, List.mem_map.mpr ⟨j, List.mem_range.mpr hj, rfl⟩, ?_⟩
  simp only [eventByteOk, Bool.or_eq_true, Bool.and_eq_true, decide_eq_true_eq]
  omega

/-- REG_WRITE of the settings of an entry that its requester owns (R46). -/
theorem eventWrite_settings {s : State} {r : Requester} {i v : Nat} (h : s.sound) (hf : s.chip.fatal = 0) (hi : i < 2 ^ 16)
    (hr : s.chip.reachesEvents s.fuse r = true) (hown : s.chip.ownsEvent r i = true) (hg : s.entryGood i)
    (ht : (s.chip.event i).threshold < 2 ^ 32) (hv : (s.chip.event i).vector < 2 ^ 16) (ho : ∀ p, (s.chip.event i).owner = some p → p < 16) :
    (v < 2 ^ 32 → becomesJust (.regWrite r .event (16 * i + 4) 32 v) s (s.chip.putEvent i { s.chip.event i with threshold := v })) ∧
    (v < 2 ^ 16 → becomesJust (.regWrite r .event (16 * i + 10) 16 v) s (s.chip.putEvent i { s.chip.event i with vector := v })) ∧
    (v < 4 → becomesJust (.regWrite r .event (16 * i + 9) 8 v) s
      (s.chip.putEvent i { s.chip.event i with irqOn := v % 2 = 1, fabric := 2 ≤ v })) ∧
    (4 ≤ v → v < 256 → becomesJust (.regWrite r .event (16 * i + 9) 8 v) s (s.chip.send (.writeRefused r.code (16 * i + 9) 2))) := by
  have unstaged := State.sound_unstaged h
  obtain ⟨irq, fabric⟩ := bitAt_flags (s.chip.event i).irqOn (s.chip.event i).fabric (s.chip.event i).poisoned (s.chip.event i).overflow
  refine ⟨fun hw => ?_, fun hw => ?_, fun hw => ?_, fun hw hw' => ?_⟩
  · refine exec_eventWrite h ((eventWrite_taken (o := 4) (n := 4) hf hr hi (by decide) (by decide) hown hg
      (by decide) (.inl (by decide))).trans ?_) unstaged
    rw [Event.field_same _ (by decide) hw, Event.field_other _ v (.inr (by decide)), Event.field_other _ v (.inr (by decide)),
      Event.bytes_flags ho, Event.bytes_vector hv, irq, fabric]
  · refine exec_eventWrite h ((eventWrite_taken (o := 10) (n := 2) hf hr hi (by decide) (by decide) hown hg
      (by decide) (.inl (by decide))).trans ?_) unstaged
    rw [Event.field_same _ (by decide) hw, Event.field_other _ v (.inl (by decide)), Event.field_other _ v (.inl (by decide)),
      Event.bytes_flags ho, Event.bytes_threshold ht, irq, fabric]
  · have flags : (s.chip.event i).field 9 1 v 9 1 = v := Event.field_same _ (by decide) (by omega)
    obtain ⟨low, high⟩ := (by decide : ∀ w < 4, bitAt w 0 = decide (w % 2 = 1) ∧ bitAt w 1 = decide (2 ≤ w)) v hw
    refine exec_eventWrite h ((eventWrite_taken (o := 9) (n := 1) hf hr hi (by decide) (by decide) hown hg
      (by decide) (.inr (by omega))).trans ?_) unstaged
    rw [flags, Event.field_other _ v (.inl (by decide)), Event.field_other _ v (.inr (by decide)),
      Event.bytes_threshold ht, Event.bytes_vector hv, low, high]
  · have flags : (s.chip.event i).field 9 1 v 9 1 = v := Event.field_same _ (by decide) (by omega)
    exact exec_eventWrite h (eventWrite_refused (o := 9) (n := 1) hf hr hi (by decide) (by decide)
      (.inr (.inr ⟨by decide, by omega⟩))) unstaged

/-- REG_WRITE of an entry of another requester, or of a byte that no write takes (R46). -/
theorem eventWrite_denied {s : State} {r : Requester} {i o n : Nat} (v : Nat) (h : s.sound) (hf : s.chip.fatal = 0) (hi : i < 2 ^ 16)
    (hr : s.chip.reachesEvents s.fuse r = true) (ho : o < 16) (hn : 0 < n)
    (hd : s.chip.ownsEvent r i = false ∨ ∃ j < n, o + j < 4 ∨ o + j = 8 ∨ 12 ≤ o + j) :
    becomesJust (.regWrite r .event (16 * i + o) (8 * n) v) s (s.chip.send (.writeRefused r.code (16 * i + o) 2)) :=
  exec_eventWrite h (eventWrite_refused hf hr hi ho hn (hd.imp_right fun hb => .inl (eventBytes_bad hb))) (State.sound_unstaged h)

/-! ### BAR2 (R341, R346, R350) -/

theorem bar2Row_word {x : Ctx} {c : Chip} {r : Requester} {fn off v : Nat} (hr : fnOf r = some fn) (hw : c.fnWrites fn = true)
    (hs : c.sec.recovery = false) (ho : off % 4 = 0) (hv : v < 2 ^ 32) : Chip.bar2Row x c r off 32 v = Chip.bar2Write x c fn off v := by
  rw [Chip.bar2Row, hr]
  dsimp only
  rw [if_neg (by simp [hw, hs, badWidth, ho]), if_neg (by decide), Nat.mod_eq_of_lt hv]

theorem bar2Write_tail {x : Ctx} {c : Chip} {fn q v : Nat} (hq : q < 256) : Chip.bar2Write x c fn (4096 * q) v = c.sqTail fn q v := by
  have h1 : 4096 * q < 0x100000 := by omega
  have h2 : 4096 * q % 0x1000 = 0 := by omega
  have h3 : 4096 * q / 0x1000 = q := by omega
  simp only [Chip.bar2Write, h1, h2, h3, if_true]

theorem bar2Write_head {x : Ctx} {c : Chip} {fn q v : Nat} (hq : q < 256) : Chip.bar2Write x c fn (4096 * q + 4) v = c.cqHead fn q v := by
  have h1 : 4096 * q + 4 < 0x100000 := by omega
  have h2 : (4096 * q + 4) % 0x1000 = 4 := by omega
  have h3 : (4096 * q + 4) / 0x1000 = q := by omega
  simp only [Chip.bar2Write, h1, h2, h3, if_true]
  rfl

/-- The pending bits are read only (R341). -/
theorem bar2Write_pending {x : Ctx} {c : Chip} {fn off v : Nat} (hlo : 0x108000 ≤ off) (hhi : off < 0x110000) :
    Chip.bar2Write x c fn off v = c := by
  simp only [Chip.bar2Write]
  rw [if_neg (by omega), if_neg (by omega), if_pos hhi]

theorem bar2Write_sq {x : Ctx} {c : Chip} {fn q o v : Nat} (hq : q < 256) (ho : o < 32) :
    Chip.bar2Write x c fn (0x110000 + o + 32 * q) v = Chip.sqRegWrite x c fn q o v := by
  have h1 : (0x110000 + o + 32 * q - 0x110000) / 32 = q := by omega
  have h2 : (0x110000 + o + 32 * q - 0x110000) % 32 = o := by omega
  simp only [Chip.bar2Write, h1, h2]
  rw [if_neg (by omega), if_neg (by omega), if_neg (by omega), if_pos (by omega)]

theorem bar2Write_cq {x : Ctx} {c : Chip} {fn q o v : Nat} (hq : q < 256) (ho : o < 32) :
    Chip.bar2Write x c fn (0x112000 + o + 32 * q) v = c.cqRegWrite fn q o v := by
  have h1 : (0x112000 + o + 32 * q - 0x112000) / 32 = q := by omega
  have h2 : (0x112000 + o + 32 * q - 0x112000) % 32 = o := by omega
  simp only [Chip.bar2Write, h1, h2]
  rw [if_neg (by omega), if_neg (by omega), if_neg (by omega), if_neg (by omega), if_pos (by omega)]

theorem bitAt_0 (v : Nat) : bitAt v 0 = decide (v % 2 = 1) := by
  rw [bitAt, Nat.pow_zero, Nat.div_one]
  rfl

/-- A function's own registers (R350). -/
theorem bar2Write_function (x : Ctx) (c : Chip) (fn v : Nat) :
    Chip.bar2Write x c fn 0x114004 v = c.putFn fn { c.fnRegs fn with roEn := v % 2 = 1 } ∧
    Chip.bar2Write x c fn 0x114008 v = c.putFn fn { c.fnRegs fn with pageVec := BitVec.ofNat 32 (v &&& 0x800007FF) } ∧
    Chip.bar2Write x c fn 0x11400C v = c.putFn fn { c.fnRegs fn with errVec := BitVec.ofNat 32 (v &&& 0x800007FF) } ∧
    Chip.bar2Write x c fn 0x114014 v = c.putFn fn { c.fnRegs fn with win4 := v % 1024 } := by
  rw [← bitAt_0]
  exact ⟨rfl, rfl, rfl, rfl⟩

theorem bitAt_31 {v : Nat} (hv : v < 2 ^ 32) : bitAt v 31 = decide (2 ^ 31 ≤ v) := by
  unfold bitAt
  rw [Bool.eq_iff_iff, beq_iff_eq, decide_eq_true_eq]
  omega

theorem bar2Write_sqEnable {x : Ctx} {c : Chip} {fn q v : Nat} (hq : q < 256) (hv : v < 2 ^ 32) (he : 2 ^ 31 ≤ v) :
    Chip.bar2Write x c fn (0x110008 + 32 * q) v = c.sqEnable fn q v := by
  refine (bar2Write_sq (o := 8) hq (by decide)).trans ?_
  simp only [Chip.sqRegWrite, bitAt_31 hv, decide_eq_true he]
  rfl

theorem bar2Write_cqConfig {x : Ctx} {c : Chip} {fn q v : Nat} (hq : q < 256) (hv : v < 2 ^ 32) :
    Chip.bar2Write x c fn (0x112008 + 32 * q) v = if 2 ^ 31 ≤ v then c.cqEnable fn q v else c.cqDisable fn q v := by
  refine (bar2Write_cq (o := 8) hq (by decide)).trans ?_
  simp only [Chip.cqRegWrite, bitAt_31 hv, decide_eq_true_eq]
  rfl

theorem bar2Write_sqBase {x : Ctx} {c : Chip} {fn q v : Nat} (hq : q < 256) :
    Chip.bar2Write x c fn (0x110000 + 32 * q) v = c.putSq (256 * fn + q)
      (if (c.sq (256 * fn + q)).enable then { c.sq (256 * fn + q) with cause := 4 }
        else { c.sq (256 * fn + q) with base := (c.sq (256 * fn + q)).base / 2 ^ 32 * 2 ^ 32 + v / 64 * 64 }) := by
  refine (bar2Write_sq (o := 0) hq (by decide)).trans ?_
  rw [apply_ite (c.putSq (256 * fn + q))]
  rfl

theorem bar2Write_cqBase {x : Ctx} {c : Chip} {fn q v : Nat} (hq : q < 256) :
    Chip.bar2Write x c fn (0x112000 + 32 * q) v = c.putCq (256 * fn + q)
      (if (c.cq (256 * fn + q)).enable then { c.cq (256 * fn + q) with cause := 4 }
        else { c.cq (256 * fn + q) with base := (c.cq (256 * fn + q)).base / 2 ^ 32 * 2 ^ 32 + v / 64 * 64 }) := by
  refine (bar2Write_cq (o := 0) hq (by decide)).trans ?_
  rw [apply_ite (c.putCq (256 * fn + q))]
  rfl

theorem bar2Write_coalUs {x : Ctx} {c : Chip} {fn q v : Nat} (hq : q < 256) :
    Chip.bar2Write x c fn (0x112014 + 32 * q) v = c.putCq (256 * fn + q) { c.cq (256 * fn + q) with coalUs := v % 65536 } :=
  bar2Write_cq (o := 0x14) hq (by decide)

theorem settleSq_staged (c : Chip) (key : Nat) : (c.settleSq key).staged = c.staged := by
  obtain ⟨l, hl, -⟩ := settleSq_frame c key
  rw [hl]

theorem beginExit_staged (c : Chip) : c.beginExit.staged = c.staged := by
  unfold Chip.beginExit Chip.beginTrans
  split
  · rfl
  · split
    · rfl
    · split <;> rfl

theorem badDoorbell_staged (c : Chip) (fn : Nat) : (c.badDoorbell fn).staged = c.staged := by simp [Chip.badDoorbell]

theorem doorbellWakes_staged (c : Chip) (fn : Nat) : (c.doorbellWakes fn).staged = c.staged := by
  unfold Chip.doorbellWakes
  split
  · exact beginExit_staged c
  · rfl

theorem sqTail_staged (c : Chip) (fn q v : Nat) : (c.sqTail fn q v).staged = c.staged := by
  unfold Chip.sqTail
  dsimp only
  split_ifs <;> simp [badDoorbell_staged, doorbellWakes_staged]

theorem cqHead_staged (c : Chip) (fn q v : Nat) : (c.cqHead fn q v).staged = c.staged := by
  unfold Chip.cqHead
  dsimp only
  split_ifs <;> simp [badDoorbell_staged, doorbellWakes_staged]

theorem sqEnable_staged (c : Chip) (fn q v : Nat) : (c.sqEnable fn q v).staged = c.staged := by
  unfold Chip.sqEnable
  dsimp only
  split_ifs <;> simp [settleSq_staged]

theorem cqEnable_staged (c : Chip) (fn q v : Nat) : (c.cqEnable fn q v).staged = c.staged := by
  unfold Chip.cqEnable
  dsimp only
  split_ifs <;> simp

theorem cqDisable_staged (c : Chip) (fn q v : Nat) : (c.cqDisable fn q v).staged = c.staged := by
  unfold Chip.cqDisable
  dsimp only
  split_ifs <;> simp

theorem exec_bar2Write {s : State} (h : s.sound) {r : Requester} {fn off v : Nat} (hr : fnOf r = some fn) (hw : s.chip.fnWrites fn = true)
    (hs : s.chip.sec.recovery = false) (ho : off % 4 = 0) (hv : v < 2 ^ 32) {c : Chip} (hb : Chip.bar2Write s.ctx s.chip fn off v = c)
    (hc : c.staged = s.chip.staged) : becomesJust (.regWrite r .bar2 off 32 v) s c :=
  onFuse_unstaged (f := fun x c => Chip.regWrite x c r .bar2 off 32 v) h
    (congrArg (·, s.fuse) ((bar2Row_word hr hw hs ho hv).trans hb)) (hc.trans (State.sound_unstaged h))

/-- A write of BAR2 that is a row of its own does what that row does. -/
theorem becomesJust_row {s : State} (h : s.sound) {i : Instr} {f : Chip → Chip} (hi : becomesJust i s (f s.chip))
    (hf : (f s.chip).staged = s.chip.staged) : exec i s = onChip (fun _ c => f c) s :=
  hi.trans (onChip_unstaged (f := fun _ c => f c) h (hf.trans (State.sound_unstaged h))).symm

/-- REG_WRITE of the pending bits, at any alignment. -/
theorem bar2Row_pending {x : Ctx} {c : Chip} {r : Requester} {off v : Nat} (hlo : 0x108000 ≤ off) (hhi : off < 0x110000) :
    Chip.bar2Row x c r off 32 v = c := by
  unfold Chip.bar2Row
  split
  · rfl
  · split
    · rfl
    · exact bar2Write_pending hlo hhi

/-! ### The statement -/

/-- The doorbells and the enabling and disabling of queues: the write of the register is the row (R346, R350). -/
theorem bar2Write_rows {s : State} (h : s.sound) {r : Requester} {fn q v : Nat} (hr : fnOf r = some fn) (hw : s.chip.fnWrites fn = true)
    (hs : s.chip.sec.recovery = false) (hq : q < 256) (hv : v < 2 ^ 32) :
    exec (.regWrite r .bar2 (4096 * q) 32 v) s = exec (.sqTailDoorbell fn q v) s ∧
    exec (.regWrite r .bar2 (4096 * q + 4) 32 v) s = exec (.cqHeadDoorbell fn q v) s ∧
    (2 ^ 31 ≤ v → exec (.regWrite r .bar2 (0x110008 + 32 * q) 32 v) s = exec (.sqEnable fn q v) s ∧
      exec (.regWrite r .bar2 (0x112008 + 32 * q) 32 v) s = exec (.cqEnable fn q v) s) ∧
    (v < 2 ^ 31 → exec (.regWrite r .bar2 (0x112008 + 32 * q) 32 v) s = exec (.cqDisable fn q v) s) := by
  have row (off : Nat) (f : Chip → Chip) (ho : off % 4 = 0) (hb : Chip.bar2Write s.ctx s.chip fn off v = f s.chip)
      (hc : (f s.chip).staged = s.chip.staged) : exec (.regWrite r .bar2 off 32 v) s = onChip (fun _ c => f c) s :=
    becomesJust_row h (exec_bar2Write h hr hw hs ho hv hb hc) hc
  exact ⟨row (4096 * q) (·.sqTail fn q v) (by omega) (bar2Write_tail hq) (sqTail_staged _ _ _ _),
    row (4096 * q + 4) (·.cqHead fn q v) (by omega) (bar2Write_head hq) (cqHead_staged _ _ _ _),
    fun he => ⟨row (0x110008 + 32 * q) (·.sqEnable fn q v) (by omega) (bar2Write_sqEnable hq hv he) (sqEnable_staged _ _ _ _),
      row (0x112008 + 32 * q) (·.cqEnable fn q v) (by omega) ((bar2Write_cqConfig hq hv).trans (if_pos he)) (cqEnable_staged _ _ _ _)⟩,
    fun hd => row (0x112008 + 32 * q) (·.cqDisable fn q v) (by omega) ((bar2Write_cqConfig hq hv).trans (if_neg (not_le.mpr hd)))
      (cqDisable_staged _ _ _ _)⟩

/-- Settles O9: a write of each space is the model's equation for the register it names. -/
theorem storedRegisterWrite : Obligations.StoredRegisterWrite := by
  refine ⟨fun s r pg off o v h hf hl ht => ⟨fun mask reset ho ha hk hw hv => storedWrite_next h hf hl ht ho ha hk hw hv, fun width hw => ?_⟩,
    fun s r i v h hf hi hr => ⟨fun hown hg ht hv ho => eventWrite_settings h hf hi hr hown hg ht hv ho,
      fun o n ho hn hd => eventWrite_denied v h hf hi hr ho hn hd⟩,
    fun s r fn q v h hr hw hs hq hv => ?_, fun s r fn o v h hr he hv ho => ⟨fun hlo hne => ?_, fun hd hb => ?_, fun hd hb hu => ?_,
      fun hd hp hb hu => ?_, fun hd hp hb => ?_⟩⟩
  · exact exec_controlWrite h (controlWrite_badWidth ht hf hl hw) (State.sound_unstaged h)
  · obtain ⟨tail, head, enable, disable⟩ := bar2Write_rows h hr hw hs hq hv
    obtain ⟨roEn, pageVec, errVec, win4⟩ := bar2Write_function s.ctx s.chip fn v
    have word (off : Nat) (c : Chip) (ho : off % 4 = 0) (hb : Chip.bar2Write s.ctx s.chip fn off v = c) (hc : c.staged = s.chip.staged) :
        becomesJust (.regWrite r .bar2 off 32 v) s c := exec_bar2Write h hr hw hs ho hv hb hc
    refine ⟨tail, head, enable, disable, word _ _ (by omega) (bar2Write_sqBase hq) rfl, word _ _ (by omega) (bar2Write_cqBase hq) rfl,
      word _ _ (by omega) (bar2Write_coalUs hq) rfl, word _ _ (by decide) roEn rfl, word _ _ (by decide) pageVec rfl,
      word _ _ (by decide) errVec rfl, word _ _ (by decide) win4 rfl, fun off hlo hhi => ?_⟩
    exact (onFuse_unstaged (f := fun x c => Chip.regWrite x c r .bar2 off 32 v) h (congrArg (·, s.fuse) (bar2Row_pending hlo hhi))
      (State.sound_unstaged h)).trans (State.sound_next h)
  · exact ⟨exec_configWrite h hr he ho hv (configWrite_stored hlo (.inl hne)) ((cfgPut_staged _ _ _ _).trans (State.sound_unstaged h)),
      cfgBits_cfgPut hv (fun hd => absurd hd hne)⟩
  · subst hd
    exact ⟨exec_configWrite h hr he ho hv (configWrite_stored (by decide) (.inr hb)) ((cfgPut_staged _ _ _ _).trans (State.sound_unstaged h)),
      fun hp hq => cfgBits_cfgPut hv (fun _ => ⟨hp, hq⟩)⟩
  · subst hd
    exact exec_configRow h hu hr he ho hv (f := fun x c => Chip.flr x c fn) (configWrite_flr hb)
  · subst hd
    exact exec_configRow h hu hr he ho hv (f := fun x c => Chip.vfEnable x c (fn / 32) (bitAt v 0) (s.chip.port (fn / 32)).numVfs)
      (configWrite_vfEnable hp hb)
  · subst hd
    exact exec_configWrite h hr he ho hv (configWrite_numVfs hp hb) (State.sound_unstaged h)

end Sys2Proof.Machine
end

section
/-! SUPPORT. Every command answers a next state, and the statement about it. -/

namespace Sys2Proof.Machine

/-- Settles O5: the arm of every command is a step of the chip (`onStep`) or of chip and fuses (`onFuse`), and both are written as a next
state with the queue of the state before. -/
theorem everyCommandCompletes : Obligations.EveryCommandCompletes := by
  intro i s
  cases i <;> exact ⟨_, rfl, rfl⟩

end Sys2Proof.Machine
end

section
/-! SUPPORT. Writes of page controls that a requester may and may not make, reads of counters, and the statements about them. -/

namespace Sys2Proof.Machine

/-! ### Guarded writes (R33, R358, R400) -/

theorem tabSet_tabSet {α : Type} (t : Tab α) (i : Nat) (x y : α) : tabSet (tabSet t i x) i y = tabSet t i y := by
  induction t with
  | nil => simp [tabSet]
  | cons e t ih =>
    obtain ⟨k, v⟩ := e
    simp only [tabSet]
    split_ifs <;> simp_all [tabSet]

/-- The last header put stands. -/
theorem Chip.putHdr_putHdr (c : Chip) (f : Nat) (g h : Header) : (c.putHdr f g).putHdr f h = c.putHdr f h := by
  simp only [Chip.putHdr, tabSet_tabSet]

/-- A write that reaches its page is served. -/
theorem reached_live {s : State} {r : Requester} {pg : Page} (h : s.reached r pg) :
    (!Chip.sees s.ctx s.chip r pg || s.chip.fatal ≠ 0 || s.ctx.fuse.lifecycle = 4) = false := by
  obtain ⟨hsees, hfatal, hlife⟩ := h
  simpa [hsees, hfatal, show s.ctx.fuse = s.fuse from rfl] using hlife

/-- It is made by a requester that may make it, and refused to any other. -/
theorem guarded_reached {s : State} {r : Requester} {pg : Page} (h : s.reached r pg) (off : Nat) (f : Chip → Chip) :
    Chip.guarded s.ctx s.chip r pg off f = if s.chip.mayWrite r pg off then f s.chip else s.chip.deny pg := by
  rw [Chip.guarded, reached_live h, if_neg Bool.false_ne_true]
  cases s.chip.mayWrite r pg off <;> rfl

/-- In the fatal state and in SCRAPPED a guarded write changes nothing. -/
theorem guarded_dead {s : State} (h : s.chip.fatal ≠ 0 ∨ s.fuse.lifecycle = 4) (r : Requester) (pg : Page) (off : Nat) (f : Chip → Chip) :
    Chip.guarded s.ctx s.chip r pg off f = s.chip := by
  refine if_pos ?_
  rcases h with h | h
  · simp [h]
  · simp [show s.ctx.fuse.lifecycle = 4 from h]

/-- A step that makes `d` of the chip, with nothing staged. -/
theorem onStep_just {s : State} (h : s.sound) {part : Chip → Option Nat} {f : Ctx → Chip → Chip} {d : Chip} (hd : f s.ctx s.chip = d)
    (hs : d.staged = s.chip.staged) : onStep part f s = .next { s with chip := d.between } := by
  have same : f s.ctx s.chip.between = d := by rw [State.sound_staged h, hd]
  have empty : d.staged = [] := hs.trans (State.sound_unstaged h)
  obtain ⟨t, ht, heq⟩ := (onStep_next part f s (· = { s with chip := d.between })).mpr (by
    rw [same, eccStored_idle empty, empty, Memory.commit_nil])
  rw [ht, heq]

theorem onChip_just {s : State} (h : s.sound) {f : Ctx → Chip → Chip} {d : Chip} (hd : f s.ctx s.chip = d) (hs : d.staged = s.chip.staged) :
    onChip f s = .next { s with chip := d.between } := onStep_just h hd hs

/-- A running command's step that makes `d` of the chip, with nothing staged. -/
theorem onOp_just {s : State} (h : s.sound) {id op : Nat} {k : Cmd} (hk : s.chip.runs id op k) {body : Ctx → Chip → Cmd → Chip} {d : Chip}
    (hd : body s.ctx s.chip k = d) (hs : d.staged = s.chip.staged) : onOp id op body s = .next { s with chip := d.between } :=
  onStep_just h ((runOp_runs (body s.ctx) hk).trans hd) hs

/-- A permitted write that stages nothing. -/
theorem onChip_permitted {s : State} (h : s.sound) {r : Requester} {pg : Page} (hr : s.reached r pg) {off : Nat}
    (hw : s.chip.mayWrite r pg off = true) (f : Ctx → Chip → Chip) {d : Chip} (hd : f s.ctx s.chip = d) (hs : d.staged = s.chip.staged) :
    onChip (fun x c => Chip.guarded x c r pg off (f x)) s = .next { s with chip := d.between } := by
  refine onChip_just h ?_ hs
  rw [guarded_reached hr, if_pos hw, hd]

/-- A refused write. -/
theorem onChip_refused {s : State} (h : s.sound) {r : Requester} {pg : Page} (hr : s.reached r pg) {off : Nat}
    (hw : s.chip.mayWrite r pg off = false) (f : Ctx → Chip → Chip) :
    onChip (fun x c => Chip.guarded x c r pg off (f x)) s = .next { s with chip := (s.chip.deny pg).between } := by
  refine onChip_just h ?_ rfl
  rw [guarded_reached hr, hw, if_neg Bool.false_ne_true]

/-- A write that is dead. -/
theorem onChip_dead {s : State} (h : s.sound) (hd : s.chip.fatal ≠ 0 ∨ s.fuse.lifecycle = 4) (r : Requester) (pg : Page) (off : Nat)
    (f : Ctx → Chip → Chip) : onChip (fun x c => Chip.guarded x c r pg off (f x)) s = .next s :=
  (onChip_just h (guarded_dead hd r pg off (f s.ctx)) rfl).trans (State.sound_next h)

/-- The rows that are one write of a register of a page are guarded writes of it. -/
theorem exec_writeOf {i : Instr} {r : Requester} {pg : Page} {off : Nat} (h : i.writeOf = some (r, pg, off)) :
    ∃ f : Ctx → Chip → Chip, exec i = onChip (fun x c => Chip.guarded x c r pg off (f x)) := by
  unfold Instr.writeOf at h
  split at h
  case h_1 => cases h; exact ⟨fun x c => Chip.softReset x c pg, rfl⟩
  case h_2 => cases h; exact ⟨fun _ c => c.clearCounters pg, rfl⟩
  case h_3 mask => cases h; exact ⟨fun _ c => (c.rsvd pg mask (allBits - headerMask pg.blk 0x01C)).clearIrq pg mask, rfl⟩
  case h_4 => cases h; exact ⟨fun _ c => c.clearElog pg, rfl⟩
  case h_5 e off v =>
    cases h
    exact ⟨fun _ c => if 0x130 ≤ off && off ≤ 0x154 && off % 4 = 0 then c.segWrite e off (v % 2 ^ 32) else c, rfl⟩
  case h_6 p on => cases h; exact ⟨fun _ c => c.portCtrl p on false, rfl⟩
  case h_7 p => cases h; exact ⟨fun _ c => c.portCtrl p (c.link p).enable true, rfl⟩
  case h_8 r v =>
    cases h
    exact ⟨fun _ c => (c.rsvd vetchFabPage v (allBits - 0x80000FFF)).deviceIdWrite r (v &&& 0x80000FFF), rfl⟩
  case h_9 => cases h

/-- Settles O8: each of the rows is a guarded write. -/
theorem refusedWrites : Obligations.RefusedWrites := by
  intro i s r pg off h hi
  obtain ⟨f, hf⟩ := exec_writeOf hi
  refine ⟨fun hr hw => ?_, fun hd => ?_⟩
  · rw [becomesJust, hf]
    exact onChip_refused h hr hw f
  · rw [hf]
    exact onChip_dead h hd r pg off f

/-! ### Page controls (R29, R30, R32, R411) -/

/-- IRQ_CLR clears the bits written 1, and notes a 1 in a reserved bit. -/
theorem rsvd_clearIrq (c : Chip) (pg : Page) (mask : Nat) :
    (c.rsvd pg mask (allBits - headerMask pg.blk 0x01C)).clearIrq pg mask =
      c.putHdr pg.frame
        { c.hdr pg.frame with
          irqRaw := (c.hdr pg.frame).irqRaw &&& ~~~ BitVec.ofNat 32 mask
          rsvdWr := (c.hdr pg.frame).rsvdWr || mask &&& (0xFFFFFFFF - (2 ^ pg.blk.nIrq - 1)) != 0 } := by
  have bits : allBits - headerMask pg.blk 0x01C = 0xFFFFFFFF - (2 ^ pg.blk.nIrq - 1) := rfl
  rw [bits, Chip.clearIrq, rsvd_hdr, if_pos rfl, Chip.rsvd]
  split
  · rfl
  · exact Chip.putHdr_putHdr _ _ _ _

theorem quiesceRow_permitted {s : State} {r : Requester} {pg : Page} (h : s.reached r pg) (hw : s.chip.mayQuiesce r pg = true) (on : Bool) :
    Chip.quiesceRow s.ctx s.chip r pg on = s.chip.setQuiesce pg on := by
  rw [Chip.quiesceRow, reached_live h, if_neg Bool.false_ne_true, if_neg (by simp [hw])]

/-! ### Counters as they read (R32) -/

/-- The counters' words of a header. -/
theorem readHeader_counter (c : Chip) (req : Nat) (pg : Page) {off : Nat} (hlo : 0x040 ≤ off) (hhi : off < 0x080) :
    c.readHeader req pg off =
      if off % 8 = 0 then (c.hdr pg.frame).ctr.getD ((off - 0x040) / 8) 0 % 2 ^ 32
      else match tabFind c.latch (2 ^ 14 * req + pg.frame) with
        | some l => if l.1 = (off - 0x040) / 8 then l.2 else (c.hdr pg.frame).ctr.getD ((off - 0x040) / 8) 0 / 2 ^ 32
        | none => (c.hdr pg.frame).ctr.getD ((off - 0x040) / 8) 0 / 2 ^ 32 := by
  unfold Chip.readHeader
  iterate 15 rw [if_neg (by omega)]
  exact if_pos (by simp [hlo, hhi])

/-- A read of one aligned word of the control view (R26). -/
theorem controlRead_word {x : Ctx} {c : Chip} {r : Requester} {off o : Nat} {pg : Page} (ht : Chip.target x c r off = some (pg, o))
    (ho : o % 4 = 0) :
    Chip.controlRead x c r off 32 = (c.readEffect r pg o).send (.readData r.code off (Chip.readReg x c r pg o % 2 ^ 32)) := by
  have word : o / 4 * 4 = o := by omega
  simp [Chip.controlRead, ht, ho, word]

/-- A read of a counter's low half returns it and latches the other (R32). -/
theorem controlRead_counterLo {x : Ctx} {c : Chip} {r : Requester} {off n : Nat} {pg : Page} (hn : n < 8)
    (ht : Chip.target x c r off = some (pg, 0x040 + 8 * n)) :
    Chip.controlRead x c r off 32 =
      (c.latchCounter r.code pg n ((c.hdr pg.frame).ctr.getD n 0 / 2 ^ 32)).send
        (.readData r.code off ((c.hdr pg.frame).ctr.getD n 0 % 2 ^ 32)) := by
  have index : (0x040 + 8 * n - 0x040) / 8 = n := by omega
  have effect : c.readEffect r pg (0x040 + 8 * n) = c.latchCounter r.code pg n ((c.hdr pg.frame).ctr.getD n 0 / 2 ^ 32) := by
    rw [Chip.readEffect, if_pos (by simp only [Bool.and_eq_true, decide_eq_true_eq]; omega), index]
  have value : Chip.readReg x c r pg (0x040 + 8 * n) = (c.hdr pg.frame).ctr.getD n 0 % 2 ^ 32 := by
    rw [Chip.readReg, if_pos (by omega), readHeader_counter c _ _ (by omega) (by omega), if_pos (by omega), index]
  rw [controlRead_word ht (by omega), effect, value, Nat.mod_mod]

/-- What a read of a counter's high half returns: the latched value where the requester's latch holds the counter, else the live bits. -/
def Chip.counterHi (c : Chip) (r : Requester) (pg : Page) (n : Nat) : Nat :=
  match tabFind c.latch (2 ^ 14 * r.code + pg.frame) with
  | some (m, h) => if m = n then h else (c.hdr pg.frame).ctr.getD n 0 / 2 ^ 32
  | none => (c.hdr pg.frame).ctr.getD n 0 / 2 ^ 32

theorem Chip.counterHi_lt {c : Chip} {r : Requester} {pg : Page} {n : Nat} (hv : (c.hdr pg.frame).ctr.getD n 0 < 2 ^ 64)
    (hl : ∀ m h, tabFind c.latch (2 ^ 14 * r.code + pg.frame) = some (m, h) → h < 2 ^ 32) : c.counterHi r pg n < 2 ^ 32 := by
  have live : (c.hdr pg.frame).ctr.getD n 0 / 2 ^ 32 < 2 ^ 32 := by omega
  unfold Chip.counterHi
  split
  next m h e =>
    split
    · exact hl m h e
    · exact live
  next => exact live

/-- A read of a counter's high half returns it and leaves the latch (R32). -/
theorem controlRead_counterHi {x : Ctx} {c : Chip} {r : Requester} {off n : Nat} {pg : Page} (hn : n < 8)
    (ht : Chip.target x c r off = some (pg, 0x044 + 8 * n)) (hv : (c.hdr pg.frame).ctr.getD n 0 < 2 ^ 64)
    (hl : ∀ m h, tabFind c.latch (2 ^ 14 * r.code + pg.frame) = some (m, h) → h < 2 ^ 32) :
    Chip.controlRead x c r off 32 = c.send (.readData r.code off (c.counterHi r pg n)) := by
  have index : (0x044 + 8 * n - 0x040) / 8 = n := by omega
  have effect : c.readEffect r pg (0x044 + 8 * n) = c := by
    rw [Chip.readEffect, if_neg (by simp), if_neg (by simp; intro _ e; omega)]
  have value : Chip.readReg x c r pg (0x044 + 8 * n) = c.counterHi r pg n := by
    rw [Chip.readReg, if_pos (by omega), readHeader_counter c _ _ (by omega) (by omega), if_neg (by omega), index]
    unfold Chip.counterHi
    cases tabFind c.latch (2 ^ 14 * r.code + pg.frame) <;> rfl
  rw [controlRead_word ht (by omega), effect, value, Nat.mod_eq_of_lt (Chip.counterHi_lt hv hl)]

/-- Settles O6: each control is a permitted write of a header, and each counter read an equation of the control view. -/
theorem pageControlsAndCounters : Obligations.PageControlsAndCounters := by
  refine ⟨fun s r pg h hr => ⟨fun hw => ?_, fun hw on => ?_, fun hw mask => ?_, fun hw => ?_⟩, fun s r pg off n h hn => ⟨fun ht => ?_, fun ht hv hl => ?_⟩⟩
  · exact onChip_permitted h hr hw (fun _ c => c.clearCounters pg) rfl rfl
  · exact onChip_just h (f := fun x c => Chip.quiesceRow x c r pg on) (quiesceRow_permitted hr hw on) rfl
  · exact onChip_permitted h hr hw (fun _ c => (c.rsvd pg mask (allBits - headerMask pg.blk 0x01C)).clearIrq pg mask)
      (rsvd_clearIrq s.chip pg mask) rfl
  · exact onChip_permitted h hr hw (fun _ c => c.clearElog pg) rfl rfl
  · exact onChip_just h (f := fun x c => Chip.readRow x c r .control off 32) (controlRead_counterLo hn ht) rfl
  · exact onChip_just h (f := fun x c => Chip.readRow x c r .control off 32) (controlRead_counterHi hn ht hv hl) rfl

end Sys2Proof.Machine
end

section
/-! SUPPORT. What noting ready commands and partitions leaves alone, SOFT_RESET of a page that no command acts on, and the statement about it. -/

namespace Sys2Proof.Machine

/-! ### Noting what is ready (R318, R322) -/

/-- A chip whose stamps of ready commands, virtual times and instant are others. -/
def Chip.stamped (c : Chip) (readied vtime : Tab Nat) (instant : Nat) : Chip := { c with readied := readied, vtime := vtime, instant := instant }

/-- Noting that a command is ready changes stamps, virtual times and the instant alone. -/
theorem noteReady_frame (c : Chip) (x : Ctx) (k : Cmd) : ∃ r v n, c.noteReady x k = c.stamped r v n := by
  unfold Chip.noteReady
  split
  · exact ⟨_, _, _, rfl⟩
  · dsimp only
    split_ifs
    · exact ⟨_, _, _, rfl⟩
    · split
      · exact ⟨_, _, _, rfl⟩
      · split_ifs <;> exact ⟨_, _, _, rfl⟩

/-- So does noting all of them. -/
theorem noteAll_frame (c : Chip) (x : Ctx) : ∃ r v n, c.noteAll x = c.stamped r v n := by
  unfold Chip.noteAll
  have fold (ks : List Cmd) (d : Chip) : ∃ r v n, ks.foldl (fun c k => c.noteReady x k) d = d.stamped r v n := by
    induction ks generalizing d with
    | nil => exact ⟨_, _, _, rfl⟩
    | cons k ks ih =>
      obtain ⟨r, v, n, h⟩ := noteReady_frame d x k
      rw [List.foldl_cons, h]
      obtain ⟨r', v', n', h'⟩ := ih (d.stamped r v n)
      exact ⟨r', v', n', h'⟩
  obtain ⟨r, v, n, h⟩ := fold c.cmds { c with readied := c.readied.filter (fun e => c.cmds.any (fun k => k.id = e.1 && c.engReady x k)) }
  exact ⟨r, v, n, h⟩

/-- Noting the ready partitions changes when they became ready besides. -/
theorem noteParts_frame (c : Chip) (x : Ctx) :
    ∃ r v n ps, c.noteParts x = { c.stamped r v n with parts := ps } ∧ ps.map Prod.fst = c.parts.map Prod.fst := by
  obtain ⟨r, v, n, h⟩ := noteAll_frame c x
  unfold Chip.noteParts
  rw [h]
  refine ⟨r, v, n + 1, _, rfl, ?_⟩
  rw [List.map_map]
  refine List.map_congr_left fun e _ => ?_
  simp only [Function.comp]
  split_ifs <;> rfl

/-- A chip whose partitions' instants of readiness are others besides. -/
def Chip.noted (c : Chip) (r v : Tab Nat) (n : Nat) (ps : Tab Part) : Chip := { c.stamped r v n with parts := ps }

/-- A step that ends by noting what is ready. -/
theorem onChip_noted {s : State} (h : s.sound) {f : Ctx → Chip → Chip} {d : Chip} (hd : f s.ctx s.chip = d.noteParts s.ctx)
    (hs : d.staged = s.chip.staged) : ∃ r v n ps, onChip f s = .next { s with chip := (d.noted r v n ps).between } := by
  obtain ⟨r, v, n, ps, noted, -⟩ := noteParts_frame d s.ctx
  exact ⟨r, v, n, ps, onChip_just h (d := d.noted r v n ps) (hd.trans noted) hs⟩

/-! ### SOFT_RESET (R28, R419) -/

/-- No command that a kill is for: nothing is killed. -/
theorem killAll_none {c : Chip} (x : Ctx) {p : Cmd → Bool} (h : ∀ k ∈ c.cmds, p k = false) (status : Nat) (record : Bool) :
    c.killAll x p status record = c := by
  have none : c.cmds.filter p = [] := List.filter_eq_nil_iff.mpr fun k hk => by simp [h k hk]
  have cmds : c.cmds.filter (fun k => !([] : List Nat).contains k.id) = c.cmds := List.filter_eq_self.mpr fun _ _ => rfl
  have events : c.events.map (fun e => (e.1, { e.2 with waiters := e.2.waiters.filter (fun i => !([] : List Nat).contains i) })) = c.events := by
    simp
  simp only [Chip.killAll, none, List.filter_nil, List.foldl_nil, List.map_nil, Chip.withdraw]
  rw [cmds, events]

/-- The register key of a page's block-specific register lies in the page's range, and in no other page's (R25). -/
theorem regKey_range {f g off : Nat} (hlo : f = g → 0x100 ≤ off) (hhi : off < 0x1000) :
    (1024 * g + 64 ≤ regKey f off ∧ regKey f off < 1024 * g + 1024) ↔ f = g := by
  unfold regKey
  constructor
  · omega
  · rintro rfl
    have := hlo rfl
    omega

theorem tabFind_filter_key {α : Type} (p : Nat → Bool) (t : Tab α) (j : Nat) :
    tabFind (t.filter (fun e => p e.1)) j = if p j then tabFind t j else none := by
  induction t with
  | nil => simp [tabFind]
  | cons e t ih =>
    obtain ⟨k, v⟩ := e
    rw [List.filter_cons]
    by_cases hk : k = j
    · subst hk
      by_cases hp : p k = true <;> simp [hp, tabFind, ih]
    · by_cases hp : p k = true <;> simp [hp, tabFind, ih, hk]

/-- After a reset of a page's registers its own read their reset values, and those of every other page as before. -/
theorem reg_resetRegs (c : Chip) {f g off : Nat} (hlo : f = g → 0x100 ≤ off) (hhi : off < 0x1000) (d : Nat) :
    (c.resetRegs g).reg f off d = if f = g then d else c.reg f off d := by
  have own : (!(decide (1024 * g + 64 ≤ regKey f off) && decide (regKey f off < 1024 * g + 1024))) = !decide (f = g) := by
    rw [← Bool.decide_and, decide_eq_decide.mpr (regKey_range hlo hhi)]
  have found := tabFind_filter_key (fun i => !(decide (1024 * g + 64 ≤ i) && decide (i < 1024 * g + 1024))) c.regs (regKey f off)
  simp only [Chip.reg, Chip.resetRegs, tabDelRange, found, own]
  by_cases h : f = g <;> simp [h]

/-- What a page's reset of its registers leaves (R28, R191, R219, R302). -/
theorem softRegs_frame (c : Chip) (pg : Page) :
    (c.softRegs pg).regs = (c.resetRegs pg.frame).regs ∧ (c.softRegs pg).headers = c.headers ∧ (c.softRegs pg).staged = c.staged ∧
    (c.softRegs pg).cmds = c.cmds ∧ (c.softRegs pg).events = c.events ∧ (c.softRegs pg).sqs = c.sqs ∧ (c.softRegs pg).cqs = c.cqs ∧
    (c.softRegs pg).fns = c.fns ∧ (c.softRegs pg).tables = c.tables ∧ (c.softRegs pg).parts = c.parts ∧
    (c.softRegs pg).bridge = c.bridge ∧ (c.softRegs pg).gates = c.gates ∧ (c.softRegs pg).serve = c.serve ∧
    (c.softRegs pg).coll = if pg.blk = .coll then {} else c.coll := by
  obtain ⟨blk, inst⟩ := pg
  cases blk
  case spare =>
    simp only [Chip.softRegs]
    split_ifs <;> simp_all
  all_goals exact ⟨rfl, rfl, rfl, rfl, rfl, rfl, rfl, rfl, rfl, rfl, rfl, rfl, rfl, rfl⟩

/-- The page's header after a SOFT_RESET (R28, R419). -/
def Header.softReset (h : Header) : Header :=
  { h with ready := false, irqRaw := 0, pert := { h.pert with ctrl := h.pert.ctrl &&& ~~~ (1#32 <<< 31) } }

/-- SOFT_RESET of a page that no fetched command acts on: the page's registers and header, then what is ready is noted. -/
theorem softReset_unused {x : Ctx} {c : Chip} {pg : Page} (h : ∀ k ∈ c.cmds, (c.pagesOf k).contains pg = false) :
    Chip.softReset x c pg =
      (((c.putHdr pg.frame { c.hdr pg.frame with ready := false }).softRegs pg).putHdr pg.frame (c.hdr pg.frame).softReset).noteParts x := by
  have unused := killAll_none (c := c.putHdr pg.frame { c.hdr pg.frame with ready := false }) x
    (p := fun k => ((c.putHdr pg.frame { c.hdr pg.frame with ready := false }).pagesOf k).contains pg) h 0x0B true
  have hdr : ((c.putHdr pg.frame { c.hdr pg.frame with ready := false }).softRegs pg).hdr pg.frame = { c.hdr pg.frame with ready := false } := by
    obtain ⟨-, headers, -⟩ := softRegs_frame (c.putHdr pg.frame { c.hdr pg.frame with ready := false }) pg
    rw [Chip.hdr, headers]
    exact (Chip.hdr_putHdr _ _ _ _).trans (if_pos rfl)
  simp only [Chip.softReset, unused, hdr]
  rfl

/-- Settles O7: nothing is killed, and the page's registers and header are reset. -/
theorem softReset : Obligations.SoftReset := by
  refine ⟨fun s r pg h hr hw hk => ?_, fun s pg h hok hup => ?_⟩
  · have reset := softReset_unused (x := s.ctx) hk
    obtain ⟨regs, headers, staged, cmds, events, sqs, cqs, fns, tables, parts, bridge, gates, serve, coll⟩ :=
      softRegs_frame (s.chip.putHdr pg.frame { s.chip.hdr pg.frame with ready := false }) pg
    generalize (s.chip.putHdr pg.frame { s.chip.hdr pg.frame with ready := false }).softRegs pg = d at *
    obtain ⟨ready, vtime, instant, ps, noted, names⟩ := noteParts_frame (d.putHdr pg.frame (s.chip.hdr pg.frame).softReset) s.ctx
    have stepped := onChip_permitted h hr hw (fun x c => Chip.softReset x c pg) (reset.trans noted) staged
    have hdrs (f : Nat) : (d.putHdr pg.frame (s.chip.hdr pg.frame).softReset).hdr f =
        if pg.frame = f then (s.chip.hdr pg.frame).softReset else s.chip.hdr f := by
      rw [Chip.hdr_putHdr]
      split
      · rfl
      · rw [Chip.hdr, headers]
        exact (Chip.hdr_putHdr _ _ _ _).trans (if_neg ‹_›)
    have regs' (f off v : Nat) : d.reg f off v = (s.chip.resetRegs pg.frame).reg f off v := by simp only [Chip.reg, regs]; rfl
    refine ⟨_, stepped, rfl, rfl, (hdrs _).trans (if_pos rfl), fun f hf => (hdrs f).trans (if_neg (Ne.symm hf)), fun off v hlo hhi => ?_,
      fun f off v hf hhi => ?_, cmds, events, sqs, cqs, fns, tables, names.trans (congrArg _ parts), bridge, gates, serve, coll⟩
    · exact (regs' _ _ _).trans ((reg_resetRegs _ (fun _ => hlo) hhi v).trans (if_pos rfl))
    · exact (regs' _ _ _).trans ((reg_resetRegs _ (fun e => absurd e hf) hhi v).trans (if_neg hf))
  · exact onChip_just h (f := fun _ c => c.softResetDone pg) (if_pos (by simp [hok, hup])) rfl

end Sys2Proof.Machine
end

section
/-! SUPPORT. The life of a command in laws: what its leaving, its record, its signal and the work on waiters do to commands, events and
queues (R38-R45, R348). -/

namespace Sys2Proof.Machine

/-! ### What most operations leave -/

/-- What of a partition the writing of records reads: its number, its function, and its regulators (R319, R352). -/
def Part.pace (e : Nat × Part) : Nat × Nat × List (Nat × Nat) × List Int := (e.1, e.2.fn, e.2.regs, e.2.levels)

/-- Staged writes, commands, events, queues and regulators stand. -/
structure Chip.Keeps (c d : Chip) : Prop where
  staged : d.staged = c.staged
  cmds : d.cmds = c.cmds
  events : d.events = c.events
  sqs : d.sqs = c.sqs
  cqs : d.cqs = c.cqs
  paces : d.parts.map Part.pace = c.parts.map Part.pace

namespace Chip.Keeps

theorem refl (c : Chip) : c.Keeps c := ⟨rfl, rfl, rfl, rfl, rfl, rfl⟩

theorem trans {a b c : Chip} (h : a.Keeps b) (k : b.Keeps c) : a.Keeps c :=
  ⟨k.staged.trans h.staged, k.cmds.trans h.cmds, k.events.trans h.events, k.sqs.trans h.sqs, k.cqs.trans h.cqs, k.paces.trans h.paces⟩

theorem notice (fuel : Nat) (e : Notice) (c : Chip) : c.Keeps (notice fuel e c) := by
  obtain ⟨-, staged, events, cmds, sqs, cqs, parts⟩ := notice_fields fuel e c
  exact ⟨staged, cmds, events, sqs, cqs, congrArg _ parts⟩

theorem count (c : Chip) (f n k : Nat) : c.Keeps (c.count f n k) := notice _ _ _

theorem fire (c : Chip) (f src : Nat) : c.Keeps (c.fire f src) := notice _ _ _

theorem vector (c : Chip) (fn v : Nat) : c.Keeps (c.vector fn v) := notice _ _ _

theorem noteAll (c : Chip) (x : Ctx) : c.Keeps (c.noteAll x) := by
  obtain ⟨r, v, n, h⟩ := noteAll_frame c x
  exact h ▸ ⟨rfl, rfl, rfl, rfl, rfl, rfl⟩

theorem modPart (c : Chip) (p : Nat) {f : Part → Part} (hf : ∀ pt, Part.pace (p, f pt) = Part.pace (p, pt)) : c.Keeps (c.modPart p f) := by
  refine ⟨rfl, rfl, rfl, rfl, rfl, ?_⟩
  simp only [Chip.modPart, List.map_map]
  refine List.map_congr_left fun e _ => ?_
  simp only [Function.comp]
  split
  next h => rw [h, hf, ← h]
  next => rfl

theorem putEvent {c d : Chip} (h : c.Keeps d) (i : Nat) (e : Event) : (c.putEvent i e).Keeps (d.putEvent i e) :=
  ⟨h.staged, h.cmds, congrArg (tabSet · i e) h.events, h.sqs, h.cqs, h.paces⟩

end Chip.Keeps

theorem Chip.event_congr {c d : Chip} (h : d.events = c.events) (i : Nat) : d.event i = c.event i := by rw [Chip.event, h, Chip.event]

theorem Chip.cmd?_congr {c d : Chip} (h : d.cmds = c.cmds) (id : Nat) : d.cmd? id = c.cmd? id := by rw [Chip.cmd?, h, Chip.cmd?]

/-- The partition of a function is one of the same number where the paces agree. -/
theorem partOfFn_paces (ps : Tab Part) (fn : Nat) :
    (ps.find? (fun e => e.2.fn = fn)).map Prod.fst = ((ps.map Part.pace).find? (fun e => e.2.1 = fn)).map Prod.fst := by
  rw [List.find?_map, Option.map_map]
  rfl

theorem Chip.partOfFn_congr {c d : Chip} (h : d.parts.map Part.pace = c.parts.map Part.pace) (fn : Nat) : d.partOfFn fn = c.partOfFn fn := by
  rw [Chip.partOfFn, Chip.partOfFn, partOfFn_paces, partOfFn_paces, h]

theorem part?_paces (ps : Tab Part) (p : Nat) : (tabFind ps p).map (fun pt => (pt.regs, pt.levels)) = (tabFind (ps.map Part.pace) p).map Prod.snd := by
  induction ps with
  | nil => rfl
  | cons e ps ih =>
    simp only [List.map_cons, Part.pace, tabFind]
    split
    · rfl
    · exact ih

theorem Chip.recordLets_congr {c d : Chip} (h : d.parts.map Part.pace = c.parts.map Part.pace) (fn : Nat) : d.recordLets fn = c.recordLets fn := by
  have lets (p i : Nat) : d.regLets p i = c.regLets p i := by
    have same : (d.part? p).map (fun pt => (pt.regs, pt.levels)) = (c.part? p).map (fun pt => (pt.regs, pt.levels)) := by
      rw [Chip.part?, Chip.part?, part?_paces, part?_paces, h]
    unfold Chip.regLets
    cases hd : d.part? p <;> cases hc : c.part? p <;> simp_all
  simp only [Chip.recordLets, Chip.partOfFn_congr h, lets]

/-! ### A command leaves (R38, R41, R332, R348) -/

/-- A command on leaving goes from the waiters of an entry: of the one it waits on, and of the one that a gather waits on. -/
abbrev Cmd.leaves (k : Cmd) (i : Nat) : Prop := (k.flag 2 = true ∧ k.fld 8 2 = i) ∨ (k.opcode = 0x72 ∧ k.fld 18 2 = i)

/-- An entry that a command waits on no more. -/
def Event.without (e : Event) (id : Nat) : Event := { e with waiters := e.waiters.filter (· ≠ id) }

theorem Event.without_of_nil {e : Event} (h : e.waiters = []) (id : Nat) : e.without id = e := by
  cases e
  simp_all [Event.without]

theorem Event.without_of_not_mem {e : Event} {id : Nat} (h : e.waiters.contains id = false) : e.without id = e := by
  have all : e.waiters.filter (· ≠ id) = e.waiters := by
    rw [List.filter_eq_self]
    rintro w hw
    have : w ≠ id := by rintro rfl; simp [hw] at h
    simpa using this
  cases e
  simp_all [Event.without]

theorem Event.without_without (e : Event) (id : Nat) : (e.without id).without id = e.without id := by
  simp [Event.without]

/-- A command dropped from the waiters of an entry, where it is to be and waits. -/
def Chip.dropWaiter (c : Chip) (b : Bool) (i id : Nat) : Chip :=
  if b && (c.event i).waiters.contains id then c.putEvent i ((c.event i).without id) else c

theorem dropWaiter_frame (c : Chip) (b : Bool) (i id : Nat) : ∃ l, c.dropWaiter b i id = { c with events := l } := by
  unfold Chip.dropWaiter
  split
  · exact ⟨_, rfl⟩
  · exact ⟨c.events, rfl⟩

theorem dropWaiter_event (c : Chip) (b : Bool) (i id j : Nat) :
    (c.dropWaiter b i id).event j = if b = true ∧ i = j then (c.event j).without id else c.event j := by
  unfold Chip.dropWaiter
  by_cases hc : (b && (c.event i).waiters.contains id) = true
  · have hb : b = true := ((Bool.and_eq_true _ _).mp hc).1
    rw [if_pos hc, Chip.event_putEvent]
    by_cases hij : i = j
    · rw [if_pos hij, if_pos ⟨hb, hij⟩, hij]
    · rw [if_neg hij, if_neg (fun h => hij h.2)]
  · rw [if_neg hc]
    split
    next h =>
      obtain ⟨hb, rfl⟩ := h
      rw [Event.without_of_not_mem (by simpa [hb] using hc)]
    next => rfl

/-- A command that leaves, before its record is written. -/
def Chip.gone (c : Chip) (k : Cmd) (status : Nat) : Chip :=
  let c := { c.dropCmd k.id with readied := tabDel c.readied k.id }.chargeRun k
  let c := if k.tclass = 2 && !k.isRound && k.phase ≠ .waiting then c.noteUse (48 + k.inst) else c
  let c := (c.dropWaiter (k.flag 2) (k.fld 8 2) k.id).dropWaiter (k.opcode = 0x72) (k.fld 18 2) k.id
  (c.chargePart k status).drainShadows

theorem retire_eq (c : Chip) (k : Cmd) (status detail : Nat) (record : Bool) :
    c.retire k status detail record =
      (if record then (c.gone k status).putRecord k (k.record status detail) else c.gone k status).queueDone k status := rfl

theorem chargePart_keeps (c : Chip) (k : Cmd) (status : Nat) : c.Keeps (c.chargePart k status) := by
  have counted (f b n m : Nat) : c.Keeps (((c.count f 0 b).count f 1 n).count f 2 m) :=
    ((Chip.Keeps.count _ _ _ _).trans (.count _ _ _ _)).trans (.count _ _ _ _)
  have charged (d : Chip) (p pj : Nat) : d.Keeps (d.chargePj p pj) := by
    refine Chip.Keeps.trans ?_ (.count _ _ _ _)
    exact ⟨rfl, rfl, rfl, rfl, rfl, rfl⟩
  have timed (d : Chip) (p : Nat) : d.Keeps (match k.engine with
      | some e =>
        if k.share = 0 || k.isHead then d
        else { d with vtime := tabSet d.vtime (16 * e + p) (d.vt e p + k.acct.beats * 256 / k.share) }
      | none => d) := by
    split
    · split
      · exact .refl d
      · exact ⟨rfl, rfl, rfl, rfl, rfl, rfl⟩
    · exact .refl d
  have faulted (d : Chip) (p : Nat) : d.Keeps (match d.part? p with
      | some pt =>
        if pt.stopOnFault && !pt.fault && (status = 12 || status = 7 || status = 8) then
          (d.modPart p (fun q => { q with fault := true })).fire (0x020 + p) 5
        else d
      | none => d) := by
    split
    · split
      · refine Chip.Keeps.trans ?_ (.fire _ _ _)
        exact .modPart _ p fun _ => rfl
      · exact .refl d
    · exact .refl d
  unfold Chip.chargePart
  split
  · exact .refl c
  next p _ => exact ((counted _ _ _ _).trans (charged _ _ _)).trans ((timed _ p).trans (faulted _ p))

/-- A command gone: it has left the list and the waiters of its entries; queues and regulators stand. -/
theorem gone_frame (c : Chip) (k : Cmd) (status : Nat) :
    (c.gone k status).staged = c.staged ∧ (c.gone k status).cmds = c.cmds.filter (fun j => j.id ≠ k.id) ∧
    (c.gone k status).sqs = c.sqs ∧ (c.gone k status).cqs = c.cqs ∧
    (c.gone k status).parts.map Part.pace = c.parts.map Part.pace ∧
    ∀ i, (c.gone k status).event i = if k.leaves i then (c.event i).without k.id else c.event i := by
  have paid (d : Chip) : d.Keeps (d.chargePart k status).drainShadows :=
    (chargePart_keeps d k status).trans ⟨rfl, rfl, rfl, rfl, rfl, rfl⟩
  have dropped : ∃ p, { c.dropCmd k.id with readied := tabDel c.readied k.id }.chargeRun k =
      { c.dropCmd k.id with readied := tabDel c.readied k.id, power := p } := by
    unfold Chip.chargeRun
    split <;> exact ⟨_, rfl⟩
  obtain ⟨p, hp⟩ := dropped
  unfold Chip.gone
  rw [hp]
  dsimp only
  have used : ∃ q, (if k.tclass = 2 && !k.isRound && k.phase ≠ .waiting then
        ({ c.dropCmd k.id with readied := tabDel c.readied k.id, power := p } : Chip).noteUse (48 + k.inst)
      else { c.dropCmd k.id with readied := tabDel c.readied k.id, power := p }) =
      { c.dropCmd k.id with readied := tabDel c.readied k.id, power := q } := by
    split <;> exact ⟨_, rfl⟩
  obtain ⟨q, hq⟩ := used
  rw [hq]
  generalize hd : ({ c.dropCmd k.id with readied := tabDel c.readied k.id, power := q } : Chip) = d
  obtain ⟨l, hl⟩ := dropWaiter_frame d (k.flag 2) (k.fld 8 2) k.id
  obtain ⟨m, hm⟩ := dropWaiter_frame (d.dropWaiter (k.flag 2) (k.fld 8 2) k.id) (k.opcode = 0x72) (k.fld 18 2) k.id
  rw [hl] at hm
  have event (i : Nat) : ((d.dropWaiter (k.flag 2) (k.fld 8 2) k.id).dropWaiter (k.opcode = 0x72) (k.fld 18 2) k.id).event i =
      if k.leaves i then (c.event i).without k.id else c.event i := by
    rw [dropWaiter_event, dropWaiter_event, show d.event i = c.event i from Chip.event_congr (by rw [← hd]; rfl) i]
    simp only [decide_eq_true_eq]
    by_cases hw : k.flag 2 = true ∧ k.fld 8 2 = i
    · rw [if_pos hw, if_pos (Or.inl hw)]
      split
      · exact Event.without_without _ _
      · rfl
    · rw [if_neg hw]
      by_cases hg : k.opcode = 0x72 ∧ k.fld 18 2 = i
      · rw [if_pos hg, if_pos (Or.inr hg)]
      · rw [if_neg hg, if_neg (fun h => h.elim hw hg)]
  obtain ⟨staged, cmds, events, sqs, cqs, paces⟩ :=
    paid ((d.dropWaiter (k.flag 2) (k.fld 8 2) k.id).dropWaiter (k.opcode = 0x72) (k.fld 18 2) k.id)
  have event' (i : Nat) := (Chip.event_congr events i).trans (event i)
  rw [hl, hm] at staged cmds event' sqs cqs paces ⊢
  subst hd
  exact ⟨staged, cmds, sqs, cqs, paces, event'⟩

/-- A record put changes neither commands, events nor submission queues. -/
theorem putRecord_frame (c : Chip) (k : Cmd) (r : Record) :
    (c.putRecord k r).staged = c.staged ∧ (c.putRecord k r).cmds = c.cmds ∧ (c.putRecord k r).events = c.events ∧ (c.putRecord k r).sqs = c.sqs := by
  unfold Chip.putRecord
  dsimp only
  split
  · exact ⟨rfl, rfl, rfl, rfl⟩
  · split
    · exact ⟨rfl, rfl, rfl, rfl⟩
    · obtain ⟨staged, events, cmds, sqs, -⟩ := emitRecord_frame c (256 * k.fn + (c.sq k.queue).cq) r
      exact ⟨staged, cmds, events, sqs⟩

/-- Where the completion queue takes it, a record goes out (R348). -/
theorem putRecord_out {c : Chip} {k : Cmd} (h : c.cqOpen k) (status detail : Nat) :
    c.recordOut k status detail ∈ (c.putRecord k (k.record status detail)).outbox := by
  obtain ⟨enable, error, full, waiting, lets⟩ := h
  obtain ⟨-, -, -, -, out, -⟩ := emitRecord_frame c (256 * k.fn + (c.sq k.queue).cq) (k.record status detail)
  unfold Chip.putRecord
  dsimp only
  rw [if_neg (by simp [error]), if_neg (by simp [enable, full, waiting, lets])]
  exact out

theorem settleSq_inFlight (c : Chip) (key : Nat) : ((c.settleSq key).sq key).inFlight = (c.sq key).inFlight := by
  unfold Chip.settleSq
  dsimp only
  split
  · rw [Chip.sq_putSq, if_pos rfl]
  · rfl

/-- A queue has one command fewer in flight; no other queue changes (R349). -/
theorem queueDone_frame (c : Chip) (k : Cmd) (status : Nat) :
    ∃ l, c.queueDone k status = { c with sqs := l } ∧ ((c.queueDone k status).sq k.queue).inFlight = (c.sq k.queue).inFlight - 1 ∧
      ∀ q, q ≠ k.queue → (c.queueDone k status).sq q = c.sq q := by
  unfold Chip.queueDone
  dsimp only
  generalize hd : c.putSq k.queue _ = d
  obtain ⟨l, hl, others⟩ := settleSq_frame d k.queue
  refine ⟨l, ?_, ?_, fun q hq => ?_⟩
  · rw [hl, ← hd]
    rfl
  · rw [settleSq_inFlight, ← hd, Chip.sq_putSq, if_pos rfl]
  · rw [hl]
    refine (others q hq).trans ?_
    rw [← hd, Chip.sq_putSq, if_neg (Ne.symm hq)]

theorem Chip.cqOpen_congr {c d : Chip} {k : Cmd} (sqs : d.sqs = c.sqs) (cqs : d.cqs = c.cqs)
    (paces : d.parts.map Part.pace = c.parts.map Part.pace) : d.cqOpen k ↔ c.cqOpen k := by
  simp only [Chip.cqOpen, Chip.sq_congr sqs, Chip.cq_congr cqs, Chip.recordLets_congr paces]

theorem Chip.recordOut_congr {c d : Chip} (sqs : d.sqs = c.sqs) (cqs : d.cqs = c.cqs) (k : Cmd) (status detail : Nat) :
    d.recordOut k status detail = c.recordOut k status detail := by
  simp only [Chip.recordOut, Chip.sq_congr sqs, Chip.cq_congr cqs]

/-- `d` is `c` after a command has left: the list, its queue, and its record is out where its completion queue takes it; without one the
completion queues stand. -/
structure Chip.Left (c d : Chip) (k : Cmd) (status detail : Nat) (record : Bool) : Prop where
  staged : d.staged = c.staged
  cmds : d.cmds = c.cmds.filter (fun j => j.id ≠ k.id)
  inFlight : (d.sq k.queue).inFlight = (c.sq k.queue).inFlight - 1
  others : ∀ q, q ≠ k.queue → d.sq q = c.sq q
  out : record = true → c.cqOpen k → c.recordOut k status detail ∈ d.outbox
  kept : record = false → d.cqs = c.cqs

theorem Chip.Left.after_keeps {c n d : Chip} {k : Cmd} {status detail : Nat} {record : Bool} (h : n.Left d k status detail record)
    (kept : c.Keeps n) : c.Left d k status detail record := by
  obtain ⟨staged, cmds, -, sqs, cqs, paces⟩ := kept
  have out := h.out
  rw [Chip.cqOpen_congr sqs cqs paces, Chip.recordOut_congr sqs cqs] at out
  exact ⟨h.staged.trans staged, h.cmds.trans (by rw [cmds]), h.inFlight.trans (by rw [Chip.sq_congr sqs]),
    fun q hq => (h.others q hq).trans (Chip.sq_congr sqs q), out, fun hr => (h.kept hr).trans cqs⟩

/-- What an entry holds is nothing to a command that leaves. -/
theorem Chip.Left.of_putEvent {c d : Chip} {k : Cmd} {status detail i : Nat} {record : Bool} {e : Event}
    (h : (c.putEvent i e).Left d k status detail record) : c.Left d k status detail record :=
  ⟨h.staged, h.cmds, h.inFlight, h.others, h.out, h.kept⟩

/-- A command retired has left, and it waits for neither of its entries. -/
theorem retire_frame (c : Chip) (k : Cmd) (status detail : Nat) (record : Bool) :
    c.Left (c.retire k status detail record) k status detail record ∧
      ∀ i, (c.retire k status detail record).event i = if k.leaves i then (c.event i).without k.id else c.event i := by
  obtain ⟨staged, cmds, sqs, cqs, paces, event⟩ := gone_frame c k status
  rw [retire_eq]
  generalize c.gone k status = d at *
  cases record with
  | false =>
    obtain ⟨l, hl, flight, others⟩ := queueDone_frame d k status
    rw [if_neg Bool.false_ne_true]
    refine ⟨⟨?_, ?_, flight.trans (by rw [Chip.sq_congr sqs]), fun q hq => (others q hq).trans (Chip.sq_congr sqs q), nofun, fun _ => ?_⟩, fun i => ?_⟩
    · rw [hl]; exact staged
    · rw [hl]; exact cmds
    · rw [hl]; exact cqs
    · rw [hl]; exact event i
  | true =>
    rw [if_pos rfl]
    obtain ⟨staged', cmds', events', sqs'⟩ := putRecord_frame d k (k.record status detail)
    have out := putRecord_out (c := d) (k := k) (status := status) (detail := detail)
    rw [Chip.cqOpen_congr sqs cqs paces, Chip.recordOut_congr sqs cqs] at out
    generalize d.putRecord k (k.record status detail) = e at *
    obtain ⟨l, hl, flight, others⟩ := queueDone_frame e k status
    have same (q : Nat) : e.sq q = c.sq q := Chip.sq_congr (sqs'.trans sqs) q
    refine ⟨⟨?_, ?_, flight.trans (by rw [same]), fun q hq => (others q hq).trans (same q), fun _ ho => ?_, nofun⟩, fun i => ?_⟩
    · rw [hl]; exact staged'.trans staged
    · rw [hl]; exact cmds'.trans cmds
    · rw [hl]; exact out ho
    · rw [hl]; exact (Chip.event_congr events' i).trans (event i)

/-- Where nothing waits, a command retired leaves the events as they are. -/
theorem retire_event {c : Chip} (hw : ∀ i, (c.event i).waiters = []) (k : Cmd) (status detail : Nat) (record : Bool) (i : Nat) :
    (c.retire k status detail record).event i = c.event i := by
  rw [(retire_frame c k status detail record).2, Event.without_of_nil (hw i), ite_self]

/-! ### Signals, and the work on waiters (R40, R44, R45) -/

/-- An entry after a signal: COUNT raised within its 32 bits, OVERFLOW at their end (R44). -/
def Event.signalled (e : Event) (n : Nat) : Event :=
  { e with count := min (e.count + n) 0xFFFFFFFF, overflow := e.overflow || min (e.count + n) 0xFFFFFFFF = 0xFFFFFFFF }

/-- A bump changes its entry alone, and may raise a vector. -/
theorem bumpEvent_keeps (c : Chip) (i n : Nat) :
    (c.putEvent i ((c.event i).signalled n)).Keeps (c.bumpEvent i n).1 ∧ (c.bumpEvent i n).2 = decide (min ((c.event i).count + n) 0xFFFFFFFF = 0xFFFFFFFF) := by
  refine ⟨?_, rfl⟩
  unfold Chip.bumpEvent
  dsimp only
  split
  · split
    · split
      · exact .vector _ _ _
      · exact .refl _
    · exact .refl _
  · exact .refl _

/-- Where no entry of the worklist has waiters, there is nothing to work off. -/
theorem settle_idle (fuel : Nat) (x : Ctx) (is : List Nat) (c : Chip) (h : ∀ i ∈ is, (c.event i).waiters = []) : settle fuel x is c = c := by
  induction fuel generalizing is with
  | zero => rfl
  | succ fuel ih =>
    cases is with
    | nil => rfl
    | cons i is =>
      simp only [settle, h i List.mem_cons_self]
      exact ih is fun j hj => h j (List.mem_cons_of_mem i hj)

/-- An entry of a line without an error is read as it stands, on any chip (R408). -/
theorem meetEvent_clean {x : Ctx} {i : Nat} (h : ∀ e ∈ x.mem.lines, e.1 ≠ evtLine i) (c : Chip) : c.meetEvent x i = c := by
  have none : x.mem.lines.any (fun e => e.1 = evtLine i) = false := List.any_eq_false.mpr fun e he => by simpa using h e he
  rw [Chip.meetEvent, none]
  rfl

/-! ### The end of a command (R38, R40) -/

/-- What the end of a command with SIGNAL_EN makes of its signal entry: a signal, or with another status than SUCCESS the poison. -/
def Cmd.closes (k : Cmd) (status : Nat) (e : Event) : Event :=
  if k.flag 3 then (if status = 0 then e.signalled (k.fld 14 2) else { e with poisoned := true }) else e

theorem Cmd.closes_waiters (k : Cmd) (status : Nat) (e : Event) : (k.closes status e).waiters = e.waiters := by
  unfold Cmd.closes
  split_ifs <;> rfl

/-- A command as its record is made: a signal that reaches the end of COUNT is noted (R41, R44). -/
def Cmd.closed (k : Cmd) (status : Nat) (e : Event) : Cmd :=
  { k with acct := { k.acct with
      evtOverflow := k.acct.evtOverflow || (k.flag 3 && status = 0 && min (e.count + k.fld 14 2) 0xFFFFFFFF = 0xFFFFFFFF) } }

/-- A command that does not signal SUCCESS has no signal to note. -/
theorem Cmd.closed_quiet {k : Cmd} {status : Nat} (h : k.flag 3 = false ∨ status ≠ 0) (e : Event) : k.closed status e = k := by
  unfold Cmd.closed
  rcases h with h | h <;> simp [h]

/-- `d` is `c` after a command has ended with a status: it has left, its signal entry is signalled or poisoned, its record is out or the
completion queues stand. -/
structure Chip.Finished (c d : Chip) (k : Cmd) (status detail : Nat) (record : Bool) : Prop where
  staged : d.staged = c.staged
  cmds : d.cmds = c.cmds.filter (fun j => j.id ≠ k.id)
  inFlight : (d.sq k.queue).inFlight = (c.sq k.queue).inFlight - 1
  others : ∀ q, q ≠ k.queue → d.sq q = c.sq q
  out : record = true → c.cqOpen k → c.recordOut (k.closed status (c.event (k.fld 10 2))) status detail ∈ d.outbox
  kept : record = false → d.cqs = c.cqs
  event : ∀ i, d.event i = if i = k.fld 10 2 then k.closes status (c.event i) else c.event i

/-- A command that has left with its signal entry closed is finished. -/
theorem Chip.Left.finished {c d : Chip} {k : Cmd} {status detail : Nat} {record : Bool}
    (h : c.Left d (k.closed status (c.event (k.fld 10 2))) status detail record)
    (event : ∀ i, d.event i = if i = k.fld 10 2 then k.closes status (c.event i) else c.event i) :
    c.Finished d k status detail record :=
  ⟨h.staged, h.cmds, h.inFlight, h.others, h.out, h.kept, event⟩

/-- The signal entry as the end of a command closes it, every other as it is. -/
theorem event_closed {c d : Chip} {k : Cmd} {status : Nat} {e : Event} (same : ∀ i, d.event i = c.event i)
    (he : e = k.closes status (c.event (k.fld 10 2))) (i : Nat) :
    (d.putEvent (k.fld 10 2) e).event i = if i = k.fld 10 2 then k.closes status (c.event i) else c.event i := by
  rw [Chip.event_putEvent, same, he]
  by_cases hi : i = k.fld 10 2
  · rw [if_pos hi.symm, if_pos hi, hi]
  · rw [if_neg (Ne.symm hi), if_neg hi]

/-- Closing a signal entry adds no waiter. -/
theorem waiters_closed {c d : Chip} {k : Cmd} {status : Nat} (hw : ∀ i, (c.event i).waiters = [])
    (event : ∀ i, d.event i = if i = k.fld 10 2 then k.closes status (c.event i) else c.event i) (i : Nat) : (d.event i).waiters = [] := by
  rw [event]
  split
  · rw [Cmd.closes_waiters, hw]
  · exact hw i

section

variable {c n : Chip} {x : Ctx} {k : Cmd} (kept : c.Keeps n) (hw : ∀ i, (c.event i).waiters = [])

include kept hw in
/-- The end of a command without SIGNAL_EN. -/
theorem retire_finished {status : Nat} (h3 : k.flag 3 = false) (detail : Nat) (record : Bool) :
    c.Finished (n.retire k status detail record) k status detail record := by
  have same := Chip.event_congr kept.events
  refine Chip.Left.finished ?_ fun i => ?_
  · rw [Cmd.closed_quiet (.inl h3)]
    exact (retire_frame n k status detail record).1.after_keeps kept
  · rw [retire_event (fun i => by rw [same, hw]), same, Cmd.closes, h3]
    simp

include kept hw in
/-- The end of a command that signals: with SUCCESS its event is signalled before the record is made. -/
theorem signal_finished (h3 : k.flag 3 = true) (fuel detail : Nat) (record : Bool) :
    c.Finished (settle fuel x [k.fld 10 2] ((n.bumpEvent (k.fld 10 2) (k.fld 14 2)).1.retire
      { k with acct := { k.acct with evtOverflow := k.acct.evtOverflow || (n.bumpEvent (k.fld 10 2) (k.fld 14 2)).2 } } 0 detail record))
      k 0 detail record := by
  have same := Chip.event_congr kept.events
  obtain ⟨bumped, sat⟩ := bumpEvent_keeps n (k.fld 10 2) (k.fld 14 2)
  have noted : { k with acct := { k.acct with evtOverflow := k.acct.evtOverflow || (n.bumpEvent (k.fld 10 2) (k.fld 14 2)).2 } } =
      k.closed 0 (c.event (k.fld 10 2)) := by
    rw [sat, same, Cmd.closed, h3]
    rfl
  rw [noted]
  generalize (n.bumpEvent (k.fld 10 2) (k.fld 14 2)).1 = b at *
  have event (i : Nat) : b.event i = if i = k.fld 10 2 then k.closes 0 (c.event i) else c.event i :=
    (Chip.event_congr bumped.events i).trans (event_closed same (by rw [Cmd.closes, h3, same, if_pos rfl, if_pos rfl]) i)
  have none := waiters_closed hw event
  have left := (retire_frame b (k.closed 0 (c.event (k.fld 10 2))) 0 detail record).1
  have events := retire_event none (k.closed 0 (c.event (k.fld 10 2))) 0 detail record
  rw [settle_idle _ _ _ _ (fun i _ => by rw [events, none])]
  exact (left.after_keeps ((kept.putEvent _ _).trans bumped)).of_putEvent.finished fun i => (events i).trans (event i)

include kept hw in
/-- The end of a command that signals: with another status its event is poisoned instead. -/
theorem poison_finished {status : Nat} (h3 : k.flag 3 = true) (h0 : status ≠ 0) (fuel detail : Nat) (record : Bool) :
    c.Finished (settle fuel x [k.fld 10 2] ((n.retire k status detail record).putEvent (k.fld 10 2)
      { (n.retire k status detail record).event (k.fld 10 2) with poisoned := true })) k status detail record := by
  have same := Chip.event_congr kept.events
  have left := (retire_frame n k status detail record).1.after_keeps kept
  have events (i : Nat) : (n.retire k status detail record).event i = c.event i := by
    rw [retire_event (fun i => by rw [same, hw]), same]
  generalize n.retire k status detail record = r at *
  have event := event_closed events (e := { r.event (k.fld 10 2) with poisoned := true }) (status := status)
    (by rw [Cmd.closes, h3, if_pos rfl, if_neg h0, events])
  have none := waiters_closed hw event
  rw [settle_idle _ _ _ _ (fun i _ => none i)]
  refine Chip.Left.finished ?_ event
  rw [Cmd.closed_quiet (.inr h0)]
  exact ⟨left.staged, left.cmds, left.inFlight, left.others, left.out, left.kept⟩

end

/-- The end of a command that has started, with no waiters anywhere. -/
theorem finish_started {c : Chip} {x : Ctx} {k : Cmd} (hp : k.phase ≠ .waiting) (hw : ∀ i, (c.event i).waiters = [])
    (hg : k.flag 3 = true → ∀ e ∈ x.mem.lines, e.1 ≠ evtLine (k.fld 10 2)) (status detail : Nat) (record : Bool) :
    c.Finished (c.finish x k status detail record) k status detail record := by
  have kept := Chip.Keeps.noteAll c x
  have behind : (if k.flag 2 && k.phase = .waiting then [k.fld 8 2] else []) = [] := if_neg (by simp [hp])
  unfold Chip.finish
  dsimp only
  rw [behind]
  cases h3 : k.flag 3 with
  | false =>
    rw [if_pos (by rfl), settle_idle _ _ _ _ (fun _ h => absurd h List.not_mem_nil)]
    exact retire_finished kept hw h3 detail record
  | true =>
    rw [if_neg (by simp)]
    by_cases h0 : status = 0
    · rw [if_pos h0, meetEvent_clean (hg h3), h0]
      exact signal_finished kept hw h3 _ detail record
    · rw [if_neg h0]
      exact poison_finished kept hw h3 h0 _ detail record

end Sys2Proof.Machine
end

section
/-! SUPPORT. COMMAND_COMMIT, and the statement about it. -/

namespace Sys2Proof.Machine

/-! ### COMMAND_COMMIT (R38, R40, R41, R349) -/

/-- COMMAND_COMMIT of a command in its commit phase ends it. -/
theorem commandCommit_ended {x : Ctx} {c : Chip} {id : Nat} {k : Cmd} (h : c.cmd? id = some k) (hp : k.phase = .ended) (written : Bool) :
    Chip.commandCommit x c id written = Chip.commitEnded x c k written := by
  have settled : c.settleLoad k = c := by simp [Chip.settleLoad, hp]
  simp [Chip.commandCommit, h, settled, hp]

/-- A commit whose record is written, kept waiting or lost without a report. -/
theorem commitEnded_written (x : Ctx) (c : Chip) (k : Cmd) :
    Chip.commitEnded x c k true = (c.finish x (c.accounted k) k.status k.detail true).noteParts x := rfl

/-- A commit whose record write fails (R349). -/
theorem commitEnded_failed {x : Ctx} {c : Chip} {k : Cmd} (h : c.cqOpen k) :
    Chip.commitEnded x c k false =
      ((c.finish x (c.accounted k) k.status k.detail false).recordWriteFailed k.fn (c.sq k.queue).cq).noteParts x := by
  obtain ⟨enable, error, full, waiting, lets⟩ := h
  simp only [Chip.commitEnded]
  rw [if_pos (by simp [enable, error, full, waiting, lets])]

/-- The events after the end of a command, field by field. -/
theorem closes_events {c d : Chip} {k : Cmd} {status : Nat}
    (h : ∀ i, d.event i = if i = k.fld 10 2 then k.closes status (c.event i) else c.event i) :
    (d.event (k.fld 10 2)).count =
      (if k.flag 3 && status = 0 then min ((c.event (k.fld 10 2)).count + k.fld 14 2) 0xFFFFFFFF else (c.event (k.fld 10 2)).count) ∧
    (d.event (k.fld 10 2)).overflow = ((c.event (k.fld 10 2)).overflow ||
      (k.flag 3 && status = 0 && min ((c.event (k.fld 10 2)).count + k.fld 14 2) 0xFFFFFFFF = 0xFFFFFFFF)) ∧
    (d.event (k.fld 10 2)).poisoned = ((c.event (k.fld 10 2)).poisoned || k.flag 3 && status ≠ 0) ∧
    ∀ j, j ≠ k.fld 10 2 → d.event j = c.event j := by
  have others (j : Nat) (hj : j ≠ k.fld 10 2) : d.event j = c.event j := (h j).trans (if_neg hj)
  rw [(h (k.fld 10 2)).trans (if_pos rfl), Cmd.closes]
  cases h3 : k.flag 3 <;> by_cases h0 : status = 0 <;> simpa [h0, Event.signalled] using others

/-- Settles O17: the command is finished, and with a record write that fails its completion queue is in ERROR. -/
theorem commandCommits : Obligations.CommandCommits := by
  intro s id k h hk hp hw hg
  have started : (s.chip.accounted k).phase ≠ .waiting := by rw [show (s.chip.accounted k).phase = k.phase from rfl, hp]; decide
  have finished := finish_started (x := s.ctx) started hw (fun _ => hg) k.status k.detail
  refine ⟨?_, fun ho => ?_⟩
  · obtain ⟨staged, cmds, inFlight, others, out, -, event⟩ := finished true
    have committed := (commandCommit_ended (x := s.ctx) hk hp true).trans (commitEnded_written _ _ _)
    generalize s.chip.finish s.ctx (s.chip.accounted k) k.status k.detail true = d at *
    obtain ⟨r, v, n, ps, stepped⟩ := onChip_noted h (f := fun x c => Chip.commandCommit x c id true) committed staged
    exact ⟨_, stepped, rfl, rfl,
      ⟨cmds, inFlight, others, out rfl⟩, closes_events event⟩
  · obtain ⟨staged, cmds, -, -, -, kept, event⟩ := finished false
    have committed := (commandCommit_ended (x := s.ctx) hk hp false).trans (commitEnded_failed ho)
    generalize s.chip.finish s.ctx (s.chip.accounted k) k.status k.detail false = d at *
    obtain ⟨staged', events', cmds', cq, -, -⟩ := recordWriteFailed_frame d k.fn (s.chip.sq k.queue).cq
    generalize d.recordWriteFailed k.fn (s.chip.sq k.queue).cq = e at *
    obtain ⟨r, v, n, ps, stepped⟩ := onChip_noted h (f := fun x c => Chip.commandCommit x c id false) committed (staged'.trans staged)
    have ownCq := (cq (256 * k.fn + (s.chip.sq k.queue).cq)).trans (if_pos rfl)
    rw [Chip.cq_congr (kept rfl)] at ownCq
    exact ⟨_, stepped, rfl, rfl, cmds'.trans (Chip.cmd?_id hk ▸ cmds), closes_events fun i => (Chip.event_congr events' i).trans (event i), congrArg CQ.error ownCq,
      congrArg CQ.cause ownCq, congrArg CQ.waiting ownCq, (congrArg CQ.written ownCq).trans rfl⟩

end Sys2Proof.Machine
end

section
/-! SUPPORT. One attempt to start a command, and the statement about a wait on a poisoned entry. -/

namespace Sys2Proof.Machine

/-! ### Attempts (R36, R37, R40, R44, R318) -/

/-- The entry a command waits on is read, where its line is good, without a trace (R408). -/
theorem meetTake_clean {c : Chip} {x : Ctx} {id : Nat} {k : Cmd} (hk : c.cmd? id = some k)
    (hg : ∀ e ∈ x.mem.lines, e.1 ≠ evtLine (k.fld 8 2)) : c.meetTake x id = c := by
  simp only [Chip.meetTake, hk, meetEvent_clean hg, ite_self]

/-- An attempt that ends without poison works off the entry waited on. -/
theorem tryStart_quiet {c : Chip} {x : Ctx} {id : Nat} {k : Cmd} {d : Chip} (hk : c.cmd? id = some k)
    (hg : ∀ e ∈ x.mem.lines, e.1 ≠ evtLine (k.fld 8 2)) (ha : c.attempt x k = (d, none)) :
    c.tryStart x id = settle d.settleFuel x [k.fld 8 2] d := by
  simp only [Chip.tryStart, meetTake_clean hk hg, hk, ha]

/-- One that poisons an entry does so after. -/
theorem tryStart_poisons {c : Chip} {x : Ctx} {id i : Nat} {k : Cmd} {d : Chip} (hk : c.cmd? id = some k)
    (hg : ∀ e ∈ x.mem.lines, e.1 ≠ evtLine (k.fld 8 2)) (ha : c.attempt x k = (d, some i)) :
    c.tryStart x id = (settle d.settleFuel x [k.fld 8 2] d).poison x i := by
  simp only [Chip.tryStart, meetTake_clean hk hg, hk, ha]

/-- A poisoned entry without waiters poisons nothing more. -/
theorem poison_idle {c : Chip} {x : Ctx} {i : Nat} (h : (c.event i).waiters = []) : c.poison x i = c.putEvent i { c.event i with poisoned := true } := by
  refine settle_idle _ _ _ _ fun j hj => ?_
  rw [List.mem_singleton.mp hj, Chip.event_putEvent, if_pos rfl]
  exact h

/-- A command that waits on a poisoned entry, and may be looked at, ends with EVENT_POISONED (R40). -/
theorem attempt_poisoned {c : Chip} {x : Ctx} {k : Cmd} (hp : k.phase = .waiting) (h2 : k.flag 2 = true) (ht : k.taken = false)
    (he : (c.event (k.fld 8 2)).poisoned = true) (ho : c.orderOk k = true) (hi : (c.noteAll x).inOrder x k = true) :
    c.attempt x k = ((c.noteAll x).retire k 9 0 true, if k.flag 3 then some (k.fld 10 2) else none) := by
  have poisoned : ((c.noteAll x).event (k.fld 8 2)).poisoned = true := by rw [Chip.event_congr (Chip.Keeps.noteAll c x).events]; exact he
  have order : (c.noteAll x).orderOk k = true := by
    obtain ⟨r, v, n, hn⟩ := noteAll_frame c x
    rw [hn]
    exact ho
  simp only [Chip.attempt]
  rw [if_neg (by simp [hp, hi]), if_pos (by simp [h2, ht, poisoned, order])]

/-- Its retirement leaves no waiter behind. -/
theorem poisonedWait_retired {c n : Chip} {k : Cmd} (hn : c.Keeps n) (h2 : k.flag 2 = true)
    (hw : (c.event (k.fld 8 2)).waiters = [] ∨ (c.event (k.fld 8 2)).waiters = [k.id])
    (ho : ∀ i, i ≠ k.fld 8 2 → (c.event i).waiters = []) :
    let d := n.retire k 9 0 true
    d.staged = c.staged ∧ c.ended d k 9 0 ∧ (∀ i, (d.event i).waiters = []) ∧ (∀ i, (d.event i).count = (c.event i).count) ∧
      ∀ i, i ≠ k.fld 8 2 → d.event i = c.event i := by
  obtain ⟨left, event⟩ := retire_frame n k 9 0 true
  obtain ⟨staged, cmds, inFlight, others, out, -⟩ := left.after_keeps hn
  have other (i : Nat) (hi : i ≠ k.fld 8 2) : (n.retire k 9 0 true).event i = c.event i := by
    rw [event, Chip.event_congr hn.events, Event.without_of_nil (ho i hi), ite_self]
  have own : (n.retire k 9 0 true).event (k.fld 8 2) = (c.event (k.fld 8 2)).without k.id := by
    rw [event, Chip.event_congr hn.events, if_pos (.inl ⟨h2, rfl⟩)]
  have gone : ((c.event (k.fld 8 2)).without k.id).waiters = [] := by
    rcases hw with hw | hw <;> simp [Event.without, hw]
  refine ⟨staged, ⟨cmds, inFlight, others, out rfl⟩, fun i => ?_, fun i => ?_, other⟩
  · by_cases hi : i = k.fld 8 2
    · rw [hi, own, gone]
    · rw [other i hi, ho i hi]
  · by_cases hi : i = k.fld 8 2
    · rw [hi, own]; rfl
    · rw [other i hi]

/-- Settles O16: the waiting command is retired with EVENT_POISONED, and its signal entry poisoned. -/
theorem poisonedWait : Obligations.PoisonedWait := by
  intro s id k h hk hp h2 ht he ho hi hg hw hothers
  have kid : k.id = id := Chip.cmd?_id hk
  have attempted := attempt_poisoned (x := s.ctx) hp h2 ht he ho hi
  obtain ⟨staged, ended, none, count, other⟩ := poisonedWait_retired (Chip.Keeps.noteAll s.chip s.ctx) h2 (kid ▸ hw) hothers
  generalize (s.chip.noteAll s.ctx).retire k 9 0 true = d at *
  have worked : settle d.settleFuel s.ctx [k.fld 8 2] d = d := settle_idle _ _ _ _ fun i _ => none i
  cases h3 : k.flag 3 with
  | false =>
    rw [h3] at attempted
    have tried := (tryStart_quiet (x := s.ctx) hk hg attempted).trans worked
    obtain ⟨r, v, n, ps, stepped⟩ :=
      onChip_noted h (f := fun x c => Chip.commandStart x c id) (congrArg (·.noteParts s.ctx) tried) staged
    exact ⟨_, stepped, rfl, ended, count, nofun, fun i hi _ => other i hi⟩
  | true =>
    rw [h3] at attempted
    have tried := (tryStart_poisons (x := s.ctx) hk hg attempted).trans (by rw [worked, poison_idle (none _)])
    have event (i : Nat) := Chip.event_putEvent d (k.fld 10 2) i { d.event (k.fld 10 2) with poisoned := true }
    obtain ⟨r, v, n, ps, stepped⟩ :=
      onChip_noted h (d := d.putEvent (k.fld 10 2) { d.event (k.fld 10 2) with poisoned := true })
        (f := fun x c => Chip.commandStart x c id) (congrArg (·.noteParts s.ctx) tried) staged
    refine ⟨_, stepped, rfl, ended, fun i => ?_, fun _ => ?_, fun i hi hj => ?_⟩
    · refine (congrArg Event.count (event i)).trans ?_
      split
      next e => exact e ▸ count _
      next => exact count i
    · exact (congrArg Event.poisoned (event _)).trans (by rw [if_pos rfl])
    · exact (event i).trans ((if_neg (Ne.symm (hj.resolve_left nofun))).trans (other i hi))

end Sys2Proof.Machine
end

section
/-! SUPPORT. What the start of a command takes and leaves, and the statement about COMMAND_START. -/

namespace Sys2Proof.Machine

/-! ### Nothing read at the start -/

theorem listSet_getD {α : Type} (l : List α) (i : Nat) (d : α) : listSet l i (l.getD i d) = l := by
  induction l generalizing i with
  | nil => rfl
  | cons a l ih =>
    cases i with
    | zero => rfl
    | succ i => exact congrArg (a :: ·) (ih i)

/-- Nothing taken of a regulator changes nothing. -/
theorem regTake_zero (c : Chip) (p i : Nat) : c.regTake p i 0 = c := by
  have level (pt : Part) :
      (if (pt.regs.getD i (0, 0)).1 = 0 then pt else { pt with levels := listSet pt.levels i (pt.levels.getD i 0 - (0 : Nat)) }) = pt := by
    split
    · rfl
    · rw [Int.natCast_zero, Int.sub_zero, listSet_getD]
  have parts : c.parts.map (fun e => if e.1 = p then
      (e.1, if (e.2.regs.getD i (0, 0)).1 = 0 then e.2 else { e.2 with levels := listSet e.2.levels i (e.2.levels.getD i 0 - (0 : Nat)) }) else e) = c.parts := by
    simp only [level, Prod.mk.eta, ite_self, List.map_id']
  simp only [Chip.regTake, Chip.modPart, parts]

/-- A command that reads no line before it starts has no run to read. -/
theorem startRuns_none {k : Cmd} (h : k.startReads = []) : k.startRuns = [] := by
  have short (r : Nat × Nat) (hr : r ∈ k.startRuns) : r.2 = 0 := by
    have lines : linesOf r.1 r.2 = [] := List.flatMap_eq_nil_iff.mp h r hr
    unfold linesOf at lines
    split at lines
    · assumption
    · simp at lines
  unfold Cmd.startRuns at short ⊢
  split_ifs at short ⊢ with h1 h2 h3
  · exact absurd (short _ List.mem_cons_self) h1
  · exact absurd (short _ List.mem_cons_self) (Nat.succ_ne_zero _)
  · exact absurd (short _ List.mem_cons_self) (Nat.succ_ne_zero _)
  · rfl

theorem startRead_none {k : Cmd} (h : k.startReads = []) (c : Chip) (x : Ctx) : c.startRead x k = c := by
  simp only [Chip.startRead, h, Chip.readLines, startRuns_none h, Chip.trafficCharge]
  cases c.cmdPart k with
  | none => rfl
  | some p =>
    have none (b : Bool) : c.dramLines [] b = 0 := rfl
    simp only [Option.elim, Chip.dramCharge, none, regTake_zero]

/-! ### What a start changes (R44, R53, R216) -/

/-- An entry after a command has made its take and waits no more. -/
def Event.taken (e : Event) (k : Cmd) : Event :=
  { e with count := e.count - k.fld 12 2, waiters := e.waiters.filter (· ≠ k.id) }

/-- A command as it runs from an instant on: its account and its descriptor stand. -/
structure Cmd.Began (k j : Cmd) (now : Nat) : Prop where
  id : j.id = k.id
  phase : j.phase = .running
  startNs : j.startNs = now
  taken : j.taken = true
  desc : j.desc = k.desc
  acct : j.acct = k.acct

/-- `d` is `c` with a command begun: the command runs, its take is made, and the start of a GATE_SEAL is the time of the seal. -/
structure Chip.Begun (c d : Chip) (k : Cmd) : Prop where
  chip : ∃ j ev g r v n, d = { c with cmds := (c.putCmd j).cmds, events := ev, gates := g, readied := r, vtime := v, instant := n } ∧ k.Began j c.time
  event : ∀ i, d.event i = if i = k.fld 8 2 ∧ k.flag 2 = true ∧ k.taken = false then (c.event i).taken k else c.event i
  sealed : ∀ p, c.cmdPart k = some p → (d.gate p).sealAt =
    if k.tclass = 0 ∧ k.opcode = 0x21 then some ((c.gate p).sealAt.getD c.time) else (c.gate p).sealAt

theorem begin_begun (c : Chip) (x : Ctx) (k : Cmd) : c.Begun (c.begin_ x k) k := by
  have take : ∃ ev, (if k.flag 2 && !k.taken then c.putEvent (k.fld 8 2) { c.event (k.fld 8 2) with
        count := (c.event (k.fld 8 2)).count - k.fld 12 2, waiters := (c.event (k.fld 8 2)).waiters.filter (· ≠ k.id) } else c) = { c with events := ev } ∧
      ∀ i, tabGet {} ev i = if i = k.fld 8 2 ∧ k.flag 2 = true ∧ k.taken = false then (c.event i).taken k else c.event i := by
    split
    next h =>
      obtain ⟨h2, ht⟩ : k.flag 2 = true ∧ k.taken = false := by simpa using h
      refine ⟨_, rfl, fun i => (Chip.event_putEvent c (k.fld 8 2) i _).trans ?_⟩
      by_cases hi : k.fld 8 2 = i
      · rw [if_pos hi, if_pos ⟨hi.symm, h2, ht⟩, hi]
        rfl
      · rw [if_neg hi, if_neg (fun h => hi h.1.symm)]
    next h =>
      refine ⟨c.events, rfl, fun i => ?_⟩
      rw [if_neg (fun hc => h (by simp [hc.2.1, hc.2.2]))]
      rfl
  obtain ⟨ev, taken, event⟩ := take
  unfold Chip.begin_
  dsimp only
  rw [taken]
  split
  next h =>
    obtain ⟨hc, ho⟩ : k.tclass = 0 ∧ k.opcode = 0x21 := by simpa using h
    refine ⟨⟨_, _, _, _, _, _, rfl, rfl, rfl, rfl, rfl, rfl, rfl⟩, event, fun p hp => ?_⟩
    have own : (({ c with events := ev } : Chip).cmdPart k).getD 16 = p := by rw [show ({ c with events := ev } : Chip).cmdPart k = some p from hp]; rfl
    rw [if_pos ⟨hc, ho⟩, own]
    refine (congrArg Gate.sealAt (tabGet_tabSet ({} : Gate) c.gates p p _)).trans ?_
    rw [if_pos rfl]
    rfl
  next h =>
    refine ⟨⟨_, _, _, _, _, _, rfl, rfl, rfl, rfl, rfl, rfl, rfl⟩, event, fun p hp => ?_⟩
    rw [if_neg (fun hc => h (by simp [hc.1, hc.2]))]
    rfl

/-- A command replaced is not another. -/
theorem Chip.cmd?_putCmd_ne (c : Chip) {k : Cmd} {id : Nat} (h : id ≠ k.id) : (c.putCmd k).cmd? id = c.cmd? id := by
  unfold Chip.cmd? Chip.putCmd
  simp only
  induction c.cmds with
  | nil => rfl
  | cons a l ih =>
    rw [List.map_cons, List.find?_cons, List.find?_cons, ih]
    by_cases ha : a.id = k.id
    · simp [ha, Ne.symm h]
    · simp [ha]

/-- The same whatever has been noted ready meanwhile. -/
theorem Chip.Begun.stamped {c d : Chip} {k : Cmd} {r v : Tab Nat} {n : Nat} (h : (c.stamped r v n).Begun d k) : c.Begun d k := by
  obtain ⟨⟨j, ev, g, r', v', n', hd, hj⟩, event, sealed⟩ := h
  exact ⟨⟨j, ev, g, r', v', n', hd, hj⟩, event, sealed⟩

/-- What has become ready is noted after a command has begun. -/
theorem Chip.Begun.noteAll {c d : Chip} {k : Cmd} (h : c.Begun d k) (x : Ctx) : c.Begun (d.noteAll x) k := by
  obtain ⟨r, v, n, hn⟩ := noteAll_frame d x
  obtain ⟨⟨j, ev, g, r', v', n', hd, hj⟩, event, sealed⟩ := h
  rw [hn]
  subst hd
  exact ⟨⟨j, ev, g, r, v, n, rfl, hj⟩, event, sealed⟩

theorem Chip.Begun.looked {c d : Chip} {k : Cmd} (h : c.Begun d k) (x : Ctx) (i : Nat) : c.Begun (d.looked x i) k := by
  unfold Chip.looked
  split
  · exact h
  · exact h.noteAll x

theorem Chip.Begun.requiredBad {c d : Chip} {k : Cmd} (h : c.Begun d k) : d.requiredBad k = c.requiredBad k := by
  obtain ⟨⟨j, ev, g, r, v, n, rfl, -⟩, -, -⟩ := h
  rfl

theorem Chip.Begun.staged {c d : Chip} {k : Cmd} (h : c.Begun d k) : d.staged = c.staged := by
  obtain ⟨⟨j, ev, g, r, v, n, rfl, -⟩, -, -⟩ := h
  rfl

/-- The command runs, and no other changes. -/
theorem Chip.Begun.cmds {c d : Chip} {k : Cmd} (h : c.Begun d k) (hk : c.cmd? k.id = some k) :
    (∃ j, d.cmd? k.id = some j ∧ k.Began j c.time) ∧ d.cmds.filter (fun j => j.id ≠ k.id) = c.cmds.filter (fun j => j.id ≠ k.id) := by
  obtain ⟨⟨j, ev, g, r, v, n, rfl, hj⟩, -, -⟩ := h
  exact ⟨⟨j, Chip.cmd?_putCmd hk hj.id, hj⟩, hj.id ▸ Chip.putCmd_others c j⟩

theorem Chip.Begun.cmd?_ne {c d : Chip} {k : Cmd} (h : c.Begun d k) {id : Nat} (hi : id ≠ k.id) : d.cmd? id = c.cmd? id := by
  obtain ⟨⟨j, ev, g, r, v, n, rfl, hj⟩, -, -⟩ := h
  exact Chip.cmd?_putCmd_ne c (hj.id.symm ▸ hi)

/-- A command that may start, whose turn it is and whose checks pass, begins (R36, R37, R318). -/
theorem attempt_starts {c : Chip} {x : Ctx} {k : Cmd} (h : (c.noteAll x).starts x k) (he : (c.event (k.fld 8 2)).poisoned = false) :
    ∃ d, c.attempt x k = (d, none) ∧ c.Begun d k := by
  obtain ⟨hp, order, can, turn, checks, required, reads, hbm⟩ := h
  obtain ⟨⟨base, take⟩, free⟩ : ((c.noteAll x).readyBase x k = true ∧ (c.noteAll x).takeOk k = true) ∧ (c.noteAll x).targetFree x k = true := by
    simpa [Chip.canStart] using can
  have poisoned : ((c.noteAll x).event (k.fld 8 2)).poisoned = false := by rw [Chip.event_congr (Chip.Keeps.noteAll c x).events]; exact he
  have begun := begin_begun (c.noteAll x) x k
  refine ⟨(c.noteAll x).begin_ x k, ?_, ?_⟩
  · have alive : ¬ ((c.noteAll x).tiers.hbmFailed && k.tclass ≤ 6 && k.opcode ≠ 0) = true := by
      intro hf
      simp only [Bool.and_eq_true, decide_eq_true_eq] at hf
      rcases hbm hf.1.1 with h | h <;> omega
    simp only [Chip.attempt, checks]
    rw [if_neg (by simp [hp, order]), if_neg (by simp [poisoned]), if_neg (by simp [base]), if_neg (by simp [take]),
      if_neg (by simp [free, turn]), if_neg alive]
    simp only [Chip.start, startRead_none reads]
    rw [if_neg (by simp [begun.requiredBad, required])]
  · obtain ⟨r, v, n, hn⟩ := noteAll_frame c x
    rw [hn] at begun ⊢
    exact begun.stamped

/-- Settles O15: the command begins, and no waiter is left of the entry it waited on. -/
theorem commandStarts : Obligations.CommandStarts := by
  intro s id k h hk hp w e hw hpoison hg hstarts
  have kid : k.id = id := Chip.cmd?_id hk
  subst kid
  obtain ⟨d, attempted, begun⟩ := attempt_starts hstarts hpoison
  have none : (d.event w).waiters = [] := by
    rw [begun.event]
    rcases hw with hw | ⟨h2, ht, hw⟩
    · split
      · simp [Event.taken, show (s.chip.event w).waiters = [] from hw]
      · exact hw
    · rw [if_pos ⟨rfl, h2, ht⟩]
      simp [Event.taken, show (s.chip.event w).waiters = [k.id] from hw]
  have tried := (tryStart_quiet (x := s.ctx) hk hg attempted).trans (settle_idle _ _ _ _ fun i hi => by rw [List.mem_singleton.mp hi]; exact none)
  obtain ⟨r, v, n, ps, stepped⟩ :=
    onChip_noted h (f := fun x c => Chip.commandStart x c k.id) (congrArg (·.noteParts s.ctx) tried) begun.staged
  obtain ⟨⟨j, hj, began⟩, others⟩ := begun.cmds hk
  have event := begun.event
  have sealed := begun.sealed
  obtain ⟨⟨j', ev, g, r', v', n', rfl, -⟩, -, -⟩ := begun
  refine ⟨_, stepped, rfl, rfl, ⟨j, hj, began.phase, began.startNs, began.taken, began.desc, began.acct⟩, others, ?_, fun h2 ht => none,
    fun i hi => (event i).trans (if_neg fun hc => hi hc.1), sealed, rfl, rfl, rfl, rfl, rfl, rfl, rfl⟩
  refine (congrArg Event.count (event w)).trans ?_
  by_cases ht : k.flag 2 = true ∧ k.taken = false
  · rw [if_pos ⟨rfl, ht⟩, if_pos (by simp [ht.1, ht.2])]
    rfl
  · rw [if_neg (fun hc => ht hc.2), if_neg (by simpa using ht)]

end Sys2Proof.Machine
end

section
/-! SUPPORT. The EVT page and the event commands, and the statement about them. -/

namespace Sys2Proof.Machine

/-! ### Noting what is ready does not look at reports -/

/-- A chip with everything that reporting changes as another has it. -/
def Chip.retold (c d : Chip) : Chip :=
  { c with headers := d.headers, trace := d.trace, traceHead := d.traceHead, outbox := d.outbox, fns := d.fns, sentVecs := d.sentVecs, traced := d.traced }

theorem Chip.reports_retold {c d : Chip} (h : Chip.reports c d) (hs : d.staged = c.staged) : d = c.retold d := by
  have whole (e f : Chip) : e = { e.quiet with
      headers := e.headers, trace := e.trace, traceHead := e.traceHead, outbox := e.outbox, fns := e.fns, sentVecs := e.sentVecs
      traced := e.traced, staged := e.staged } := rfl
  refine (whole d c).trans ?_
  rw [h.1, hs]
  rfl

theorem readyBase_retold {c d : Chip} (h : ∀ f, (d.hdr f).kept = (c.hdr f).kept) (x : Ctx) (k : Cmd) :
    (c.retold d).readyBase x k = c.readyBase x k := by
  have pages (pg : Page) : (((c.retold d).hdr pg.frame).ready && !((c.retold d).hdr pg.frame).quiesce) =
      ((c.hdr pg.frame).ready && !(c.hdr pg.frame).quiesce) := by
    have ready : (d.hdr pg.frame).kept.ready = (c.hdr pg.frame).kept.ready := by rw [h]
    have quiesce : (d.hdr pg.frame).kept.quiesce = (c.hdr pg.frame).kept.quiesce := by rw [h]
    exact congrArg₂ (fun a b => a && !b) ready quiesce
  have held : (c.retold d).opHeld x k = c.opHeld x k := rfl
  have all : ((c.retold d).pagesOf k).all (fun pg => ((c.retold d).hdr pg.frame).ready && !((c.retold d).hdr pg.frame).quiesce) =
      (c.pagesOf k).all (fun pg => (c.hdr pg.frame).ready && !(c.hdr pg.frame).quiesce) := by
    simp only [pages]
    rfl
  unfold Chip.readyBase
  rw [held, all]
  rfl

theorem engReady_retold {c d : Chip} (h : ∀ f, (d.hdr f).kept = (c.hdr f).kept) (x : Ctx) (k : Cmd) :
    (c.retold d).engReady x k = c.engReady x k := by
  unfold Chip.engReady
  rw [readyBase_retold h]
  rfl

theorem noteReady_retold {c d : Chip} (h : ∀ f, (d.hdr f).kept = (c.hdr f).kept) (x : Ctx) (k : Cmd) :
    (c.retold d).noteReady x k = (c.noteReady x k).retold d := by
  have on (e : Nat) : (c.retold d).onEngine e k = c.onEngine e k := rfl
  have part : (c.retold d).cmdPart k = c.cmdPart k := rfl
  unfold Chip.noteReady
  cases k.engine with
  | none => rfl
  | some e =>
    dsimp only
    rw [engReady_retold h, on, part, show (c.retold d).readied = c.readied from rfl]
    split_ifs
    · rfl
    · cases c.cmdPart k with
      | none => rfl
      | some p =>
        dsimp only
        split_ifs <;> rfl

theorem noteAll_retold {c d : Chip} (h : ∀ f, (d.hdr f).kept = (c.hdr f).kept) (x : Ctx) : (c.retold d).noteAll x = (c.noteAll x).retold d := by
  have fold (ks : List Cmd) (e : Chip) (he : e.headers = c.headers) :
      ks.foldl (fun c k => c.noteReady x k) (e.retold d) = (ks.foldl (fun c k => c.noteReady x k) e).retold d := by
    induction ks generalizing e with
    | nil => rfl
    | cons k ks ih =>
      have kept (f : Nat) : (d.hdr f).kept = (e.hdr f).kept := by rw [h, Chip.hdr, ← he, ← Chip.hdr]
      rw [List.foldl_cons, List.foldl_cons, noteReady_retold kept]
      obtain ⟨r, v, n, hn⟩ := noteReady_frame e x k
      exact ih _ (by rw [hn]; exact he)
  unfold Chip.noteAll
  simp only [engReady_retold h]
  exact fold c.cmds { c with readied := c.readied.filter (fun e => c.cmds.any (fun k => k.id = e.1 && c.engReady x k)) } rfl

/-- What is noted ready is the same over chips that differ by reports. -/
theorem noteAll_reports {c d : Chip} (h : Chip.reports c d) (hs : d.staged = c.staged) (x : Ctx) :
    Chip.reports (c.noteAll x) (d.noteAll x) := by
  obtain ⟨r, v, n, hn⟩ := noteAll_frame c x
  rw [Chip.reports_retold h hs, noteAll_retold h.2.1, hn]
  exact ⟨rfl, h.2.1, h.2.2⟩

/-! ### Waiters that are looked at (R44, R45) -/

/-- A waiter that needs more than the count of an entry without poison goes on waiting. -/
theorem attempt_waits {c : Chip} {k : Cmd} (x : Ctx) (h2 : k.flag 2 = true) (ht : k.taken = false)
    (he : (c.event (k.fld 8 2)).poisoned = false) (hc : (c.event (k.fld 8 2)).count < k.fld 12 2)
    (hw : (c.event (k.fld 8 2)).waiters.contains k.id = true) : c.attempt x k = (c.noteAll x, none) := by
  have event := Chip.event_congr (Chip.Keeps.noteAll c x).events (k.fld 8 2)
  have short : (c.noteAll x).takeOk k = false := by
    have few : decide (k.fld 12 2 ≤ (c.event (k.fld 8 2)).count) = false := by simpa using hc
    simp only [Chip.takeOk, event, few, h2, ht, Bool.and_false]
    rfl
  simp only [Chip.attempt]
  split
  · rfl
  · rw [if_neg (by simp [event, he])]
    split
    · rfl
    · rw [if_pos (by simp [short]), if_pos (by rw [event]; exact hw)]

/-- Where no waiter of an entry can move, it is looked at and nothing more. -/
theorem settle_blocked {c : Chip} {i : Nat} (h : c.blocked i) (fuel : Nat) (x : Ctx) : settle (fuel + 1) x [i] c = c.looked x i := by
  have done (d : Chip) : settle fuel x [] d = d := settle_idle _ _ _ _ fun _ h => absurd h List.not_mem_nil
  by_cases hn : (c.event i).waiters = []
  · rw [Chip.looked, if_pos hn, settle_idle _ _ _ _ (fun j hj => List.mem_singleton.mp hj ▸ hn)]
  · obtain ⟨he, w, k, hw, hk, -, h2, ht, hi, hc⟩ := h.resolve_left hn
    obtain ⟨rest, hr⟩ := List.head?_eq_some_iff.mp hw
    subst hi
    have waits := attempt_waits x h2 ht he hc (by rw [hr, Chip.cmd?_id hk]; simp)
    have head : (((c.noteAll x).event (k.fld 8 2)).waiters).head? = some w := by rw [Chip.event_congr (Chip.Keeps.noteAll c x).events, hw]
    rw [Chip.looked, if_neg hn]
    simp only [settle, hr, hk, waits, head, if_true, done]

/-- A waiter that starts makes way for the next. -/
theorem settle_starts {c d : Chip} {x : Ctx} {i w : Nat} {rest : List Nat} {k : Cmd} (hw : (c.event i).waiters = w :: rest)
    (hk : c.cmd? w = some k) (ha : c.attempt x k = (d, none)) (hd : (d.event i).waiters.head? ≠ some w) (fuel : Nat) :
    settle (fuel + 1) x [i] c = settle fuel x [i] d := by
  simp only [settle, hw, hk, ha, if_neg hd]

/-! ### Signals (R44, R46) -/

theorem bumpEvent_reports (c : Chip) (i n : Nat) : Chip.reports (c.putEvent i ((c.event i).signalled n)) (c.bumpEvent i n).1 := by
  unfold Chip.bumpEvent
  dsimp only
  split
  · split
    · split
      · exact vector_reports _ _ _
      · exact Chip.reports_refl _
    · exact Chip.reports_refl _
  · exact Chip.reports_refl _

/-- An entry that asks for no interrupt raises none. -/
theorem bumpEvent_quiet {c : Chip} {i : Nat} (h : (c.event i).irqOn = false) (n : Nat) :
    (c.bumpEvent i n).1 = c.putEvent i ((c.event i).signalled n) := by
  unfold Chip.bumpEvent
  dsimp only
  rw [if_neg (by simp [h])]
  rfl

/-- A threshold crossed raises the vector of the owner's function. -/
theorem bumpEvent_raises {c : Chip} {i n p : Nat} {pt : Part} (hi : (c.event i).irqOn = true) (hlo : (c.event i).count < (c.event i).threshold)
    (hhi : (c.event i).threshold ≤ min ((c.event i).count + n) 0xFFFFFFFF) (ho : (c.event i).owner = some p) (hp : c.part? p = some pt) :
    c.raised (c.bumpEvent i n).1 pt.fn (c.event i).vector := by
  have bumped : (c.bumpEvent i n).1 = (c.putEvent i ((c.event i).signalled n)).vector pt.fn (c.event i).vector := by
    unfold Chip.bumpEvent
    dsimp only
    rw [if_pos (by simp only [hi, hlo, Bool.true_and, Bool.and_eq_true, decide_eq_true_eq]; exact ⟨trivial, hhi⟩)]
    split
    next q hq =>
      cases ho.symm.trans hq
      split
      next u hu => cases (show c.part? p = some u from hu).symm.trans hp; rfl
      next hu => exact absurd ((show c.part? p = none from hu).symm.trans hp) nofun
    next hq => exact absurd (ho.symm.trans hq) nofun
  rw [bumped]
  exact vector_raised (c.putEvent i ((c.event i).signalled n)) pt.fn (c.event i).vector

/-- What a signal of a clean entry does: the bump, and the work on its waiters. -/
theorem signal_clean {c : Chip} {x : Ctx} {i : Nat} (h : ∀ e ∈ x.mem.lines, e.1 ≠ evtLine i) (n : Nat) :
    (c.signal x i n).1 = settle ((4 * (c.bumpEvent i n).1.cmds.length + 7) + 1) x [i] (c.bumpEvent i n).1 := by
  simp only [Chip.signal, meetEvent_clean h]
  rfl

/-- A chip whose waiters of an entry cannot move, over reports. -/
theorem Chip.blocked_congr {c d : Chip} {i : Nat} (he : d.events = c.events) (hc : d.cmds = c.cmds) : d.blocked i ↔ c.blocked i := by
  simp only [Chip.blocked, Chip.event_congr he, Chip.cmd?_congr hc]

/-- A signal of an entry none of whose waiters can move. -/
theorem signal_blocked {c : Chip} {x : Ctx} {i n : Nat} (h : ∀ e ∈ x.mem.lines, e.1 ≠ evtLine i)
    (hb : (c.putEvent i ((c.event i).signalled n)).blocked i) : (c.signal x i n).1 = (c.bumpEvent i n).1.looked x i := by
  obtain ⟨keeps, -⟩ := bumpEvent_keeps c i n
  rw [signal_clean h, settle_blocked ((Chip.blocked_congr keeps.events keeps.cmds).mpr hb)]

/-- Looking at an entry does the same over reports. -/
theorem looked_reports {c d : Chip} (h : Chip.reports c d) (hs : d.staged = c.staged) (he : d.events = c.events) (x : Ctx) (i : Nat) :
    Chip.reports (c.looked x i) (d.looked x i) := by
  unfold Chip.looked
  rw [Chip.event_congr he]
  split
  · exact h
  · exact noteAll_reports h hs x

theorem looked_frame (c : Chip) (x : Ctx) (i : Nat) : ∃ r v n, c.looked x i = c.stamped r v n := by
  unfold Chip.looked
  split
  · exact ⟨c.readied, c.vtime, c.instant, rfl⟩
  · exact noteAll_frame c x

/-! ### The EVT page (R46) -/

theorem bitField_entry {i n : Nat} (hi : i < 2 ^ 16) (hn : n < 2 ^ 16) : bitField (2 ^ 16 * i + n) 31 16 = i ∧ (2 ^ 16 * i + n) % 2 ^ 16 = n := by
  unfold bitField
  omega

/-- The number of an entry has no bit that EVT.RESET reserves. -/
theorem and_reserved {i : Nat} (hi : i < 2 ^ 16) : i &&& 0xFFFF0000 = 0 := by
  refine Nat.eq_of_testBit_eq fun j => ?_
  rw [Nat.testBit_and, Nat.zero_testBit, show 0xFFFF0000 = 0xFFFF * 2 ^ 16 by rfl, Nat.testBit_mul_two_pow]
  by_cases hj : 16 ≤ j
  · rw [Nat.testBit_lt_two_pow (hi.trans_le (Nat.pow_le_pow_right (by decide) hj)), Bool.false_and]
  · simp [hj]

section
variable {s : State} {r : Requester} (hr : s.chip.writeReaches s.fuse r { blk := .evt, inst := 0 } = true) (hv : ∀ a b, r ≠ .vf a b)

include hr hv

theorem evtSignal_reached (v : Nat) :
    Chip.evtSignal s.ctx s.chip r v =
      if s.chip.mayEvent r (bitField v 31 16) then (s.chip.signal s.ctx (bitField v 31 16) (v % 2 ^ 16)).1 else s.chip.deny evtPage := by
  have reached : s.chip.writeReaches s.ctx.fuse r evtPage = true := hr
  cases r with
  | vf a b => exact absurd rfl (hv a b)
  | mgmt => simp [Chip.evtSignal, reached]
  | pf p => simp [Chip.evtSignal, reached]
  | jtag => simp [Chip.evtSignal, reached]

theorem evtReset_reached {i : Nat} (hi : i < 2 ^ 16) :
    Chip.evtReset s.ctx s.chip r i =
      if s.chip.mayEvent r i then
        settle ((s.chip.meetEvent s.ctx i).resetEvent i).settleFuel s.ctx [i] ((s.chip.meetEvent s.ctx i).resetEvent i)
      else s.chip.deny evtPage := by
  have reached : s.chip.writeReaches s.ctx.fuse r evtPage = true := hr
  have small : i % 2 ^ 16 = i := Nat.mod_eq_of_lt hi
  have plain : s.chip.rsvd evtPage i 0xFFFF0000 = s.chip := by rw [Chip.rsvd, and_reserved hi, if_pos rfl]
  cases r with
  | vf a b => exact absurd rfl (hv a b)
  | mgmt => simp only [Chip.evtReset, reached, plain, small]; rfl
  | pf p => simp only [Chip.evtReset, reached, plain, small]; rfl
  | jtag => simp only [Chip.evtReset, reached, plain, small]; rfl

/-- EVT_SIGNAL of an entry that its requester may not touch. -/
theorem exec_evtSignal_denied (h : s.sound) {i n : Nat} (hi : i < 2 ^ 16) (hn : n < 2 ^ 16) (hm : s.chip.mayEvent r i = false) :
    becomesJust (.evtSignal r (2 ^ 16 * i + n)) s (s.chip.deny { blk := .evt, inst := 0 }) := by
  refine onChip_just h (f := fun x c => Chip.evtSignal x c r (2 ^ 16 * i + n)) ((evtSignal_reached hr hv _).trans ?_) rfl
  rw [(bitField_entry hi hn).1, hm, if_neg Bool.false_ne_true]
  rfl

/-- EVT_RESET of such an entry. -/
theorem exec_evtReset_denied (h : s.sound) {i : Nat} (hi : i < 2 ^ 16) (hm : s.chip.mayEvent r i = false) :
    becomesJust (.evtReset r i) s (s.chip.deny { blk := .evt, inst := 0 }) := by
  refine onChip_just h (f := fun x c => Chip.evtReset x c r i) ((evtReset_reached hr hv hi).trans ?_) rfl
  rw [hm, if_neg Bool.false_ne_true]
  rfl

/-- EVT_RESET of an entry none of whose waiters can move after it. -/
theorem exec_evtReset_blocked (h : s.sound) {i : Nat} (hi : i < 2 ^ 16) (hg : s.entryGood i) (hm : s.chip.mayEvent r i = true)
    (hb : (s.chip.resetEvent i).blocked i) : becomesJust (.evtReset r i) s ((s.chip.resetEvent i).looked s.ctx i) := by
  obtain ⟨a, v, n, looked⟩ := looked_frame (s.chip.resetEvent i) s.ctx i
  refine onChip_just h (f := fun x c => Chip.evtReset x c r i) ((evtReset_reached hr hv hi).trans ?_) (by rw [looked]; rfl)
  rw [hm, if_pos rfl, meetEvent_good hg]
  exact settle_blocked hb _ _

/-- EVT_SIGNAL of a permitted entry is a signal of it. -/
theorem evtSignal_permitted {i n : Nat} (hi : i < 2 ^ 16) (hn : n < 2 ^ 16) (hm : s.chip.mayEvent r i = true) :
    Chip.evtSignal s.ctx s.chip r (2 ^ 16 * i + n) = (s.chip.signal s.ctx i n).1 := by
  obtain ⟨entry, amount⟩ := bitField_entry hi hn
  rw [evtSignal_reached hr hv, entry, amount, hm, if_pos rfl]

/-- EVT_SIGNAL of an entry none of whose waiters can move: the bump, what it reports, and what is ready by then. -/
theorem exec_evtSignal_blocked (h : s.sound) {i n : Nat} (hi : i < 2 ^ 16) (hn : n < 2 ^ 16) (hg : s.entryGood i)
    (hm : s.chip.mayEvent r i = true) (hb : (s.chip.putEvent i ((s.chip.event i).signalled n)).blocked i) :
    becomesJust (.evtSignal r (2 ^ 16 * i + n)) s ((s.chip.bumpEvent i n).1.looked s.ctx i) := by
  obtain ⟨keeps, -⟩ := bumpEvent_keeps s.chip i n
  obtain ⟨a, v, m, looked⟩ := looked_frame (s.chip.bumpEvent i n).1 s.ctx i
  exact onChip_just h (f := fun x c => Chip.evtSignal x c r (2 ^ 16 * i + n))
    ((evtSignal_permitted hr hv hi hn hm).trans (signal_blocked hg hb)) ((congrArg Chip.staged looked).trans keeps.staged)

/-- EVT_SIGNAL that lets the oldest waiter take: it begins, and the waiters behind it are looked at. -/
theorem exec_evtSignal_starts (h : s.sound) {i n w : Nat} {k : Cmd} {rest : List Nat} (hi : i < 2 ^ 16) (hn : n < 2 ^ 16) (hg : s.entryGood i)
    (hm : s.chip.mayEvent r i = true) (hw : (s.chip.event i).waiters = w :: rest) (hrest : w ∉ rest)
    (hp : (s.chip.event i).poisoned = false) (hirq : (s.chip.event i).irqOn = false) (hk : s.chip.cmd? w = some k) (hki : k.fld 8 2 = i)
    (h2 : k.flag 2 = true) (ht : k.taken = false)
    (hs : ((s.chip.putEvent i ((s.chip.event i).signalled n)).noteAll s.ctx).starts s.ctx k)
    (hb : rest = [] ∨ ∃ w' k', rest.head? = some w' ∧ s.chip.cmd? w' = some k' ∧ k'.phase = .waiting ∧ k'.flag 2 = true ∧ k'.taken = false ∧
      k'.fld 8 2 = i ∧ ((s.chip.event i).signalled n).count - k.fld 12 2 < k'.fld 12 2) :
    ∃ d, exec (.evtSignal r (2 ^ 16 * i + n)) s = .next { s with chip := d.between } ∧
      (s.chip.putEvent i ((s.chip.event i).signalled n)).Begun d k ∧ (d.event i).waiters = rest := by
  have kid : k.id = w := Chip.cmd?_id hk
  subst hki
  have up : (s.chip.putEvent (k.fld 8 2) ((s.chip.event (k.fld 8 2)).signalled n)).event (k.fld 8 2) = (s.chip.event (k.fld 8 2)).signalled n := by
    rw [Chip.event_putEvent, if_pos rfl]
  obtain ⟨d, attempted, begun⟩ := attempt_starts hs (by rw [up]; exact hp)
  have own : d.event (k.fld 8 2) = ((s.chip.event (k.fld 8 2)).signalled n).taken k := by rw [begun.event, if_pos ⟨rfl, h2, ht⟩, up]
  have waiters : (d.event (k.fld 8 2)).waiters = rest := by
    have left : rest.filter (· ≠ k.id) = rest := List.filter_eq_self.mpr fun v hv => by
      have : v ≠ k.id := by rintro rfl; exact hrest (kid ▸ hv)
      simpa using this
    rw [own, Event.taken, show ((s.chip.event (k.fld 8 2)).signalled n).waiters = w :: rest from hw, List.filter_cons, if_neg (by simp [kid]), left]
  have blocked : d.blocked (k.fld 8 2) := by
    refine hb.imp (fun e => waiters.trans e) fun ⟨w', k', hhead, hk', hp', h2', ht', hi', hc'⟩ => ?_
    refine ⟨(congrArg Event.poisoned own).trans hp, w', k', by rw [waiters, hhead], ?_, hp', h2', ht', hi', by rw [own]; exact hc'⟩
    have ne : w' ≠ k.id := by rintro rfl; exact hrest (kid ▸ List.mem_of_mem_head? hhead)
    exact (begun.cmd?_ne ne).trans hk'
  have head : (d.event (k.fld 8 2)).waiters.head? ≠ some w := by
    rw [waiters]
    exact fun e => hrest (List.mem_of_mem_head? e)
  have worked : Chip.evtSignal s.ctx s.chip r (2 ^ 16 * k.fld 8 2 + n) = d.looked s.ctx (k.fld 8 2) := by
    rw [evtSignal_permitted hr hv hi hn hm, signal_clean (x := s.ctx) hg, bumpEvent_quiet hirq,
      settle_starts ((congrArg Event.waiters up).trans hw) hk attempted head, settle_blocked blocked]
  have looked := begun.looked s.ctx (k.fld 8 2)
  refine ⟨d.looked s.ctx (k.fld 8 2), onChip_just h (f := fun x c => Chip.evtSignal x c r (2 ^ 16 * k.fld 8 2 + n)) worked looked.staged, looked, ?_⟩
  obtain ⟨a, v, m, e⟩ := looked_frame d s.ctx (k.fld 8 2)
  rw [e]
  exact waiters

end

/-! ### NOP and EVENT_RESET (R35, R47) -/

/-- A command as it ends at once. -/
def Chip.endsNow (c : Chip) (k : Cmd) : Cmd := c.accounted { k with phase := .ended }

/-- A command that ends at once and does not signal: it is ended, and the events stand. -/
theorem finishNow_quiet {c : Chip} {x : Ctx} {k : Cmd} (hw : ∀ i, (c.event i).waiters = []) (h3 : k.flag 3 = false) :
    (Chip.finishNow x c k).staged = c.staged ∧ c.ended (Chip.finishNow x c k) (c.endsNow k) 0 0 ∧ ∀ i, (Chip.finishNow x c k).event i = c.event i := by
  have h3' : (c.endsNow k).flag 3 = false := h3
  obtain ⟨staged, cmds, inFlight, others, out, -, event⟩ :=
    finish_started (x := x) (k := c.endsNow k) nofun hw (fun h => absurd (h3'.symm.trans h) nofun) 0 0 true
  rw [Cmd.closed_quiet (.inl h3')] at out
  refine ⟨staged, ⟨cmds, inFlight, others, out rfl⟩, fun i => (event i).trans ?_⟩
  rw [Cmd.closes, h3', if_neg Bool.false_ne_true, ite_self]

/-- One that signals: its entry is signalled. -/
theorem finishNow_signals {c : Chip} {x : Ctx} {k : Cmd} (hw : ∀ i, (c.event i).waiters = []) (h3 : k.flag 3 = true)
    (hg : ∀ e ∈ x.mem.lines, e.1 ≠ evtLine (k.fld 10 2)) :
    (Chip.finishNow x c k).staged = c.staged ∧ (Chip.finishNow x c k).cmds = c.cmds.filter (fun j => j.id ≠ k.id) ∧
      ∀ i, (Chip.finishNow x c k).event i = if i = k.fld 10 2 then (c.event i).signalled (k.fld 14 2) else c.event i := by
  have h3' : (c.endsNow k).flag 3 = true := h3
  obtain ⟨staged, cmds, -, -, -, -, event⟩ := finish_started (x := x) (k := c.endsNow k) nofun hw (fun _ => hg) 0 0 true
  refine ⟨staged, cmds, fun i => (event i).trans ?_⟩
  rw [Cmd.closes, h3', if_pos rfl, if_pos rfl]
  rfl

/-- An entry after a reset (R44). -/
def Event.reset (e : Event) : Event := { e with count := 0, poisoned := false, overflow := false }

theorem resetEvent_event (c : Chip) (i j : Nat) : (c.resetEvent i).event j = if j = i then (c.event j).reset else c.event j := by
  rw [Chip.resetEvent, Chip.event_putEvent]
  by_cases h : i = j
  · rw [if_pos h, if_pos h.symm, h]; rfl
  · rw [if_neg h, if_neg (Ne.symm h)]

theorem resetEvent_waiters {c : Chip} (h : ∀ i, (c.event i).waiters = []) (i j : Nat) : ((c.resetEvent i).event j).waiters = [] := by
  rw [resetEvent_event]
  split
  · exact h j
  · exact h j

/-- NOP ends at once. -/
theorem exec_nop {s : State} (h : s.sound) {id : Nat} {k : Cmd} (hk : s.chip.runs id 0x00 k)
    (hs : (Chip.finishNow s.ctx s.chip k).staged = s.chip.staged) :
    exec (.nop id) s = .next { s with chip := (Chip.finishNow s.ctx s.chip k).between } :=
  onOp_just h hk (body := Chip.finishNow) rfl hs

/-- EVENT_RESET resets its entry and ends at once. -/
theorem exec_eventReset {s : State} (h : s.sound) {id : Nat} {k : Cmd} (hk : s.chip.runs id 0x01 k) (hg : s.entryGood (k.fld 16 2))
    (hs : (Chip.finishNow s.ctx (s.chip.resetEvent (k.fld 16 2)) k).staged = s.chip.staged) :
    exec (.eventReset id) s = .next { s with chip := (Chip.finishNow s.ctx (s.chip.resetEvent (k.fld 16 2)) k).between } :=
  onOp_just h hk (body := fun x c k => Chip.finishNow x ((c.meetEvent x (k.fld 16 2)).resetEvent (k.fld 16 2)) k)
    (congrArg (fun c => Chip.finishNow s.ctx (Chip.resetEvent c (k.fld 16 2)) k) (meetEvent_good hg)) hs

/-- Settles O14: the page's writes bump or reset an entry and work off its waiters; NOP and EVENT_RESET end at once. -/
theorem eventCommands : Obligations.EventCommands := by
  refine ⟨fun s r i n h hr hv hi hn hg => ⟨fun hm => ⟨fun hb => ⟨?_, fun p pt hirq hlo hhi ho hp => ?_⟩, fun hb => ?_,
    fun w k rest hw hrest hp hirq hk h2 ht hki hc hs hb => ?_⟩, fun hm => ⟨?_, ?_⟩⟩,
    fun s id k h hw => ⟨fun hk h3 => ?_, fun hk hg h3 => ?_, fun hk hg h3 hg' => ?_⟩⟩
  · obtain ⟨keeps, -⟩ := bumpEvent_keeps s.chip i n
    exact ⟨_, exec_evtSignal_blocked hr hv h hi hn hg hm hb, rfl, rfl, rfl,
      looked_reports (bumpEvent_reports s.chip i n) keeps.staged keeps.events s.ctx i⟩
  · obtain ⟨a, v, m, looked⟩ := looked_frame (s.chip.bumpEvent i n).1 s.ctx i
    refine ⟨_, exec_evtSignal_blocked hr hv h hi hn hg hm hb, ?_⟩
    rw [looked]
    exact bumpEvent_raises hirq hlo hhi ho hp
  · exact exec_evtReset_blocked hr hv h hi hg hm hb
  · obtain ⟨d, stepped, begun, waiters⟩ := exec_evtSignal_starts hr hv h hi hn hg hm hw hrest hp hirq hk hki h2 ht hs hb
    have kid : k.id = w := Chip.cmd?_id hk
    subst kid
    obtain ⟨⟨j, hj, began⟩, others⟩ := begun.cmds hk
    have event (m : Nat) := (begun.event m).trans (by rw [Chip.event_putEvent])
    refine ⟨_, stepped, rfl, rfl, rfl, ⟨j, hj, began.phase, began.taken, began.startNs, began.desc⟩, others, ?_, waiters, fun j hj => ?_⟩
    · refine (congrArg Event.count (event i)).trans ?_
      rw [if_pos ⟨hki.symm, h2, ht⟩, if_pos rfl]
      rfl
    · refine (event j).trans ?_
      rw [if_neg (fun hc => hj (hc.1.trans hki)), if_neg (Ne.symm hj)]
  · exact exec_evtSignal_denied hr hv h hi hn hm
  · exact exec_evtReset_denied hr hv h hi hm
  · obtain ⟨staged, ended, event⟩ := finishNow_quiet (x := s.ctx) hw h3
    exact ⟨_, exec_nop h hk staged, rfl, rfl, ended, event⟩
  · obtain ⟨staged, ended, event⟩ := finishNow_quiet (x := s.ctx) (resetEvent_waiters hw (k.fld 16 2)) h3
    have event' (i : Nat) := (event i).trans (resetEvent_event s.chip (k.fld 16 2) i)
    exact ⟨_, exec_eventReset h hk hg staged, rfl, rfl, ended, (event' _).trans (if_pos rfl), fun i hi => (event' i).trans (if_neg hi)⟩
  · obtain ⟨staged, cmds, event⟩ := finishNow_signals (x := s.ctx) (resetEvent_waiters hw (k.fld 16 2)) h3 hg'
    have event' (i : Nat) := (event i).trans (by rw [resetEvent_event s.chip (k.fld 16 2) i])
    exact ⟨_, exec_eventReset h hk hg staged, rfl, rfl, cmds.trans (by rw [Chip.cmd?_id hk.1]; rfl), (event' _).trans (if_pos rfl),
      fun hne => (event' _).trans ((if_neg (Ne.symm hne)).trans (if_pos rfl)), fun j hj hj' => (event' j).trans ((if_neg hj).trans (if_neg hj'))⟩

end Sys2Proof.Machine
end

section
/-! SUPPORT. The tables (R49-R52): activation of a program by a partition whose number is 256 or more, whose key in the table of
banks is then the key of the port allocation table; a port in an entry of that generation keeps the old bank. -/

namespace Sys2Proof.Machine

/-- A partition of function 0. -/
def farPart : Part :=
  { pairs := 1, prio := 0, preempt := false, stopOnFault := false, fn := 0, domain := 0, deadlineUs := 0, watchdogUs := 0
    seed := 0, evtBase := 0, evtCount := 0, spillBase := 0, spillBytes := 0, shares := [], regs := [], levels := [], formedAt := 0 }

/-- The old program and the new one: images of no entry, of generations 1 and 2. -/
def farImage (gen : Nat) : Image := { gen := gen, count := 0, body := [] }

/-- The number the partition is listed at: the scope 16 of the device, moved by the six objects between 0 and 6. -/
def farNumber : Nat := 16 + 6 * 2 ^ 8

/-- TABLE_ACTIVATE of object 0 in slot 0, generation 2, running. -/
def farActivate : Cmd := { id := 1, fn := 0, sq := 0, desc := BitVec.ofNat 512 (0x81 + 2 * 2 ^ 160), arrival := 0, phase := .running }

/-- A chip whose one partition has number 1552, with its program's shadow VALID and a port that is in an entry of generation 1. -/
def farChip : Chip :=
  { parts := [(farNumber, farPart)], cmds := [farActivate]
    tables := [(tableKey 0 farNumber 0, { active := some (farImage 1), shadow := .valid, image := some (farImage 2) })]
    links := { ({} : Chip).links with ports := [(0, { gen := some 1 })] } }

/-- The state after reset with that chip. -/
def farState : State := { State.reset with chip := farChip }

theorem farState_sound : farState.sound := ⟨rfl, rfl, Nat.zero_le _, fun _ hi => by cases hi⟩

theorem farState_calm : farState.calm := ⟨rfl, fun _ he => by cases he⟩

/-- The row of object 0 in the table of R49. -/
def farObject : ObjInfo := { perPart := true, instances := 64, entries := 16384, exact := false, bytes := 16 }

/-- The command runs, may load its object, and its shadow holds the generation it names. -/
theorem farActivate_swaps :
    farChip.runs 1 0x81 farActivate ∧ objInfo (farActivate.fld 16 1) = some farObject ∧ farChip.mayLoad farActivate farObject = true ∧
      farActivate.fld 16 1 = 0 ∧ tableKey (farActivate.fld 16 1) (farChip.scopeOf farActivate farObject) (farActivate.fld 17 1) = tableKey 0 farNumber 0 ∧
      farActivate.fld 20 4 = 2 := by
  unfold Chip.runs
  decide +kernel

/-- The bank of that key, and the only command, which is bound to no generation. -/
theorem farChip_table :
    (farChip.table (tableKey 0 farNumber 0)).shadow = .valid ∧ (farChip.table (tableKey 0 farNumber 0)).image = some (farImage 2) ∧
      ∀ j ∈ farChip.cmds, j.binds = [] := by
  decide +kernel

/-- After the activation the old bank is DRAINING: the port holds it, though no command is bound to it. -/
theorem farActivate_drains :
    nextWith (exec (.tableActivate 1) farState) (fun t => (t.chip.table (tableKey 0 farNumber 0)).shadow = .draining) :=
  ⟨_, rfl, by decide +kernel⟩

/-- Refutes O44: the last clause of TABLE_ACTIVATE fails where a partition has number 1552, as `State.sound` does not forbid. Its
object 0 then has the key of the port allocation table (object 6), and a port that is in an entry of the old generation keeps the old
bank DRAINING (R226), though no command is bound to it. Partitions are numbered
0 to 15 (scope 16 is the device); the statement lacks that premise. -/
theorem not_tableCommands : ¬ Obligations.TableCommands := by
  unfold Obligations.TableCommands
  intro h
  obtain ⟨hruns, hobj, hmay, hid, hkey, hgen⟩ := farActivate_swaps
  obtain ⟨hshadow, himage, hbinds⟩ := farChip_table
  obtain ⟨-, -, -, hact⟩ := h farState 1 Env.quiet farActivate farObject farState_sound farState_calm rfl
  have hswap := hact (farImage 2) hruns hobj hmay
  rw [show farState.chip = farChip from rfl, hkey] at hswap
  obtain ⟨t, ht, -, -, -, -, -, -, hempty⟩ := (hswap hshadow himage).1 hgen.symm
  have hfree : (t.chip.table (tableKey 0 farNumber 0)).shadow = .empty :=
    (hempty (by rw [hid]; decide) fun old _ => fun ⟨j, hj, _, hb⟩ => by simp [hbinds j hj] at hb).1
  obtain ⟨u, hu, hdrain⟩ := farActivate_drains
  obtain rfl : u = t := Host.Outcome.next.inj (hu.symm.trans ht)
  simp [hdrain] at hfree

end Sys2Proof.Machine
end

section
/-! SUPPORT. Bytes written at local addresses, and the memory they leave: a write is cut at every 4 KiB, within which stored
addresses have contiguous keys, so that every stored byte reads back and no other byte changes. -/

namespace Sys2Proof.Machine

/-! ### Keys within a page of 4 KiB -/

/-- An address of R10 or of the model's own stores, where keys follow the addresses. -/
def mapped (a : Nat) : Prop :=
  a < 0xD800000000 ∨ (0x20000000000 ≤ a ∧ a < 0x20060000000) ∨ (0x20800000000 ≤ a ∧ a < 0x2080C000000) ∨
    (0x21000000000 ≤ a ∧ a < 0x2100A000000) ∨ 0x40000000000 ≤ a

/-- An access of R11 stays in its region, whose keys follow the addresses. -/
theorem region_mapped {c : Chip} {a n i : Nat} {r : Region.Kind} (h : c.region a n = some r) (he : r ≠ .event) (hc : r ≠ .control) (hi : i < n) :
    mapped (a + i) := by
  unfold Chip.region scratchAddr wideAddr at h
  unfold mapped
  simp only [Bool.and_eq_true, decide_eq_true_eq] at h
  split_ifs at h
  · omega
  · omega
  · omega
  · omega
  · exact absurd (Option.some.inj h).symm he
  · exact absurd (Option.some.inj h).symm hc
  · omega

theorem stored_mapped {c : Chip} {a n i : Nat} (h : c.stored a n) (hi : i < n) : mapped (a + i) := by
  obtain ⟨r, hr, he, hc⟩ := h
  by_cases hlow : a < 2 ^ 44
  · rw [Chip.store, if_pos hlow] at hr
    exact region_mapped hr he hc hi
  · unfold mapped; omega

/-- Windows are made of whole pages. -/
theorem Window.covers_page (w : Window) {a b : Nat} (h : a / 4096 = b / 4096) : w.covers a = w.covers b := by
  have lower : w.base * 4096 ≤ a ↔ w.base * 4096 ≤ b := by omega
  have upper : a < (w.base + 12 * w.size) * 4096 ↔ b < (w.base + 12 * w.size) * 4096 := by omega
  simp only [Window.covers, lower, upper]

/-- The bytes of a page of HBM are together in one stack (R146, R148). -/
theorem hbmMap_page (c : Chip) {a b : Nat} (h : a / 4096 = b / 4096) :
    ∃ s p, c.hbmMap a = (s, p * 4096 + a % 4096) ∧ c.hbmMap b = (s, p * 4096 + b % 4096) := by
  have same : c.tiers.windows.find? (fun e => e.2.covers a) = c.tiers.windows.find? (fun e => e.2.covers b) := by
    simp only [Window.covers_page _ h]
  unfold Chip.hbmMap hbmInterleave
  rw [same]
  split
  · exact ⟨_, _, rfl, by rw [h]⟩
  · next w _ =>
    have page (m : Nat) : (m - w.base * 4096) / 4096 = m / 4096 - w.base := by omega
    have stack (m : Nat) : (m - w.base * 4096) / (w.size * 4096) = (m / 4096 - w.base) / w.size := by
      rw [mul_comm w.size, ← Nat.div_div_eq_div_mul, page]
    have row (m : Nat) : (m - w.base * 4096) % (w.size * 4096) / 4096 = (m / 4096 - w.base) % w.size := by
      rw [mul_comm w.size, Nat.mod_mul_right_div_self, page]
    exact ⟨_, _, rfl, by simp only [stack, row, h]⟩

/-- Within a page keys are contiguous. -/
theorem Chip.key_page (c : Chip) (fz : Fuses) {a b : Nat} (hm : mapped a) (hab : a ≤ b) (h : a / 4096 = b / 4096) :
    c.key fz b = c.key fz a + (b - a) := by
  have scratch : 0x20000000000 ≤ a → (a - 0x20000000000) / 0x1000000 = (b - 0x20000000000) / 0x1000000 := by omega
  have wide : 0x20800000000 ≤ a → (a - 0x20800000000) / 0x200000 = (b - 0x20800000000) / 0x200000 := by omega
  obtain ⟨s, p, ha, hb⟩ := hbmMap_page c h
  unfold Chip.key
  rw [ha, hb]
  dsimp only
  rcases hm with hm | ⟨lo, hi⟩ | ⟨lo, hi⟩ | ⟨lo, hi⟩ | hm
  · rw [if_pos (by omega), if_pos hm]
    omega
  · rw [if_neg (by omega), if_pos (by omega), if_neg (by omega), if_pos hi, scratch lo]
    omega
  · rw [if_neg (by omega), if_neg (by omega), if_pos (by omega), if_neg (by omega), if_neg (by omega), if_pos hi, wide lo]
    omega
  · rw [if_neg (by omega), if_neg (by omega), if_neg (by omega), if_pos (by omega), if_neg (by omega), if_neg (by omega), if_neg (by omega), if_pos hi]
    omega
  · simp only [show ¬ a < 0xD800000000 by omega, show ¬ a < 0x20060000000 by omega, show ¬ a < 0x2080C000000 by omega,
      show ¬ a < 0x2100A000000 by omega, show ¬ b < 0xD800000000 by omega, show ¬ b < 0x20060000000 by omega,
      show ¬ b < 0x2080C000000 by omega, show ¬ b < 0x2100A000000 by omega, if_false]
    split_ifs <;> omega

/-! ### One run of bytes -/

/-- `t` is `m` with bytes written one by one at the keys of a function: every other key reads as before, and the bytes read back where no
two of them have one key. -/
structure Memory.Puts (m t : Memory) (key : Nat → Nat) (d : List Byte) : Prop where
  kept : ∀ j, (∀ i < d.length, key i ≠ j) → t.byte j = m.byte j
  read : (∀ i < d.length, ∀ j < d.length, key i = key j → i = j) → ∀ i < d.length, t.byte (key i) = d.getD i 0

theorem Memory.Puts.nil (m : Memory) (key : Nat → Nat) : m.Puts m key [] := ⟨fun _ _ => rfl, fun _ _ hi => absurd hi (Nat.not_lt_zero _)⟩

/-- A run written in two parts. -/
theorem Memory.Puts.append {m u t : Memory} {key : Nat → Nat} {d e : List Byte} (hd : m.Puts u key d)
    (he : u.Puts t (fun i => key (d.length + i)) e) : m.Puts t key (d ++ e) where
  kept j h := by
    rw [List.length_append] at h
    exact (he.kept j fun i hi => h _ (by omega)).trans (hd.kept j fun i hi => h i (by omega))
  read inj i hi := by
    rw [List.length_append] at inj hi
    by_cases hlt : i < d.length
    · rw [List.getD_append _ _ _ _ hlt, he.kept _ fun j hj e => absurd (inj _ (by omega) _ hi e) (by omega)]
      exact hd.read (fun a ha b hb => inj a (by omega) b (by omega)) i hlt
    · rw [List.getD_append_right _ _ _ _ (by omega)]
      have := he.read (fun a ha b hb e => by have := inj _ (by omega) _ (by omega) e; omega) (i - d.length) (by omega)
      rwa [Nat.add_sub_cancel' (by omega)] at this

/-- One staged write puts its bytes at consecutive keys. -/
theorem Store.puts_bytes {m : Memory} (h : m.wf = true) {key : Nat → Nat} {d : List Byte} (hk : ∀ i < d.length, key i = key 0 + i) :
    m.Puts ((Store.bytes (key 0) d).apply m) key d where
  kept j hj := by
    rw [Store.byte_bytes h, if_neg]
    rintro ⟨lo, hi⟩
    exact hj (j - key 0) (by omega) (by rw [hk _ (by omega)]; omega)
  read _ i hi := by
    rw [Store.byte_bytes h, hk i hi, if_pos (by omega), Nat.add_sub_cancel_left]

theorem pieces_le {fuel a n : Nat} {pc : Nat × Nat} (h : pc ∈ pieces fuel a n) : a ≤ pc.1 := by
  induction fuel generalizing a n with
  | zero => exact absurd h List.not_mem_nil
  | succ fuel ih =>
    rw [pieces] at h
    split_ifs at h
    · exact absurd h List.not_mem_nil
    · rcases List.mem_cons.mp h with rfl | h
      · exact Nat.le_refl _
      · exact (Nat.le_add_right _ _).trans (ih h)

/-- The writes that bytes at an address are staged as. -/
def Chip.bytesAt (c : Chip) (fz : Fuses) (fuel a : Nat) (d : List Byte) : List Store :=
  (pieces fuel a d.length).map (fun pc => .bytes (c.key fz pc.1) ((d.drop (pc.1 - a)).take pc.2))

theorem bytesAt_nil (c : Chip) (fz : Fuses) (fuel a : Nat) : c.bytesAt fz fuel a [] = [] := by
  cases fuel <;> rfl

/-- The first write goes up to the end of its page, the others write the rest. -/
theorem bytesAt_append (c : Chip) (fz : Fuses) (fuel a : Nat) {d e : List Byte} (hd : d ≠ []) (hl : d.length = min (d ++ e).length (4096 - a % 4096)) :
    c.bytesAt fz (fuel + 1) a (d ++ e) = .bytes (c.key fz a) d :: c.bytesAt fz fuel (a + d.length) e := by
  have hne : (d ++ e).length ≠ 0 := by simp [hd]
  have first : ((d ++ e).drop (a - a)).take d.length = d := by simp
  have rest : (d ++ e).length - d.length = e.length := by simp
  simp only [Chip.bytesAt, pieces, if_neg hne, ← hl, List.map_cons, first, rest]
  congr 1
  refine List.map_congr_left fun pc hpc => ?_
  have := pieces_le hpc
  rw [show pc.1 - a = d.length + (pc.1 - (a + d.length)) by omega, List.drop_length_add_append]

/-- Bytes whose addresses are mapped are put at their keys: the writes go from page to page. -/
theorem bytesAt_puts (c : Chip) (fz : Fuses) {fuel a : Nat} {d : List Byte} {m : Memory} (hw : m.wf = true)
    (hm : ∀ i < d.length, mapped (a + i)) (hf : d.length ≤ 4096 * fuel - a % 4096) :
    m.Puts (m.commit (c.bytesAt fz fuel a d)) (fun i => c.key fz (a + i)) d := by
  induction fuel generalizing a d m with
  | zero =>
    obtain rfl : d = [] := List.length_eq_zero_iff.mp (by omega)
    exact Memory.Puts.nil m _
  | succ fuel ih =>
    by_cases hd : d = []
    · subst hd
      rw [bytesAt_nil]
      exact Memory.Puts.nil m _
    · have pos : 0 < d.length := List.length_pos_iff.mpr hd
      obtain ⟨n, hn⟩ : ∃ n, n = min d.length (4096 - a % 4096) := ⟨_, rfl⟩
      have len : (d.take n).length = n := by simp only [List.length_take]; omega
      have rest : (d.drop n).length = d.length - n := List.length_drop
      have cut := bytesAt_append c fz fuel a (d := d.take n) (e := d.drop n) (fun h => by rw [h] at len; simp at len; omega)
        (by rw [List.take_append_drop, len, hn])
      rw [List.take_append_drop, len] at cut
      have page : m.Puts ((Store.bytes (c.key fz a) (d.take n)).apply m) (fun i => c.key fz (a + i)) (d.take n) :=
        Store.puts_bytes hw (key := fun i => c.key fz (a + i)) fun i hi => by
          have := Chip.key_page c fz (hm 0 pos) (Nat.le_add_right a i) (by omega)
          simpa using this
      have later := ih (a := a + n) (d := d.drop n) (Store.wf_apply hw (.bytes (c.key fz a) (d.take n)))
        (fun i hi => by rw [Nat.add_assoc]; exact hm _ (by omega)) (by omega)
      have both := page.append (e := d.drop n) (by rw [len]; simpa only [Nat.add_assoc] using later)
      rw [List.take_append_drop] at both
      rw [cut]
      exact both

/-! ### Several runs of bytes -/

/-- The writes that bytes at addresses are staged as, run by run. -/
def Chip.stagedOf (c : Chip) (fz : Fuses) (outs : List (Nat × List Byte)) : List Store :=
  outs.flatMap (fun o => c.bytesAt fz (o.2.length / 4096 + 2) o.1 o.2)

theorem stagedOf_append (c : Chip) (fz : Fuses) (outs more : List (Nat × List Byte)) :
    c.stagedOf fz (outs ++ more) = c.stagedOf fz outs ++ c.stagedOf fz more := List.flatMap_append

theorem Memory.commit_append (m : Memory) (ss more : List Store) : m.commit (ss ++ more) = (m.commit ss).commit more := List.foldl_append

/-- No key outside the runs is written. -/
theorem commit_stagedOf_kept {c : Chip} {fz : Fuses} {outs : List (Nat × List Byte)} {m : Memory} {j : Nat} (hw : m.wf = true)
    (hm : ∀ o ∈ outs, ∀ i < o.2.length, mapped (o.1 + i)) (hj : ∀ o ∈ outs, ∀ i < o.2.length, c.key fz (o.1 + i) ≠ j) :
    (m.commit (c.stagedOf fz outs)).byte j = m.byte j := by
  induction outs generalizing m with
  | nil => rfl
  | cons o outs ih =>
    have first := bytesAt_puts c fz (fuel := o.2.length / 4096 + 2) hw (hm o List.mem_cons_self) (by omega)
    rw [Chip.stagedOf, List.flatMap_cons, Memory.commit_append]
    refine (ih (Memory.wf_commit hw _) (fun q hq => hm q (List.mem_cons_of_mem _ hq)) fun q hq => hj q (List.mem_cons_of_mem _ hq)).trans ?_
    exact first.kept j (hj o List.mem_cons_self)

/-- Runs without a common byte read back as they were stored. -/
theorem commit_stagedOf_read {c : Chip} {fz : Fuses} {outs : List (Nat × List Byte)} {m : Memory} (hw : m.wf = true)
    (hm : ∀ o ∈ outs, ∀ i < o.2.length, mapped (o.1 + i)) (hs : c.separate fz (runsOf outs)) :
    ∀ o ∈ outs, ∀ i < o.2.length, (m.commit (c.stagedOf fz outs)).byte (c.key fz (o.1 + i)) = o.2.getD i 0 := by
  induction outs generalizing m with
  | nil => exact fun _ h => absurd h List.not_mem_nil
  | cons o outs ih =>
    obtain ⟨apart, inner⟩ := hs
    rw [runsOf, List.map_cons, List.pairwise_cons] at apart
    obtain ⟨head, tail⟩ := apart
    have later := fun q hq => hm q (List.mem_cons_of_mem _ hq)
    rw [Chip.stagedOf, List.flatMap_cons, Memory.commit_append]
    intro q hq
    rcases List.mem_cons.mp hq with rfl | hq
    · intro i hi
      have first := bytesAt_puts c fz (fuel := q.2.length / 4096 + 2) hw (hm q List.mem_cons_self) (by omega)
      refine (commit_stagedOf_kept (Memory.wf_commit hw _) later fun p hp l hl => ?_).trans ?_
      · exact Ne.symm (head (p.1, p.2.length) (List.mem_map.mpr ⟨p, hp, rfl⟩) i hi l hl)
      · exact first.read (inner (q.1, q.2.length) List.mem_cons_self) i hi
    · exact ih (Memory.wf_commit hw _) later ⟨tail, fun r hr => inner r (List.mem_cons_of_mem _ hr)⟩ q hq

/-- Memory in which a step's staged runs have been committed is memory with these runs stored. -/
theorem State.stores_commit {s t : State} (h : s.sound) {outs : List (Nat × List Byte)} (hm : t.mem = s.mem.commit (s.chip.stagedOf s.fuse outs)) :
    s.stores t outs [] := by
  intro stored
  have mapped : ∀ o ∈ outs, ∀ i < o.2.length, mapped (o.1 + i) := fun o ho i hi =>
    stored_mapped (stored (o.1, o.2.length) (List.mem_map.mpr ⟨o, ho, rfl⟩) (by omega)) hi
  rw [hm]
  refine ⟨fun j hj => commit_stagedOf_kept h.1 mapped fun o ho i hi e => hj ?_, fun separate => commit_stagedOf_read h.1 mapped separate⟩
  exact ⟨(o.1, o.2.length), List.mem_append_left _ (List.mem_map.mpr ⟨o, ho, rfl⟩), i, hi, e⟩

end Sys2Proof.Machine
end

section
/-! SUPPORT. What the commands of the arrays and vector units do to the chip: they write bytes at local addresses, report, open rows
and drop residency entries. -/

namespace Sys2Proof.Machine

/-! ### Writing and reporting -/

/-- The chip without what reads, writes and reports change. -/
def Chip.bare (c : Chip) : Chip := { c.quiet with tiers := { c.tiers with resid := [], units := [] } }

/-- `d` is `c` but for reports, residency entries, open rows and what is staged. -/
structure Chip.Alike (c d : Chip) : Prop where
  bare : d.bare = c.bare
  kept : ∀ f, (d.hdr f).kept = (c.hdr f).kept

/-- No page has a perturbation armed (R417). -/
def Chip.idlePages (c : Chip) : Prop := ∀ f, (c.hdr f).pert.ctrl.getLsbD 31 = false

/-- With none armed, no non-finite value is injected (R417). -/
theorem nfInject_off {c : Chip} (h : c.idlePages) (pg : Page) (k : Cmd) (total : Nat) : c.nfInject pg k total = none := by
  have off (q : Option Nat) : (c.hdr pg.frame).pert.armed 5 q = false := by
    rw [Pert.armed, h, Bool.false_and, Bool.false_and, Bool.false_and]
  rw [Chip.nfInject]
  simp only [off, Bool.false_and, if_neg Bool.false_ne_true]

namespace Chip.Alike

variable {c d e : Chip}

theorem refl (c : Chip) : c.Alike c := ⟨rfl, fun _ => rfl⟩

theorem trans (h : c.Alike d) (k : d.Alike e) : c.Alike e := ⟨k.bare.trans h.bare, fun f => (k.kept f).trans (h.kept f)⟩

/-- What `bare` keeps is the same. -/
theorem same {α : Type} (h : c.Alike d) (f : Chip → α) (hf : ∀ b, f b.bare = f b) : f d = f c := by rw [← hf d, h.bare, hf c]

theorem of_reports (h : Chip.reports c d) : c.Alike d :=
  ⟨(congrArg Chip.bare h.1 :), h.2.1⟩

theorem stage (c : Chip) (st : Store) : c.Alike (c.stage st) := ⟨rfl, fun _ => rfl⟩

theorem hbmMap (h : c.Alike d) (a : Nat) : d.hbmMap a = c.hbmMap a := by
  rw [Chip.hbmMap, h.same (fun b => b.tiers.windows) fun _ => rfl, Chip.hbmMap]

theorem key (h : c.Alike d) (fz : Fuses) (a : Nat) : d.key fz a = c.key fz a := by rw [Chip.key, h.hbmMap, Chip.key]

theorem rd (h : c.Alike d) (x : Ctx) : d.rd x = c.rd x := funext fun a => by rw [Chip.rd, h.key, Chip.rd]

theorem table (h : c.Alike d) (key : Nat) : d.table key = c.table key := by rw [Chip.table, h.same Chip.tables fun _ => rfl, Chip.table]

theorem fmt (h : c.Alike d) (k : Cmd) (p code : Nat) : d.fmt k p code = c.fmt k p code := by
  simp only [Chip.fmt, Chip.imageFor, Chip.imageGen, Chip.active, h.table]

theorem stagedOf (h : c.Alike d) (fz : Fuses) (outs : List (Nat × List Byte)) : d.stagedOf fz outs = c.stagedOf fz outs := by
  simp only [Chip.stagedOf, Chip.bytesAt, h.key]

theorem idlePages (h : c.Alike d) (hu : c.idlePages) : d.idlePages := fun f =>
  (congrArg (fun b : Header => b.pert.ctrl.getLsbD 31) (h.kept f)).trans (hu f)

end Chip.Alike

/-- `d` is `c` with bytes staged at local addresses, but for what writing and reporting change. -/
structure Chip.Outputs (fz : Fuses) (c d : Chip) (outs : List (Nat × List Byte)) : Prop extends Chip.Alike c d where
  staged : d.staged = c.staged ++ c.stagedOf fz outs

namespace Chip.Outputs

variable {fz : Fuses} {c d e : Chip} {outs more : List (Nat × List Byte)}

theorem of_alike (h : c.Alike d) (hs : d.staged = c.staged) : Chip.Outputs fz c d [] := ⟨h, hs.trans (List.append_nil _).symm⟩

theorem refl (fz : Fuses) (c : Chip) : Chip.Outputs fz c c [] := of_alike (.refl c) rfl

theorem of_reports (h : Chip.reports c d) (hs : d.staged = c.staged) : Chip.Outputs fz c d [] := of_alike (.of_reports h) hs

theorem trans (h : Chip.Outputs fz c d outs) (k : Chip.Outputs fz d e more) : Chip.Outputs fz c e (outs ++ more) where
  toAlike := h.toAlike.trans k.toAlike
  staged := by rw [k.staged, h.staged, h.toAlike.stagedOf, stagedOf_append, List.append_assoc]

/-- What only reports after writing adds no bytes. -/
theorem then_quiet (h : Chip.Outputs fz c d outs) (k : Chip.Outputs fz d e []) : Chip.Outputs fz c e outs := by
  simpa using h.trans k

theorem count (c : Chip) (f n k : Nat) : Chip.Outputs fz c (c.count f n k) [] := of_reports (count_reports c f n k) (count_staged c f n k)

theorem fire (c : Chip) (f src : Nat) : Chip.Outputs fz c (c.fire f src) [] := of_reports (fire_reports c f src) (fire_staged c f src)

/-- Keep buffers set on both sides. -/
theorem setKeeps (h : Chip.Outputs fz c d outs) (t : Tab Keep) : Chip.Outputs fz { c with keeps := t } { d with keeps := t } outs :=
  ⟨⟨congrArg (fun b : Chip => { b with keeps := t }) h.bare, h.kept⟩, h.staged⟩

/-- Partitions set on both sides. -/
theorem setParts (h : Chip.Outputs fz c d outs) (t : Tab Part) : Chip.Outputs fz { c with parts := t } { d with parts := t } outs :=
  ⟨⟨congrArg (fun b : Chip => { b with parts := t }) h.bare, h.kept⟩, h.staged⟩

/-- A write stages its bytes. -/
theorem wr (c : Chip) (x : Ctx) (a : Nat) (d : List Byte) : Chip.Outputs x.fuse c (c.wr x a d) [(a, d)] := by
  obtain ⟨r, hr⟩ := Chip.dropResid_chip c a d.length
  have stages (l : List (Nat × Nat)) (e : Chip) (he : c.Alike e) :
      (l.foldl (fun c pc => c.stage (.bytes (c.key x.fuse pc.1) ((d.drop (pc.1 - a)).take pc.2))) e).staged =
        e.staged ++ l.map (fun pc => .bytes (c.key x.fuse pc.1) ((d.drop (pc.1 - a)).take pc.2)) := by
    induction l generalizing e with
    | nil => exact (List.append_nil _).symm
    | cons p l ih =>
      rw [List.foldl_cons, ih _ (he.trans (.stage e _)), he.key, List.map_cons]
      exact List.append_assoc _ _ _
  have dropped : c.Alike (c.dropResid a d.length) := by rw [hr]; exact ⟨rfl, fun _ => rfl⟩
  have same := Chip.wr_chip c x a d
  refine ⟨⟨?_, fun f => ?_⟩, ?_⟩
  · exact (congrArg Chip.bare same).trans dropped.bare
  · exact (congrArg (fun b : Chip => (b.hdr f).kept) same).trans (dropped.kept f)
  · rw [Chip.wr, stages _ _ dropped, hr]
    simp [Chip.stagedOf, Chip.bytesAt]

theorem putTier (c : Chip) (u : Nat) (t : Tier) : Chip.Outputs fz c (c.putTier u t) [] := of_alike ⟨rfl, fun _ => rfl⟩ rfl

theorem tierLine (c : Chip) (a : Nat) (write : Bool) : Chip.Outputs fz c (c.tierLine a write) [] := by
  unfold Chip.tierLine
  split
  · exact (putTier c _ _).trans ((count _ _ _ _).trans (count _ _ _ _))
  · exact refl fz c

/-- Steps that each write some bytes write them all, in order. -/
theorem foldl {α : Type} {g : Chip → α → Chip} {out : α → List (Nat × List Byte)} (hg : ∀ c a, Chip.Outputs fz c (g c a) (out a))
    (l : List α) (c : Chip) : Chip.Outputs fz c (l.foldl g c) (l.flatMap out) := by
  induction l generalizing c with
  | nil => exact refl fz c
  | cons a l ih => exact (hg c a).trans (ih _)

/-- Steps that write nothing write nothing together. -/
theorem quiets {α : Type} {g : Chip → α → Chip} (hg : ∀ c a, Chip.Outputs fz c (g c a) []) (l : List α) (c : Chip) :
    Chip.Outputs fz c (l.foldl g c) [] := by
  have := foldl (out := fun _ => []) hg l c
  rwa [show l.flatMap (fun _ => []) = ([] : List (Nat × List Byte)) by simp] at this

theorem tierReads (c : Chip) (runs : List (Nat × Nat)) : Chip.Outputs fz c (c.tierReads runs) [] := quiets (fun c a => tierLine c a false) _ c

/-- Counters of refused requests aside, a command that meets no upset finds the chip as it is. -/
theorem meets (c : Chip) (x : Ctx) {env : Env} (h : env.upsets = []) (k : Cmd) : Chip.Outputs fz c (c.meets x env k) [] := by
  have unset : Chip.Outputs fz c (c.upset x env.upsets) [] := of_alike ⟨rfl, fun _ => rfl⟩ (by rw [h]; exact List.append_nil _)
  exact unset.trans (quiets (fun c b => (count c _ _ _).trans (count _ _ _ _)) _ _)

theorem unitCounts (c : Chip) (f two beats : Nat) (env : Env) (products gated replays : Nat) :
    Chip.Outputs fz c (c.unitCounts f two beats env products gated replays) [] :=
  ((((count c _ _ _).trans (count _ _ _ _)).trans (count _ _ _ _)).trans (count _ _ _ _)).trans ((count _ _ _ _).trans (count _ _ _ _))

theorem arrayCounts (c : Chip) (f two beats : Nat) (env : Env) (gate : Bool) (formed real : Nat) (again : Nat × Nat) (outs : List MmOut) :
    Chip.Outputs fz c (c.arrayCounts f two beats env gate formed real again outs) [] := by
  unfold Chip.arrayCounts
  dsimp only
  split
  · exact (unitCounts _ _ _ _ _ _ _ _).trans (fire _ _ _)
  · exact unitCounts _ _ _ _ _ _ _ _

end Chip.Outputs

theorem upset_none (x : Ctx) : x.upset [] = x := rfl

end Sys2Proof.Machine
end

section
/-! SUPPORT. The array commands (chapters 04, 05): ARRAY_MM and ARRAY_EW write their outputs, and the statement about them. -/

namespace Sys2Proof.Machine

/-! ### Folds over the units of a command -/

/-- What holds of nothing and is kept by each element holds of a whole fold. -/
theorem foldl_invariant {α β : Type} {g : β → α → β} (P : List α → β → Prop) {b : β} (h0 : P [] b)
    (hg : ∀ l a acc, P l acc → P (l ++ [a]) (g acc a)) (l : List α) : P l (l.foldl g b) := by
  induction l using List.reverseRecOn with
  | nil => exact h0
  | append_singleton l a ih => rw [List.foldl_append]; exact hg l a _ ih

/-! ### The end of a running command -/

/-- A command's outcome after its outputs: what it stages, and what it leaves of the rest. -/
theorem Chip.Alike.settles {c d : Chip} (h : c.Alike d) {id : Nat} {k j : Cmd} (hk : c.cmd? id = some k) (hj : j.id = id) (status detail : Nat) :
    c.settles (d.endCmd j status detail) id status detail := by
  have cmds : d.cmds = c.cmds := h.same Chip.cmds fun _ => rfl
  obtain ⟨ended, others, events, sqs, cqs, tables⟩ := endCmd_settles (c := d) ((Chip.cmd?_congr cmds id).trans hk) j hj status detail
  exact ⟨ended, others.trans (by rw [cmds]), events.trans (h.same Chip.events fun _ => rfl), sqs.trans (h.same Chip.sqs fun _ => rfl),
    cqs.trans (h.same Chip.cqs fun _ => rfl), tables.trans (h.same Chip.tables fun _ => rfl)⟩

/-- The end of a command changes the list of commands only. -/
theorem Chip.Alike.ended {c d : Chip} (h : c.Alike d) (j : Cmd) (status detail : Nat) :
    Chip.Alike { c with cmds := (d.endCmd j status detail).cmds } (d.endCmd j status detail).between :=
  ⟨congrArg (fun b : Chip => { b with cmds := (d.endCmd j status detail).cmds }) h.bare, h.kept⟩

/-- A running command's step, where nothing of the outside world interferes: its staged writes are stored. -/
theorem onOp_calm {s : State} (h : s.sound) (hc : s.calm) {id op : Nat} {k : Cmd} (hk : s.chip.runs id op k) {body : Ctx → Chip → Cmd → Chip}
    (p : State → Prop) : nextWith (onOp id op body s) p ↔ p
      { chip := (body s.ctx s.chip k).between, mem := s.mem.commit (body s.ctx s.chip k).staged, fuse := s.fuse, pending := s.pending } := by
  rw [onOp, onStep_calm _ _ _ _ (State.calm_ecc hc), State.sound_staged h, runOp_runs _ hk]

/-- A running command that has written its outputs ends with SUCCESS and they are stored; keep buffers and partitions may have changed
beside. -/
theorem onOp_outputs {s : State} (h : s.sound) (hc : s.calm) {id op : Nat} {k : Cmd} (hk : s.chip.runs id op k) {body : Ctx → Chip → Cmd → Chip}
    {d : Chip} {a : Acct} {ks : Tab Keep} {ps : Tab Part} {outs : List (Nat × List Byte)} (he : body s.ctx s.chip k = d.endCmd { k with acct := a } 0 0)
    (ho : Chip.Outputs s.fuse { s.chip with keeps := ks, parts := ps } d outs) :
    nextWith (onOp id op body s) (fun t => t.fuse = s.fuse ∧ t.pending = s.pending ∧ s.chip.settles t.chip id 0 0 ∧ s.stores t outs [] ∧
      Chip.Alike { s.chip with keeps := ks, parts := ps, cmds := t.chip.cmds } t.chip ∧
      t.chip.cmd? id = some { k with acct := a, phase := .ended, status := 0, detail := 0 }) := by
  have number : k.id = id := Chip.cmd?_id hk.1
  have running : d.cmd? id = some k := (Chip.cmd?_congr (ho.toAlike.same Chip.cmds fun _ => rfl) id).trans hk.1
  refine (onOp_calm h hc hk _).mpr ?_
  rw [he]
  refine ⟨rfl, rfl, ho.toAlike.settles hk.1 (j := { k with acct := a }) number 0 0, State.stores_commit h ?_,
    ho.toAlike.ended { k with acct := a } 0 0,
    Chip.cmd?_putCmd running (j := { k with acct := a, phase := .ended, status := 0, detail := 0 }) number⟩
  exact congrArg s.mem.commit (ho.staged.trans (congrArg (· ++ _) (State.sound_unstaged h)))

/-! ### ARRAY_MM -/

/-- The rows of C that a share writes, each with its scales for an MX format (R86, R116). -/
def Chip.mmRows (c : Chip) (p : Nat) (k : Cmd) (sh : MmShare) (outs : List (List MmOut)) : List (Nat × List Byte) :=
  let o := c.fmt k p (k.fld 18 1 % 16)
  (List.range sh.nc).flatMap (fun n =>
    let row := outs.getD n []
    let e := encodeRow o (row.map (fun q => q.val))
    let data := if o.code = 11 then (row.map (fun q => leBytes 4 q.word)).flatten else e.1
    let scales := if o.code = 11 then [] else e.2.1
    (storeBase sh.unit + k.fld 40 4 + 64 * k.fld 60 2 * n, data) ::
      (if o.isMx then [(storeBase sh.unit + k.fld 52 4 + n * (sh.mc / 32), scales)] else []))

theorem getD_map_range {α : Type} (f : Nat → α) {m n : Nat} (h : n < m) (d : α) : ((List.range m).map f).getD n d = f n := by
  simp [h]

theorem mmRows_alike {c d : Chip} (h : c.Alike d) (p : Nat) (k : Cmd) (sh : MmShare) (outs : List (List MmOut)) :
    d.mmRows p k sh outs = c.mmRows p k sh outs := by
  simp only [Chip.mmRows, h.fmt]

/-- Good lines of a keep buffer written anew stay as they are. -/
theorem keepNew_good (c : Chip) {x : Ctx} (h : x.mem.lines = []) (u : Nat) (k : Keep) : c.keepNew x u k = { c with keeps := tabSet c.keeps u k } := by
  rw [Chip.keepNew, Chip.coverIn, Chip.badIn, h]
  rfl

/-- A share writes its rows; its keep buffer aside, it only counts. -/
theorem mmShareCommit_outputs {c : Chip} (hu : c.idlePages) {x : Ctx} (hl : x.mem.lines = []) (p : Nat) (k : Cmd) (env : Env)
    (sh : MmShare) (outs : List (List MmOut)) :
    ∃ ks, Chip.Outputs x.fuse { c with keeps := ks } (c.mmShareCommit x p k env sh outs).1 (c.mmRows p k sh outs) := by
  unfold Chip.mmShareCommit
  extract_lets b f o w xf kk flow half vh l all inj enc written bytes kp base tiles reps two beats pall acct cols counted marked kept
  have none_injected : inj = none := nfInject_off hu _ _ _
  have rows : Chip.Outputs x.fuse c written (c.mmRows p k sh outs) := by
    rw [show c.mmRows p k sh outs = (List.range sh.nc).flatMap (fun n =>
        (b + k.fld 40 4 + 64 * k.fld 60 2 * n, (enc.getD n ([], [], false)).1) ::
          (if o.isMx then [(b + k.fld 52 4 + n * (sh.mc / 32), (enc.getD n ([], [], false)).2.1)] else [])) from
      List.flatMap_congr fun n hn => by
        rw [show enc.getD n ([], [], false) = _ from getD_map_range _ (List.mem_range.mp hn) _, none_injected]
        dsimp only [injectAt]
        split <;> rfl]
    refine .foldl (fun e n => ?_) _ c
    dsimp only
    split
    · exact (Chip.Outputs.wr e x _ _).trans (.wr _ x _ _)
    · exact .wr e x _ _
  have reported : Chip.Outputs x.fuse written counted [] := .arrayCounts _ _ _ _ _ _ _ _ _ _
  have unmarked : marked = counted := by rw [show marked = counted.nfDone _ inj from rfl, none_injected]; rfl
  have buffer : ∃ ks, kept = { counted with keeps := ks } := by
    dsimp only [kept]
    rw [unmarked]
    split_ifs
    · exact ⟨counted.keeps, rfl⟩
    · exact ⟨_, keepNew_good counted hl _ _⟩
    · exact ⟨_, rfl⟩
  obtain ⟨ks, hks⟩ := buffer
  refine ⟨ks, ?_⟩
  dsimp only
  rw [hks]
  exact (rows.then_quiet reported).setKeeps ks

theorem mmOuts_alike {c d : Chip} (h : c.Alike d) (x : Ctx) (p : Nat) (k : Cmd) (sh : MmShare) : d.mmOuts x p k sh = c.mmOuts x p k sh := by
  have keeps : d.keeps = c.keeps := h.same Chip.keeps fun _ => rfl
  simp only [Chip.mmOuts, h.fmt, h.rd, keeps]

theorem mmShares_alike {c d : Chip} (h : c.Alike d) (x : Ctx) (p : Nat) (k : Cmd) : d.mmShares x p k = c.mmShares x p k := by
  simp only [Chip.mmShares, h.fmt]

theorem clearKeepLost_parts (c : Chip) (p : Nat) (k : Cmd) : ∃ ps, c.clearKeepLost p k = { c with parts := ps } := by
  rw [Chip.clearKeepLost]
  split_ifs
  · exact ⟨c.parts, rfl⟩
  · exact ⟨_, rfl⟩

/-- `d` is `c` after some shares, each with its outputs, have written their rows; the keep buffers aside. -/
def Chip.mmWrote (c : Chip) (x : Ctx) (p : Nat) (k : Cmd) (front : List (MmShare × List (List MmOut))) (d : Chip) : Prop :=
  ∃ ks, Chip.Outputs x.fuse { c with keeps := ks } d (front.flatMap (fun so => c.mmRows p k so.1 so.2))

/-- The next share writes its rows after those. -/
theorem Chip.mmWrote.share {c d : Chip} {x : Ctx} {p : Nat} {k : Cmd} {front : List (MmShare × List (List MmOut))} (h : c.mmWrote x p k front d)
    (hu : c.idlePages) (hl : x.mem.lines = []) (env : Env) (so : MmShare × List (List MmOut)) :
    c.mmWrote x p k (front ++ [so]) (d.mmShareCommit x p k env so.1 so.2).1 := by
  obtain ⟨ks, before⟩ := h
  obtain ⟨ks', rows⟩ := mmShareCommit_outputs (before.toAlike.idlePages hu) hl p k env so.1 so.2
  refine ⟨ks', ?_⟩
  rw [List.flatMap_append, List.flatMap_singleton]
  rw [mmRows_alike before.toAlike] at rows
  exact (before.setKeeps ks').trans rows

/-- ARRAY_MM writes the rows of its shares and ends. -/
theorem arrayMm_outputs {c : Chip} (hu : c.idlePages) {x : Ctx} (hl : x.mem.lines = []) (he : x.ecc = []) {env : Env} (hn : env.upsets = []) (k : Cmd) :
    ∃ ks ps d a, Chip.arrayMm x env c k = d.endCmd { k with acct := a } 0 0 ∧
      Chip.Outputs x.fuse { c with keeps := ks, parts := ps } d
        ((c.mmShares x (c.own k) k).flatMap (fun sh => c.mmRows (c.own k) k sh (c.mmOuts x (c.own k) k sh))) := by
  unfold Chip.arrayMm
  rw [hn, upset_none]
  extract_lets p met y shares writes reads outs res
  have found : Chip.Outputs x.fuse c met [] := .meets c x hn k
  have good : reads = (met.tierReads _, none) := readRuns_good _ _ _ _ hl he
  have pairs : shares.zip outs = (c.mmShares x p k).map (fun sh => (sh, c.mmOuts x p k sh)) := by
    rw [show shares.zip outs = shares.zip (shares.map (met.mmOuts x p k)) from rfl, ← List.map_prod_left_eq_zip,
      show shares = c.mmShares x p k from mmShares_alike found.toAlike x p k]
    simp only [mmOuts_alike found.toAlike]
  have committed : c.mmWrote x p k (shares.zip outs) res.1 := by
    refine foldl_invariant (fun front (acc : Chip × Acct) => c.mmWrote x p k front acc.1) ?_ (fun front so (acc : Chip × Acct) ih => ?_) _
    · dsimp only
      rw [coverRuns_good y writes _ hl, good]
      exact ⟨c.keeps, found.then_quiet (.tierReads met _)⟩
    · exact ih.share hu hl _ so
  obtain ⟨ks, hks⟩ := committed
  obtain ⟨ps, hps⟩ := clearKeepLost_parts res.1 p k
  rw [pairs, List.flatMap_map] at hks
  rw [good]
  exact ⟨ks, ps, _, _, rfl, hps ▸ hks.setParts ps⟩

/-! ### ARRAY_EW -/

/-- Element i of a unit's result: the product, or the product and the addend, with one rounding (R94). -/
def Chip.ewValue (c : Chip) (x : Ctx) (k : Cmd) (u i : Nat) : Val :=
  let elem (code off scale : Nat) : Val := rowElem (c.fmt k (c.own k) code) (c.rd x) (storeBase u + k.fld off 4) (storeBase u + k.fld scale 4) i
  let ab := (elem (k.fld 17 1 % 16) 28 44).mul (elem (k.fld 17 1 / 16) 32 48)
  (if k.fld 16 1 = 1 then ab.add (elem (k.fld 18 1 / 16) 36 52) else ab).scale (k.sfld 20)

/-- A unit's result as its format encodes it. -/
def Chip.ewRow (c : Chip) (x : Ctx) (k : Cmd) (u : Nat) : List Byte × List Byte × Bool :=
  encodeRow (c.fmt k (c.own k) (k.fld 18 1 % 16)) ((List.range (k.fld 24 4)).map (c.ewValue x k u))

/-- What a unit writes: D, with its scales for an MX format. -/
def Chip.ewOuts (c : Chip) (x : Ctx) (k : Cmd) (u : Nat) : List (Nat × List Byte) :=
  (storeBase u + k.fld 40 4, (c.ewRow x k u).1) ::
    (if (c.fmt k (c.own k) (k.fld 18 1 % 16)).isMx then [(storeBase u + k.fld 56 4, (c.ewRow x k u).2.1)] else [])

/-- The beats of a unit (R95), its freezes among them. -/
def Chip.ewBeats (c : Chip) (x : Ctx) (env : Env) (k : Cmd) (u : Nat) : Nat :=
  ceilDiv (2 * k.fld 24 4) (128 * (if k.fld 19 1 = 2 then 2 else 1) * vHalves (c.fmt k (c.own k) (k.fld 17 1 % 16)) (c.fmt k (c.own k) (k.fld 17 1 / 16))) + 255 +
    ceilDiv ((c.ewRow x k u).1.length + (if (c.fmt k (c.own k) (k.fld 18 1 % 16)).isMx then (c.ewRow x k u).2.1.length else 0)) 4096 +
    (k.unitEnv env u).feed + (k.unitEnv env u).drain

/-- A row of a format without blocks has no scales. -/
theorem encodeRow_scales {f : Fmt} (h : f.isMx = false) (xs : List Val) : (encodeRow f xs).2.1 = [] := by
  rw [encodeRow, h]
  rfl

/-- ARRAY_EW writes the results of its units and ends, with the beats of them all. -/
theorem arrayEw_outputs {c : Chip} (hu : c.idlePages) {x : Ctx} (hl : x.mem.lines = []) (he : x.ecc = []) {env : Env} (hn : env.upsets = []) (k : Cmd) :
    ∃ d a, Chip.arrayEw x env c k = d.endCmd { k with acct := a } 0 0 ∧ Chip.Outputs x.fuse c d (k.units.flatMap (c.ewOuts x k)) ∧
      a.beats = k.acct.beats + (k.units.map (c.ewBeats x env k)).sum := by
  unfold Chip.arrayEw
  rw [hn, upset_none]
  extract_lets p met y len add arrays a b o cf us runs outs
  have found : Chip.Outputs x.fuse c met [] := .meets c x hn k
  have ready := found.then_quiet (.tierReads met (us.flatMap runs ++ partRuns (us.flatMap outs)))
  rw [afterIo_good _ _ _ _ _ _ _ hl he]
  extract_lets rd res
  have sameReads : rd = c.rd x := ready.toAlike.rd x
  have formatA : a = c.fmt k (c.own k) (k.fld 17 1 % 16) := found.toAlike.fmt k p _
  have formatB : b = c.fmt k (c.own k) (k.fld 17 1 / 16) := found.toAlike.fmt k p _
  have formatD : o = c.fmt k (c.own k) (k.fld 18 1 % 16) := found.toAlike.fmt k p _
  have formatC : cf = c.fmt k (c.own k) (k.fld 18 1 / 16) := found.toAlike.fmt k p _
  have committed : Chip.Outputs x.fuse c res.1 (us.flatMap (c.ewOuts x k)) ∧ res.2.beats = (us.map (c.ewBeats x env k)).sum := by
    refine foldl_invariant (fun front (acc : Chip × Acct) => Chip.Outputs x.fuse c acc.1 (front.flatMap (c.ewOuts x k)) ∧
      acc.2.beats = (front.map (c.ewBeats x env k)).sum) ⟨ready, rfl⟩ (fun front u acc ih => ?_) us
    obtain ⟨written, beats⟩ := ih
    extract_lets s pg env' vals inj e row scales counted bytes beats' gated done
    have none_injected : inj = none := nfInject_off (written.toAlike.idlePages hu) _ _ _
    have values : vals.map (fun v => v.1.scale (k.sfld 20)) = (List.range len).map (c.ewValue x k u) := by
      rw [List.map_map]
      refine List.map_congr_left fun i _ => ?_
      dsimp only [Function.comp]
      rw [formatA, formatB, formatC, sameReads]
      rfl
    have encoded : e = c.ewRow x k u := by
      rw [show e = encodeRow o (injectAt inj len 0 (vals.map (fun v => v.1.scale (k.sfld 20)))) from rfl, none_injected, values, formatD]
      rfl
    have outputs : Chip.Outputs x.fuse acc.1 scales (c.ewOuts x k u) := by
      rw [Chip.ewOuts, ← encoded, ← formatD]
      dsimp only [scales]
      split
      · exact (Chip.Outputs.wr acc.1 x _ _).trans (.wr row x _ _)
      · exact .wr acc.1 x _ _
    have unmarked : counted = scales := by rw [show counted = scales.nfDone _ inj from rfl, none_injected]; rfl
    have size : bytes = (c.ewRow x k u).1.length + (if o.isMx then (c.ewRow x k u).2.1.length else 0) := by
      rw [← encoded]
      split
      · rfl
      · next hmx => exact congrArg (e.1.length + List.length ·) (encodeRow_scales (Bool.eq_false_iff.mpr hmx) _)
    have spent : beats' + env'.feed + env'.drain = c.ewBeats x env k u := by
      rw [Chip.ewBeats, ← formatA, ← formatB, ← formatD, ← size]
    refine ⟨?_, ?_⟩
    · rw [List.flatMap_append, List.flatMap_singleton]
      exact written.trans (outputs.then_quiet (unmarked ▸ .unitCounts counted _ _ _ _ _ _ _))
    · rw [List.map_append, List.sum_append, List.map_singleton, List.sum_singleton, ← beats, ← spent]
      rfl
  exact ⟨_, _, rfl, committed.1, congrArg (k.acct.beats + ·) committed.2⟩

/-! ### The statement -/

/-- Settles O23: a share of ARRAY_MM and a unit of ARRAY_EW each stage what they write and only report beside it; the staged runs are then
stored, and the beats of the units are added. -/
theorem arrayCommands : Obligations.ArrayCommands := by
  refine ⟨fun s id env k h hc hn hk => ?_, fun s id env k h hc hn hk => ?_⟩
  · obtain ⟨ks, ps, d, a, ended, outputs⟩ := arrayMm_outputs (Chip.unarmed_hdr hc.2) (x := s.ctx) hc.1 (State.calm_ecc hc) hn k
    obtain ⟨t, step, fuse, pending, settled, stored, alike, -⟩ := onOp_outputs h hc hk (body := fun x => Chip.arrayMm x env) ended outputs
    exact ⟨t, step, fuse, pending, settled, stored, alike.same Chip.regs fun _ => rfl, alike.same Chip.gates fun _ => rfl,
      alike.same (fun b => { b.tiers with resid := [], units := [] }) fun _ => rfl⟩
  · obtain ⟨d, a, ended, outputs, beats⟩ := arrayEw_outputs (Chip.unarmed_hdr hc.2) (x := s.ctx) hc.1 (State.calm_ecc hc) hn k
    obtain ⟨t, step, fuse, pending, settled, stored, alike, found⟩ := onOp_outputs h hc hk (body := fun x => Chip.arrayEw x env)
      (ks := s.chip.keeps) (ps := s.chip.parts) ended outputs
    refine ⟨t, step, fuse, pending, settled, stored, alike.same Chip.regs fun _ => rfl, alike.same Chip.keeps fun _ => rfl,
      alike.same (fun b => { b.tiers with resid := [], units := [] }) fun _ => rfl, alike.same Chip.parts fun _ => rfl, fun j hj => ?_⟩
    obtain rfl := Option.some.inj (found.symm.trans hj)
    exact beats

end Sys2Proof.Machine
end

section
/-! SUPPORT. The vector commands (R121-R123, R199-R203): VEC_ACT, VEC_DACT and VEC_ARGMAX write their results, and the statement about
them. -/

namespace Sys2Proof.Machine

theorem Chip.Alike.imageFor {c d : Chip} (h : c.Alike d) (k : Cmd) (key : Nat) : d.imageFor k key = c.imageFor k key := by
  simp only [Chip.imageFor, Chip.imageGen, Chip.active, h.table]

theorem Chip.Alike.rdBytes {c d : Chip} (h : c.Alike d) (x : Ctx) (a n : Nat) : d.rdBytes x a n = c.rdBytes x a n := by
  rw [Chip.rdBytes, h.rd, Chip.rdBytes]

theorem meets_alike (c : Chip) (x : Ctx) {env : Env} (hn : env.upsets = []) (k : Cmd) : c.Alike (c.meets x env k) :=
  (Chip.Outputs.meets (fz := x.fuse) c x hn k).toAlike

/-- Where nothing of the outside world interferes, a command that reads its inputs writes and ends as its body does on a chip alike. -/
theorem afterIo_outputs {c : Chip} {x : Ctx} (hl : x.mem.lines = []) (he : x.ecc = []) {env : Env} (hn : env.upsets = []) {k : Cmd}
    {reads writes : List (Nat × Nat)} {body : Chip → Chip} {outs : List (Nat × List Byte)}
    (hb : ∀ d, c.Alike d → ∃ e a, body d = e.endCmd { k with acct := a } 0 0 ∧ Chip.Outputs x.fuse d e outs) :
    ∃ e a, Chip.afterIo x env k reads writes (c.meets x env k) body = e.endCmd { k with acct := a } 0 0 ∧ Chip.Outputs x.fuse c e outs := by
  have ready : Chip.Outputs x.fuse c _ [] := (Chip.Outputs.meets c x hn k).then_quiet (.tierReads _ (reads ++ partRuns writes))
  obtain ⟨e, a, ended, written⟩ := hb _ ready.toAlike
  exact ⟨e, a, (afterIo_good x env k reads writes _ body hl he).trans ended, ready.trans written⟩

/-! ### Operands and results -/

/-- The input of a vector command. -/
def Chip.vecIn (c : Chip) (k : Cmd) : Packed :=
  vecOperand (c.fmt k (c.own k) (k.fld 17 1 % 16)) (scratchAddr k.inst 0 + k.fld 28 4) (k.fld 24 4)

/-- The output of VEC_ACT and VEC_DACT. -/
def Chip.vecOut (c : Chip) (k : Cmd) : Packed :=
  vecOperand (c.fmt k (c.own k) (k.fld 17 1 / 16)) (scratchAddr k.inst 0 + k.fld 32 4) (k.fld 24 4)

/-- The gradient that VEC_DACT reads. -/
def Chip.vecGrad (c : Chip) (k : Cmd) : Packed :=
  vecOperand (c.fmt k (c.own k) (k.fld 18 1 % 16)) (scratchAddr k.inst 0 + k.fld 40 4) (k.fld 24 4)

/-- The row that a vector command writes, with its scales. -/
def Chip.vecRow (c : Chip) (k : Cmd) (vs : List Val) : List (Nat × List Byte) :=
  [((c.vecOut k).base, (encodeRow (c.vecOut k).fmt vs).1), ((c.vecOut k).scales, (encodeRow (c.vecOut k).fmt vs).2.1)]

/-- The values and region codes of VEC_ACT (R200). -/
def Chip.actValues (c : Chip) (x : Ctx) (k : Cmd) (im : Image) : List (Nat × Nat) :=
  (List.range (k.fld 24 4)).map (fun e => curveAct im (toF32 (((c.vecIn k).val (c.rd x) 0 e).scale (-(k.sfld 19)))))

/-- What VEC_ACT writes: the values and, with SEG, their region codes (R200). -/
def Chip.actOuts (c : Chip) (x : Ctx) (k : Cmd) (im : Image) : List (Nat × List Byte) :=
  c.vecRow k ((c.actValues x k im).map (fun y => (ofF32 y.1).scale (k.sfld 20))) ++
    (if bitAt (k.fld 16 1) 7 then [(scratchAddr k.inst 0 + k.fld 36 4, packBits 4 ((c.actValues x k im).map Prod.snd))] else [])

/-- An element of VEC_DACT: slope times gradient (R201). -/
def Chip.dactValue (c : Chip) (x : Ctx) (k : Cmd) (im : Image) (e : Nat) : Val :=
  let dy := toF32 (((c.vecGrad k).val (c.rd x) 0 e).scale (-(k.sfld 21)))
  let slope := curveSlope im (c.imageFor k (tableKey 2 (c.own k) (k.fld 16 1 % 32 + 1))) (toF32 (((c.vecIn k).val (c.rd x) 0 e).scale (-(k.sfld 19))))
    (if curveFld im 0 25 1 = 0 then segCode (c.rd x) (scratchAddr k.inst 0 + k.fld 36 4) e else 0)
  (ofF32 (fmul (if ofF32 dy = .nan then f32.canonNan else slope) dy)).scale (k.sfld 20)

/-- The record that VEC_ARGMAX combines, if any, and the elements (R121, R122). -/
def Chip.argInputs (c : Chip) (x : Ctx) (k : Cmd) : List ArgBest :=
  (if bitAt (k.fld 16 1) 1 then [argOfBytes (c.rdBytes x (scratchAddr k.inst 0 + k.fld 40 4) 16)] else []) ++
    (List.range (k.fld 24 4)).map (fun e => argOne (toF32 ((c.vecIn k).val (c.rd x) 0 e)) (k.fld 32 8 + e))

/-- The row's elements and scales are written one after the other. -/
theorem vecRow_outputs {c : Chip} {k : Cmd} {o : Packed} (ho : o = c.vecOut k) (d : Chip) (x : Ctx) (vs : List Val) :
    Chip.Outputs x.fuse d ((d.wr x o.base (encodeRow o.fmt vs).1).wr x o.scales (encodeRow o.fmt vs).2.1) (c.vecRow k vs) := by
  subst ho
  exact (Chip.Outputs.wr d x _ _).trans (.wr _ x _ _)

/-! ### The commands -/

section

variable {c : Chip} {x : Ctx} (hl : x.mem.lines = []) (he : x.ecc = []) {env : Env} (hn : env.upsets = [])
include hl he hn

/-- VEC_ACT writes its values and, with SEG, their region codes, and ends. -/
theorem vecAct_outputs (hu : c.idlePages) {k : Cmd} {im : Image} (him : c.imageFor k (tableKey 2 (c.own k) (k.fld 16 1 % 32)) = some im) :
    ∃ d a, Chip.vecAct x env c k = d.endCmd { k with acct := a } 0 0 ∧ Chip.Outputs x.fuse c d (c.actOuts x k im) := by
  have found : c.Alike (c.meets x env k) := meets_alike c x hn k
  unfold Chip.vecAct
  rw [hn, upset_none]
  extract_lets p met y len s i o
  have input : i = c.vecIn k := congrArg (vecOperand · _ _) (found.fmt k p _)
  have output : o = c.vecOut k := congrArg (vecOperand · _ _) (found.fmt k p _)
  have curve : met.imageFor k (tableKey 2 p (k.fld 16 1 % 32)) = some im := (found.imageFor k _).trans him
  rw [curve]
  refine afterIo_outputs hl he hn fun d ready => ?_
  extract_lets xs ins ys inj plain vals enc row segs marked bytes
  have none_injected : inj = none := nfInject_off (ready.idlePages hu) _ _ _
  have values : ys = c.actValues x k im := by
    rw [Chip.actValues, ← input, ← ready.rd]
    simp only [ys, ins, xs, List.map_map]
    rfl
  have elements : vals = ys.map (fun y => (ofF32 y.1).scale (k.sfld 20)) := by simp only [vals, none_injected, plain]
  have rows : Chip.Outputs x.fuse d row (c.vecRow k vals) := vecRow_outputs output d x vals
  have written : Chip.Outputs x.fuse d segs (c.actOuts x k im) := by
    rw [Chip.actOuts, ← values, ← elements]
    dsimp only [segs]
    split
    · exact rows.trans (.wr row x _ _)
    · rwa [List.append_nil]
  have unmarked : marked = segs := congrArg (segs.nfDone _) none_injected
  exact ⟨marked, _, rfl, unmarked ▸ written⟩

/-- VEC_DACT writes slope times gradient and ends. -/
theorem vecDact_outputs (hu : c.idlePages) {k : Cmd} {im : Image} (him : c.imageFor k (tableKey 2 (c.own k) (k.fld 16 1 % 32)) = some im) :
    ∃ d a, Chip.vecDact x env c k = d.endCmd { k with acct := a } 0 0 ∧
      Chip.Outputs x.fuse c d (c.vecRow k ((List.range (k.fld 24 4)).map (c.dactValue x k im))) := by
  have found : c.Alike (c.meets x env k) := meets_alike c x hn k
  unfold Chip.vecDact
  rw [hn, upset_none]
  extract_lets p met y len s inst i o g der
  have input : i = c.vecIn k := congrArg (vecOperand · _ _) (found.fmt k p _)
  have output : o = c.vecOut k := congrArg (vecOperand · _ _) (found.fmt k p _)
  have gradient : g = c.vecGrad k := congrArg (vecOperand · _ _) (found.fmt k p _)
  have curve : met.imageFor k (tableKey 2 p inst) = some im := (found.imageFor k _).trans him
  rw [curve]
  dsimp -zeta only
  extract_lets seg
  have derivative : der = c.imageFor k (tableKey 2 p (inst + 1)) := found.imageFor k _
  refine afterIo_outputs hl he hn fun d ready => ?_
  extract_lets rd y32 dy32 seen plain inj vals enc row marked
  have none_injected : inj = none := nfInject_off (ready.idlePages hu) _ _ _
  have same_reads : rd = c.rd x := ready.rd x
  have elements : vals = (List.range len).map (c.dactValue x k im) := by
    simp only [vals, none_injected, plain, y32, dy32, seg, derivative, input, gradient, same_reads]
    rfl
  have rows : Chip.Outputs x.fuse d row (c.vecRow k vals) := vecRow_outputs output d x vals
  have unmarked : marked = row := congrArg (row.nfDone _) none_injected
  exact ⟨marked, _, rfl, unmarked ▸ elements ▸ rows⟩

/-- VEC_ARGMAX writes the record of the maximum or minimum and ends. -/
theorem vecArgmax_outputs {k : Cmd} {r : ArgBest} (hr : argReduce (!bitAt (k.fld 16 1) 0) (c.argInputs x k) = some r) :
    ∃ d a, Chip.vecArgmax x env c k = d.endCmd { k with acct := a } 0 0 ∧
      Chip.Outputs x.fuse c d [(scratchAddr k.inst 0 + k.fld 40 4, r.bytes)] := by
  have found : c.Alike (c.meets x env k) := meets_alike c x hn k
  unfold Chip.vecArgmax
  rw [hn, upset_none]
  extract_lets p met y len s op o dst comb max
  have input : o = c.vecIn k := congrArg (vecOperand · _ _) (found.fmt k p _)
  refine afterIo_outputs hl he hn fun d ready => ?_
  extract_lets es all
  have inputs : all = c.argInputs x k := by
    rw [Chip.argInputs, ← input, ← ready.rd, ← ready.rdBytes]
    dsimp only [all]
    split <;> rfl
  rw [inputs, hr]
  exact ⟨_, _, rfl, .wr d x _ _⟩

end

/-! ### The statement -/

/-- A vector command that has written its outputs has done what the statement says of it, and no more. -/
theorem onOp_vector {s : State} (h : s.sound) (hc : s.calm) {id op : Nat} {k : Cmd} (hk : s.chip.runs id op k) {body : Ctx → Chip → Cmd → Chip}
    {outs : List (Nat × List Byte)}
    (hb : ∃ d a, body s.ctx s.chip k = d.endCmd { k with acct := a } 0 0 ∧ Chip.Outputs s.fuse s.chip d outs) :
    nextWith (onOp id op body s) (fun t =>
      t.fuse = s.fuse ∧ t.pending = s.pending ∧ s.chip.settles t.chip id 0 0 ∧ s.stores t outs [] ∧ t.chip.regs = s.chip.regs ∧
        t.chip.keeps = s.chip.keeps ∧ { t.chip.tiers with resid := [], units := [] } = { s.chip.tiers with resid := [], units := [] } ∧
        t.chip.parts = s.chip.parts) := by
  obtain ⟨d, a, ended, written⟩ := hb
  obtain ⟨t, step, fuse, pending, settled, stored, alike, -⟩ := onOp_outputs h hc hk (ks := s.chip.keeps) (ps := s.chip.parts) ended written
  exact ⟨t, step, fuse, pending, settled, stored, alike.same Chip.regs fun _ => rfl, alike.same Chip.keeps fun _ => rfl,
    alike.same (fun b => { b.tiers with resid := [], units := [] }) fun _ => rfl, alike.same Chip.parts fun _ => rfl⟩

/-- Settles O25: each of the three commands stages what it writes and only reports beside it; the staged runs are then stored. -/
theorem vectorCommands : Obligations.VectorCommands := by
  intro s id env k h hc hn
  have idle : s.chip.idlePages := Chip.unarmed_hdr hc.2
  have clear : s.ctx.ecc = [] := State.calm_ecc hc
  refine ⟨fun im hk him => ?_, fun im hk him => ?_, fun r hk hr => ?_⟩
  · exact onOp_vector h hc hk (body := fun x => Chip.vecAct x env) (vecAct_outputs (x := s.ctx) hc.1 clear hn idle him)
  · exact onOp_vector h hc hk (body := fun x => Chip.vecDact x env) (vecDact_outputs (x := s.ctx) hc.1 clear hn idle him)
  · exact onOp_vector h hc hk (body := fun x => Chip.vecArgmax x env) (vecArgmax_outputs (x := s.ctx) hc.1 clear hn hr)

end Sys2Proof.Machine
end

section
/-! SUPPORT. Promotion (R111): a narrow value is exact in binary32 up to its largest exponent, and the statement about promotion. -/

namespace Sys2Proof.Machine

/-! ### The fields of binary32 -/

theorem f32_pack (n : Bool) (e fr : Nat) : f32.pack n e fr = flagNat n * 2 ^ 31 + e * 2 ^ 23 + fr := rfl

/-- Sign, exponent field and fraction read back as they were put together (R60). -/
theorem f32_pack_fields (n : Bool) {e fr : Nat} (he : e < 2 ^ 8) (hf : fr < 2 ^ 23) :
    f32.pack n e fr < 2 ^ 32 ∧ bitAt (f32.pack n e fr) 31 = n ∧ bitField (f32.pack n e fr) 30 23 = e ∧ f32.pack n e fr % 2 ^ 23 = fr := by
  rw [f32_pack, bitAt, bitField]
  cases n
  · rw [show flagNat false = 0 from rfl]
    exact ⟨by omega, beq_eq_false_iff_ne.mpr (by omega), by omega, by omega⟩
  · rw [show flagNat true = 1 from rfl]
    exact ⟨by omega, beq_iff_eq.mpr (by omega), by omega, by omega⟩

/-- The value of binary32 bits by their exponent field (R60). -/
theorem f32_decode (b : Nat) : f32.decode b =
    if bitField b 30 23 = 255 then (if b % 2 ^ 23 = 0 then .inf (bitAt b 31) else .nan)
    else if bitField b 30 23 = 0 then .num (bitAt b 31) (b % 2 ^ 23) (-149)
    else .num (bitAt b 31) (2 ^ 23 + b % 2 ^ 23) ((bitField b 30 23 : Int) - 127 - 23) := by
  by_cases top : bitField b 30 23 = 255
  · rw [if_pos top]
    simp only [Fmt.decode, f32, OfNat.zero_ne_ofNat, ↓reduceIte, Nat.reduceAdd, Nat.add_one_sub_one, top, Nat.reducePow, decide_true, Bool.and_self]
    rfl
  · rw [if_neg top]
    simp only [Fmt.decode, f32, OfNat.zero_ne_ofNat, ↓reduceIte, Nat.reduceAdd, Nat.add_one_sub_one, Nat.reducePow, top, decide_false,
      Bool.false_eq_true, Bool.false_and, Int.reduceSub, Nat.cast_ofNat, Int.reduceNeg]
    rfl

theorem ofF32_pack (n : Bool) {e fr : Nat} (he : e < 2 ^ 8) (hf : fr < 2 ^ 23) : ofF32 (f32.pack n e fr) =
    if e = 255 then (if fr = 0 then .inf n else .nan)
    else if e = 0 then .num n fr (-149)
    else .num n (2 ^ 23 + fr) ((e : Int) - 127 - 23) := by
  obtain ⟨small, sign, field, frac⟩ := f32_pack_fields n he hf
  rw [ofF32, Nat.mod_eq_of_lt small, f32_decode, sign, field, frac]

/-! ### Values of at most 24 bits -/

/-- The exponent of the last place to which binary32 rounds `m · 2^e` (R61). -/
def f32Unit (m : Nat) (e : Int) : Int := max ((Nat.log2 m : Int) + e) (-126) - 23

/-- The last place of a value of at most 24 bits is no higher than its exponent, and no lower than the least of binary32. -/
theorem f32Unit_bounds {m : Nat} {e : Int} (hm : m ≠ 0) (hw : m < 2 ^ 24) (he : -149 ≤ e) : -149 ≤ f32Unit m e ∧ f32Unit m e ≤ e := by
  have top : Nat.log2 m < 24 := (Nat.log2_lt hm).mpr hw
  unfold f32Unit
  omega

/-- A value whose rounding stays below 2^24 last places is packed by its exponent, beyond the largest as an infinity (R61, R62). -/
theorem toF32_num (n : Bool) {m r : Nat} {e : Int} (hm : m ≠ 0) (hr : rneShift m (e - f32Unit m e) = r) (hs : r < 2 ^ 24) : toF32 (.num n m e) =
    if r < 2 ^ 23 then f32.pack n 0 r
    else if 105 ≤ f32Unit m e then f32.pack n 255 0
    else f32.pack n (f32Unit m e + 150).toNat (r - 2 ^ 23) := by
  have unit : -149 ≤ f32Unit m e := by unfold f32Unit; omega
  have last : max ((Nat.log2 m : Int) + e) (1 - f32.bias) - (f32.man : Int) = f32Unit m e := rfl
  have carry : r ≠ 2 ^ (f32.man + 1) := hs.ne
  have field : f32Unit m e + (f32.man : Int) + f32.bias = f32Unit m e + 150 := Int.add_assoc _ 23 127
  have beyond : (decide (f32.maxFields.1 < (f32Unit m e + 150).toNat) || decide ((f32Unit m e + 150).toNat = f32.maxFields.1) &&
      decide (f32.maxFields.2 < r - 2 ^ f32.man)) = decide (105 ≤ f32Unit m e) := by
    rw [show f32.maxFields = (254, 2 ^ 23 - 1) from rfl, show f32.man = 23 from rfl]
    dsimp only
    rw [decide_eq_false (p := 2 ^ 23 - 1 < r - 2 ^ 23) (by omega), Bool.and_false, Bool.or_false, decide_eq_decide]
    omega
  simp only [toF32, Fmt.encode, if_neg hm, last, hr, if_neg carry, field, beyond, decide_eq_true_eq]
  rfl

/-- Counted in its last place, a value of at most 24 bits stays below 2^24, and a normal one reaches 2^23. -/
theorem f32Unit_count {m : Nat} {e : Int} (hm : m ≠ 0) (hw : m < 2 ^ 24) :
    m * 2 ^ (e - f32Unit m e).toNat < 2 ^ 24 ∧ (-126 ≤ (Nat.log2 m : Int) + e → 2 ^ 23 ≤ m * 2 ^ (e - f32Unit m e).toNat) := by
  have top : Nat.log2 m < 24 := (Nat.log2_lt hm).mpr hw
  have unit : f32Unit m e = max ((Nat.log2 m : Int) + e) (-126) - 23 := rfl
  constructor
  · calc m * 2 ^ (e - f32Unit m e).toNat
      _ < 2 ^ (Nat.log2 m + 1) * 2 ^ (e - f32Unit m e).toNat := Nat.mul_lt_mul_of_pos_right Nat.lt_log2_self (by positivity)
      _ ≤ 2 ^ 24 := by rw [← pow_add]; exact Nat.pow_le_pow_right (by decide) (by omega)
  · intro normal
    calc 2 ^ 23 = 2 ^ Nat.log2 m * 2 ^ (e - f32Unit m e).toNat := by rw [← pow_add]; congr 1; omega
      _ ≤ m * 2 ^ (e - f32Unit m e).toNat := Nat.mul_le_mul_right _ (Nat.log2_self_le hm)

/-- A value of at most 24 bits at or above the least last place is exact in binary32 while it is below 2^128, and beyond an infinity. -/
theorem ofF32_toF32_narrow (n : Bool) {m : Nat} {e : Int} (hm : m ≠ 0) (hw : m < 2 ^ 24) (he : -149 ≤ e) : ofF32 (toF32 (.num n m e)) =
    if (Nat.log2 m : Int) + e < 128 then .num n (m * 2 ^ (e - f32Unit m e).toNat) (f32Unit m e) else .inf n := by
  have unit : f32Unit m e = max ((Nat.log2 m : Int) + e) (-126) - 23 := rfl
  obtain ⟨least, below⟩ := f32Unit_bounds hm hw he
  obtain ⟨small, normal⟩ := f32Unit_count hm hw
  have unrounded : rneShift m (e - f32Unit m e) = m * 2 ^ (e - f32Unit m e).toNat := if_pos (by omega)
  rw [toF32_num n hm unrounded small]
  generalize m * 2 ^ (e - f32Unit m e).toNat = r at *
  by_cases sub : r < 2 ^ 23
  · have place : f32Unit m e = -149 := by omega
    rw [if_pos sub, ofF32_pack n (by decide) sub, if_neg (by decide), if_pos rfl, if_pos (by omega), place]
  · rw [if_neg sub]
    by_cases large : 105 ≤ f32Unit m e
    · rw [if_pos large, if_neg (by omega), ofF32_pack n (by decide) (by decide), if_pos rfl, if_pos rfl]
    · have place : (((f32Unit m e + 150).toNat : Nat) : Int) - 127 - 23 = f32Unit m e := by omega
      rw [if_neg large, if_pos (by omega), ofF32_pack n (by omega) (by omega), if_neg (by omega), if_neg (by omega), place,
        Nat.add_sub_cancel' (Nat.le_of_not_lt sub)]

/-! ### Promoted values -/

/-- A product with a power of two is below 2^256 by its exponent. -/
theorem log2_add_lt_iff {m : Nat} (hm : m ≠ 0) (k : Nat) : Nat.log2 m + k < 256 ↔ m * 2 ^ k < 2 ^ 256 := by
  constructor
  · intro h
    calc m * 2 ^ k < 2 ^ (Nat.log2 m + 1) * 2 ^ k := Nat.mul_lt_mul_of_pos_right Nat.lt_log2_self (by positivity)
      _ ≤ 2 ^ 256 := by rw [← pow_add]; exact Nat.pow_le_pow_right (by decide) (by omega)
  · intro h
    have : 2 ^ (Nat.log2 m + k) < 2 ^ 256 := by
      calc 2 ^ (Nat.log2 m + k) = 2 ^ Nat.log2 m * 2 ^ k := pow_add 2 _ k
        _ ≤ m * 2 ^ k := Nat.mul_le_mul_right _ (Nat.log2_self_le hm)
        _ < 2 ^ 256 := h
    exact (Nat.pow_lt_pow_iff_right (by decide)).mp this

/-- A promoted narrow value: exact while its magnitude is below 2^128, beyond an infinity (R111). -/
theorem ofF32_promote {n S : Int} (hn : n ≠ 0) (hw : n.natAbs < 2 ^ 24) (hS : -128 ≤ S) : ofF32 (promote n S) =
    if (n.natAbs : Int) * 2 ^ (S + 128).toNat < 2 ^ 256 then
      .num (n < 0) (n.natAbs * 2 ^ (S - f32Unit n.natAbs S).toNat) (f32Unit n.natAbs S)
    else .inf (n < 0) := by
  have hm : n.natAbs ≠ 0 := Int.natAbs_ne_zero.mpr hn
  have value : promote n S = toF32 (.num (n < 0) n.natAbs S) := by rw [promote, if_neg hn, Val.ofInt, Val.scale, zero_add]
  have range : (Nat.log2 n.natAbs : Int) + S < 128 ↔ (n.natAbs : Int) * 2 ^ (S + 128).toNat < 2 ^ 256 := by
    calc (Nat.log2 n.natAbs : Int) + S < 128 ↔ Nat.log2 n.natAbs + (S + 128).toNat < 256 := by omega
      _ ↔ n.natAbs * 2 ^ (S + 128).toNat < 2 ^ 256 := log2_add_lt_iff hm _
      _ ↔ (n.natAbs : Int) * 2 ^ (S + 128).toNat < 2 ^ 256 := by exact_mod_cast Iff.rfl
  rw [value, ofF32_toF32_narrow _ hm hw (by omega)]
  simp only [range]

@[simp] theorem accLoop_nil (fuel : Nat) (acc : Int) (p : Nat) (a : AccRun) : accLoop fuel acc p [] a = a := by
  cases fuel <;> rfl

/-- A group of one pass that does not overflow makes one block and no replay; an infinity is seen (R107, R111). -/
theorem accumulate_fits (acc : Int) {p : Nat} (ps : List Val) {st : AccState} (hp : 0 < p) (hr : st.r = 0)
    (fits : (groupSum acc [ps] st.nf).2.1 = false) :
    (accumulate acc p [ps] st).st.blocks = st.blocks + 1 ∧ (accumulate acc p [ps] st).log = [] ∧
      (f32.nonFinite (promote (groupSum acc [ps] st.nf).1 acc) = true → (accumulate acc p [ps] st).nfSeen = true) := by
  have group : (if st.pall then 1 else min (p - st.pass % p) [ps].length) = 1 := by
    have := Nat.mod_lt st.pass hp
    rw [List.length_singleton]
    split <;> omega
  have scale : acc + 4 * (st.r : Int) = acc := by rw [hr, Nat.cast_zero, mul_zero, add_zero]
  have whole : [ps].take 1 = [ps] := rfl
  unfold accumulate
  rw [List.length_singleton, accLoop]
  simp only [group, scale, whole, fits, Bool.false_and, Bool.false_eq_true, if_false, List.drop_one, List.tail_cons, accLoop_nil,
    true_and]
  exact fun h => by rw [h, Bool.or_true, Bool.true_or]

/-! ### The statement -/

/-- Settles O26: a narrow value fits the 24 bits of binary32, and a group that fits is one step of the loop. -/
theorem promotion : Obligations.Promotion := by
  refine ⟨fun n S low high hS => ?_, fun acc p ps st hp _ _ hr fits => accumulate_fits acc ps hp hr fits⟩
  have hw : n.natAbs < 2 ^ 24 := by omega
  refine ⟨rfl, fun m e hn small he => ?_, fun hn small => ?_, fun large => ?_⟩
  · obtain ⟨least, below⟩ := f32Unit_bounds (Int.natAbs_ne_zero.mpr hn) hw (show -149 ≤ S by omega)
    rw [ofF32_promote hn hw hS, if_pos small] at he
    obtain ⟨-, rfl, rfl⟩ := Val.num.inj he
    refine ⟨?_, least⟩
    rw [show (S + 149).toNat = (S - f32Unit n.natAbs S).toNat + (f32Unit n.natAbs S + 149).toNat by omega, pow_add]
    push_cast
    ring
  · exact ⟨_, _, (ofF32_promote hn hw hS).trans (if_pos small)⟩
  · have hn : n ≠ 0 := by
      rintro rfl
      exact absurd large (by norm_num)
    exact (ofF32_promote hn hw hS).trans (if_neg large.not_gt)

end Sys2Proof.Machine
end

section
/-! SUPPORT. Additions into the wide gradient buffers (R128-R130): the words they stage, and what they leave of the chip. -/

namespace Sys2Proof.Machine

/-! ### Writing beside what a command keeps of its own -/

/-- The chip without its keep buffers, partitions and GRADBUF_STAT, which a command may set while it writes its outputs. -/
def Chip.core (c : Chip) : Chip := { c with keeps := [], parts := [], tiers := { c.tiers with gradStat := [] } }

/-- `d` is `c` with bytes staged at local addresses, but for keep buffers, partitions, GRADBUF_STAT and what writing and reporting
change. -/
def Chip.Wrote (fz : Fuses) (c d : Chip) (outs : List (Nat × List Byte)) : Prop := Chip.Outputs fz c.core d.core outs

namespace Chip.Wrote

variable {fz : Fuses} {c d e : Chip} {outs more : List (Nat × List Byte)}

theorem of_outputs (h : Chip.Outputs fz c d outs) : Chip.Wrote fz c d outs :=
  ⟨⟨(congrArg Chip.core h.bare :), h.kept⟩, h.staged⟩

/-- What changes only what `core` leaves out writes nothing. -/
theorem of_core (h : d.core = c.core) : Chip.Wrote fz c d [] := by
  rw [Chip.Wrote, h]
  exact .refl fz _

theorem refl (fz : Fuses) (c : Chip) : Chip.Wrote fz c c [] := of_core rfl

theorem trans (h : Chip.Wrote fz c d outs) (k : Chip.Wrote fz d e more) : Chip.Wrote fz c e (outs ++ more) := Chip.Outputs.trans h k

theorem then_quiet (h : Chip.Wrote fz c d outs) (k : Chip.Wrote fz d e []) : Chip.Wrote fz c e outs := Chip.Outputs.then_quiet h k

/-- Local addresses lead to the same bytes. -/
theorem rd (h : Chip.Wrote fz c d outs) (x : Ctx) : d.rd x = c.rd x := h.toAlike.rd x

theorem rdNat (h : Chip.Wrote fz c d outs) (x : Ctx) (a n : Nat) : d.rdNat x a n = c.rdNat x a n := by
  simp only [Chip.rdNat, Chip.rdBytes, h.rd]

theorem staged_of (h : Chip.Wrote fz c d outs) : d.staged = c.staged ++ c.stagedOf fz outs := h.staged

theorem regTake (c : Chip) (p i n : Nat) : Chip.Wrote fz c (c.regTake p i n) [] := of_core rfl

end Chip.Wrote

/-- A running command that has written its outputs ends with SUCCESS and they are stored. -/
theorem onOp_wrote {s : State} (h : s.sound) (he : s.ctx.ecc = []) {id op : Nat} {k : Cmd} (hk : s.chip.runs id op k)
    {body : Ctx → Chip → Cmd → Chip} {d : Chip} {a : Acct} {outs : List (Nat × List Byte)}
    (ended : body s.ctx s.chip k = d.endCmd { k with acct := a } 0 0) (ho : Chip.Wrote s.fuse s.chip d outs) :
    nextWith (onOp id op body s) (fun t => t.fuse = s.fuse ∧ t.pending = s.pending ∧ s.chip.settles t.chip id 0 0 ∧ s.stores t outs [] ∧
      Chip.Alike { s.chip.core with cmds := t.chip.cmds } t.chip.core ∧ t.chip = (d.endCmd { k with acct := a } 0 0).between) := by
  have number : k.id = id := Chip.cmd?_id hk.1
  rw [onOp, onStep_calm _ _ _ _ he, State.sound_staged h, runOp_runs _ hk, ended]
  refine ⟨rfl, rfl, ho.toAlike.settles (c := s.chip.core) hk.1 (j := { k with acct := a }) number 0 0,
    State.stores_commit h ?_, ho.toAlike.ended { k with acct := a } 0 0, rfl⟩
  exact congrArg s.mem.commit (ho.staged_of.trans (congrArg (· ++ _) (State.sound_unstaged h)))

/-! ### Words added -/

/-- The bytes of words to which values are added in binary32, from an address on (R129). -/
def Chip.wideSums (c : Chip) (x : Ctx) (a : Nat) (vs : List Nat) : List Byte :=
  ((List.range vs.length).map (fun j => leBytes 4 (fadd (c.rdNat x (a + 4 * j) 4) (vs.getD j 0)))).flatten

theorem wideSums_length (c : Chip) (x : Ctx) (a : Nat) (vs : List Nat) : (c.wideSums x a vs).length = 4 * vs.length := by
  simp [Chip.wideSums, Function.comp_def, mul_comm]

/-- Values added into words of a wide buffer: the sums are written, GRADBUF_STAT and a count aside (R129, R130). -/
theorem wideAdd_wrote (c : Chip) (x : Ctx) (cell word : Nat) (vs : List Nat) :
    Chip.Wrote x.fuse c (c.wideAdd x cell word vs).1 [(wideAddr cell (4 * word), c.wideSums x (wideAddr cell (4 * word)) vs)] := by
  unfold Chip.wideAdd
  extract_lets a sums bad old became nf written counted g
  have bytes : (sums.map (leBytes 4)).flatten = c.wideSums x a vs := by
    rw [Chip.wideSums]
    simp only [sums, List.map_map]
    rfl
  have added : Chip.Outputs x.fuse c counted [(a, c.wideSums x a vs)] := by
    rw [← bytes]
    exact (Chip.Outputs.wr c x a _).then_quiet (.count written _ _ _)
  split
  · have marked : Chip.Wrote x.fuse counted { counted with tiers.gradStat := tabSet counted.tiers.gradStat cell (g.1, true) } [] := .of_core rfl
    exact ((Chip.Wrote.of_outputs added).then_quiet marked).then_quiet (.of_outputs (.fire _ _ _))
  · exact .of_outputs added

end Sys2Proof.Machine
end

section
/-! SUPPORT. The backward products (R193-R197): BWD_FUSED and MM_GRAD write dX and add their gradients, and the statement about them. -/

namespace Sys2Proof.Machine

/-! ### Rows of gradients added -/

/-- Values added from an offset of a cell's wide buffer on: the address of the first word and the bytes of the sums. -/
def Chip.addedAt (c : Chip) (x : Ctx) (cell off : Nat) (vs : List Nat) : Nat × List Byte :=
  (wideAddr cell (4 * (off / 4)), c.wideSums x (wideAddr cell (4 * (off / 4))) vs)

theorem Chip.Wrote.addedAt {fz : Fuses} {c d : Chip} {outs : List (Nat × List Byte)} (h : Chip.Wrote fz c d outs) (x : Ctx) (cell off : Nat)
    (vs : List Nat) : d.addedAt x cell off vs = c.addedAt x cell off vs := by
  simp only [Chip.addedAt, Chip.wideSums, h.rdNat]

theorem Chip.Alike.addedAt {c d : Chip} (h : c.Alike d) (x : Ctx) (cell off : Nat) (vs : List Nat) :
    d.addedAt x cell off vs = c.addedAt x cell off vs := by
  simp only [Chip.addedAt, Chip.wideSums, Chip.rdNat, h.rdBytes]

/-- Rows of values added one after the other, each to the words as memory holds them. -/
theorem wideAdds_wrote (c : Chip) (x : Ctx) (cell n : Nat) (off : Nat → Nat) (vs : Nat → List Nat) :
    Chip.Wrote x.fuse c ((List.range n).foldl (fun (acc : Chip × Bool) i =>
      ((acc.1.wideAdd x cell (off i / 4) (vs i)).1, acc.2 || (acc.1.wideAdd x cell (off i / 4) (vs i)).2)) (c, false)).1
      ((List.range n).map (fun i => c.addedAt x cell (off i) (vs i))) := by
  refine foldl_invariant (fun front (acc : Chip × Bool) => Chip.Wrote x.fuse c acc.1 (front.map (fun i => c.addedAt x cell (off i) (vs i))))
    (.refl _ c) (fun front i acc before => ?_) _
  have row : Chip.Wrote x.fuse acc.1 _ [acc.1.addedAt x cell (off i) (vs i)] := wideAdd_wrote acc.1 x cell (off i / 4) (vs i)
  rw [before.addedAt] at row
  rw [List.map_append]
  exact before.trans row

/-- Keep buffers written anew or dropped write no output (R92). -/
theorem keepAfter_wrote (c : Chip) {x : Ctx} (hl : x.mem.lines = []) (p cell : Nat) (keep : Bool) (shape : List Nat) (outs : List MmOut) :
    Chip.Wrote x.fuse c (c.keepAfter x p cell keep shape outs) [] := by
  rw [Chip.keepAfter, keepNew_good c hl]
  split <;> exact .of_core rfl

theorem clearKeepLost_wrote (fz : Fuses) (c : Chip) (p : Nat) (k : Cmd) : Chip.Wrote fz c (c.clearKeepLost p k) [] := by
  obtain ⟨ps, hps⟩ := clearKeepLost_parts c p k
  exact .of_core (by rw [hps]; rfl)

/-! ### BWD_FUSED -/

/-- What a chip alike computes is the same. -/
theorem Chip.Alike.bwdOperands {c d : Chip} (h : c.Alike d) (p : Nat) (k : Cmd) (base : Nat) : d.bwdOperands p k base = c.bwdOperands p k base := by
  simp only [Chip.bwdOperands, h.fmt]

theorem Chip.Alike.bwdDx {c d : Chip} (h : c.Alike d) (x : Ctx) (p : Nat) (k : Cmd) : d.bwdDx x p k = c.bwdDx x p k := by
  simp only [Chip.bwdDx, h.bwdOperands, h.rd, h.same Chip.keeps fun _ => rfl]

theorem Chip.Alike.bwdDw {c d : Chip} (h : c.Alike d) (x : Ctx) (p : Nat) (k : Cmd) : d.bwdDw x p k = c.bwdDw x p k := by
  simp only [Chip.bwdDw, h.bwdOperands, h.rd]

theorem bwdDw_length (c : Chip) (x : Ctx) (p : Nat) (k : Cmd) : (c.bwdDw x p k).length = k.fld 27 1 := by
  simp [Chip.bwdDw]

theorem Chip.Alike.accumHeld {c d : Chip} (h : c.Alike d) (k : Cmd) (cell : Nat) : d.accumHeld k cell = c.accumHeld k cell :=
  h.same (fun b => b.accumHeld k cell) fun _ => rfl

/-- The rows of dX, each with its scales (R194). -/
def Chip.dxRows (c : Chip) (x : Ctx) (k : Cmd) : List (Nat × List Byte) :=
  let d := (c.bwdOperands (c.own k) k (scratchAddr k.inst 0)).2.2.2
  (List.range (k.fld 30 2)).flatMap (fun i =>
    let e := encodeRow d.fmt (((c.bwdDx x (c.own k) k).getD i []).map (fun q => q.val))
    [(d.base + i * d.pitch, e.1), (d.scales + i * (k.fld 28 2 / 32), e.2.1)])

/-- The rows of dW as they are added (R129, R194). -/
def Chip.dwRows (c : Chip) (x : Ctx) (k : Cmd) : List (Nat × List Byte) :=
  if bitAt (k.fld 16 1) 0 then
    (List.range (k.fld 27 1)).map (fun i =>
      c.addedAt x k.inst (k.fld 48 4 + 512 * i) (((c.bwdDw x (c.own k) k).getD i []).map MmOut.bufferWord))
  else []

/-- The rows of MM_GRAD's outputs as they are added (R129, R197). -/
def Chip.gradRows (c : Chip) (x : Ctx) (k : Cmd) : List (Nat × List Byte) :=
  let outs := c.mmOuts x (c.own k) k { unit := k.inst, mc := k.fld 22 2, nc := k.fld 24 2 }
  (List.range (k.fld 24 2)).map (fun i =>
    c.addedAt x k.inst (k.fld 40 4 + 64 * k.fld 60 2 * i) ((outs.getD i []).map (fun q => toF32 q.val)))

section

variable {c : Chip} {x : Ctx} (hl : x.mem.lines = []) (he : x.ecc = []) {env : Env} (hn : env.upsets = [])
include hl he hn

/-- Where nothing of the outside world interferes, a command that reads its inputs writes and ends as its body does on a chip alike. -/
theorem afterReads_wrote {k : Cmd} {reads : List (Nat × Nat)} {body : Chip → Chip} {outs : List (Nat × List Byte)}
    (hb : ∀ d, c.Alike d → ∃ e a, body d = e.endCmd { k with acct := a } 0 0 ∧ Chip.Wrote x.fuse d e outs) :
    ∃ e a, Chip.afterReads x env k reads (c.meets x env k) body = e.endCmd { k with acct := a } 0 0 ∧ Chip.Wrote x.fuse c e outs := by
  have ready : Chip.Outputs x.fuse c _ [] := (Chip.Outputs.meets c x hn k).then_quiet (.tierReads _ reads)
  obtain ⟨e, a, ended, written⟩ := hb _ ready.toAlike
  exact ⟨e, a, (afterReads_good x env k reads _ body hl he).trans ended, (Chip.Wrote.of_outputs ready).trans written⟩

theorem afterIo_wrote {k : Cmd} {reads writes : List (Nat × Nat)} {body : Chip → Chip} {outs : List (Nat × List Byte)}
    (hb : ∀ d, c.Alike d → ∃ e a, body d = e.endCmd { k with acct := a } 0 0 ∧ Chip.Wrote x.fuse d e outs) :
    ∃ e a, Chip.afterIo x env k reads writes (c.meets x env k) body = e.endCmd { k with acct := a } 0 0 ∧ Chip.Wrote x.fuse c e outs :=
  afterReads_wrote hl he hn fun d hd => by
    rw [coverRuns_good x writes d hl]
    exact hb d hd

/-- BWD_FUSED writes dX, adds dW into the wide buffer if asked to, and ends. -/
theorem bwdFused_wrote (hu : c.idlePages) {k : Cmd} (hh : bitAt (k.fld 16 1) 0 = true → c.accumHeld k k.inst = false) :
    ∃ d a, Chip.bwdFused x env c k = d.endCmd { k with acct := a } 0 0 ∧ Chip.Wrote x.fuse c d (c.dxRows x k ++ c.dwRows x k) := by
  have found : c.Alike (c.meets x env k) := meets_alike c x hn k
  unfold Chip.bwdFused
  rw [hn, upset_none]
  extract_lets p cell met y mode dw m kt n off words
  obtain ⟨⟨w, g, xo, o⟩, operands⟩ : ∃ q, q = met.bwdOperands p k (scratchAddr cell 0) := ⟨_, rfl⟩
  rw [← operands]
  dsimp -zeta only
  rw [if_neg (by rw [found.accumHeld]; simpa using hh)]
  refine afterIo_wrote hl he hn fun d ready => ?_
  extract_lets dxs dws inj enc rows bytes vh base beats outs ax aw counted marked kept acct
  have none_injected : inj = none := nfInject_off (ready.idlePages hu) _ _ _
  have output : o = (c.bwdOperands p k (scratchAddr cell 0)).2.2.2 := congrArg (·.2.2.2) (operands.trans (found.bwdOperands p k _))
  have written : Chip.Wrote x.fuse d rows (c.dxRows x k) := by
    rw [show c.dxRows x k = (List.range n).flatMap (fun i =>
        [(o.base + i * o.pitch, (enc.getD i ([], [], false)).1), (o.scales + i * (kt / 32), (enc.getD i ([], [], false)).2.1)]) from
      List.flatMap_congr fun i hi => by
        rw [show enc.getD i ([], [], false) = _ from getD_map_range _ (List.mem_range.mp hi) _, none_injected, ← ready.bwdDx, output]
        rfl]
    refine .of_outputs (.foldl (fun e i => ?_) _ d)
    exact (Chip.Outputs.wr e x _ _).trans (.wr _ x _ _)
  have adds : (List.range dws.length).map (fun i => rows.addedAt x cell (off + 512 * i) ((dws.getD i []).map MmOut.bufferWord)) = c.dwRows x k := by
    simp only [written.addedAt, ready.addedAt, Chip.dwRows, dws, ready.bwdDw]
    split
    · rw [bwdDw_length]
      rfl
    · rfl
  have added := wideAdds_wrote rows x cell dws.length (fun i => off + 512 * i) (fun i => (dws.getD i []).map MmOut.bufferWord)
  rw [adds] at added
  have unmarked : marked = counted := congrArg (counted.nfDone _) none_injected
  have reported : Chip.Wrote x.fuse _ counted [] := .of_outputs (.arrayCounts _ _ _ _ _ _ _ _ _ _)
  have buffers : Chip.Wrote x.fuse marked kept [] := (keepAfter_wrote marked hl _ _ _ _ _).trans (clearKeepLost_wrote _ _ _ _)
  refine ⟨_, _, rfl, ?_⟩
  exact (written.trans added).then_quiet (reported.then_quiet (unmarked ▸ buffers))

/-- MM_GRAD adds its outputs into the wide buffer and ends. -/
theorem mmGrad_wrote (hu : c.idlePages) {k : Cmd} (hh : c.accumHeld k k.inst = false) :
    ∃ d a, Chip.mmGrad x env c k = d.endCmd { k with acct := a } 0 0 ∧ Chip.Wrote x.fuse c d (c.gradRows x k) := by
  have found : c.Alike (c.meets x env k) := meets_alike c x hn k
  unfold Chip.mmGrad
  rw [hn, upset_none]
  extract_lets p cell met y m n kk sh off pitch words flow cols
  rw [if_neg (by rw [found.accumHeld, hh]; exact Bool.false_ne_true)]
  refine afterReads_wrote hl he hn fun d ready => ?_
  extract_lets outs inj tiles
  have none_injected : inj = none := nfInject_off (ready.idlePages hu) _ _ _
  have added := wideAdds_wrote d x cell n (fun i => off + pitch * i)
    (fun i => (injectAt inj m i ((outs.getD i []).map (fun q => q.val))).map toF32)
  have adds : (List.range n).map (fun i => d.addedAt x cell (off + pitch * i) ((injectAt inj m i ((outs.getD i []).map (fun q => q.val))).map toF32)) =
      c.gradRows x k := by
    simp only [none_injected, injectAt, ready.addedAt, List.map_map, outs, mmOuts_alike ready]
    rfl
  split
  next sums nfw hsums =>
  rw [adds, show _ = sums from congrArg Prod.fst hsums] at added
  extract_lets vh base beats counted marked kept
  have unmarked : marked = counted := congrArg (counted.nfDone _) none_injected
  have reported : Chip.Wrote x.fuse sums counted [] := .of_outputs (.arrayCounts _ _ _ _ _ _ _ _ _ _)
  have buffers : Chip.Wrote x.fuse marked kept [] := (keepAfter_wrote marked hl _ _ _ _ _).trans (clearKeepLost_wrote _ _ _ _)
  exact ⟨_, _, rfl, added.then_quiet (reported.then_quiet (unmarked ▸ buffers))⟩

end

/-! ### The statement -/

/-- Settles O24: both commands stage the rows that they write or add and only report and set buffers of their own beside it; the staged
runs are then stored. -/
theorem backwardProducts : Obligations.BackwardProducts := by
  refine ⟨fun s id env k h hc hn hk => ?_, fun s id env k h hc hn hk held => ?_⟩
  · intro p dw d added dx held
    obtain ⟨e, a, ended, outputs⟩ := bwdFused_wrote (x := s.ctx) hc.1 (State.calm_ecc hc) hn (Chip.unarmed_hdr hc.2) held
    obtain ⟨t, step, fuse, pending, settled, stored, alike, -⟩ := onOp_wrote h (State.calm_ecc hc) hk (body := fun x => Chip.bwdFused x env) ended outputs
    refine ⟨t, step, fuse, pending, settled, alike.same Chip.regs fun _ => rfl, ?_⟩
    have rows : s.chip.dwRows s.ctx k =
        if dw then (List.range (k.fld 27 1)).map (fun i => added i ((s.chip.bwdDw s.ctx p k).getD i [])) else [] := by
      simp only [Chip.dwRows, Chip.addedAt, Chip.wideSums, List.length_map]
      rfl
    rwa [← rows]
  · intro p outs added
    obtain ⟨e, a, ended, outputs⟩ := mmGrad_wrote (x := s.ctx) hc.1 (State.calm_ecc hc) hn (Chip.unarmed_hdr hc.2) held
    obtain ⟨t, step, fuse, pending, settled, stored, alike, -⟩ := onOp_wrote h (State.calm_ecc hc) hk (body := fun x => Chip.mmGrad x env) ended outputs
    exact ⟨t, step, fuse, pending, settled, alike.same Chip.regs fun _ => rfl, stored⟩

end Sys2Proof.Machine
end

section
/-! SUPPORT. Moves between local memories (R128-R137): a move writes its rows, or adds them into the wide buffer, and the statement about
them. -/

namespace Sys2Proof.Machine

/-! ### What a move finds -/

/-- What reporting leaves is the same. -/
theorem Chip.reports_same {α : Type} {c d : Chip} (h : Chip.reports c d) (f : Chip → α) (hf : ∀ b, f b.quiet = f b) : f d = f c := by
  rw [← hf d, h.1, hf c]

/-- A command that meets no upset only counts the requests that its banks refused or granted out of order (R144). -/
theorem meets_reports (c : Chip) (x : Ctx) {env : Env} (hn : env.upsets = []) (k : Cmd) : Chip.reports c (c.meets x env k) := by
  unfold Chip.meets
  rw [hn]
  refine Chip.reports_trans (b := c.upset x []) (Chip.reports_refl c) (reports_foldl _ (fun c b => ?_) _ _)
  exact Chip.reports_trans (count_reports _ _ _ _) (count_reports _ _ _ _)

theorem Chip.Alike.moveSrc {c d : Chip} (h : c.Alike d) (p : Nat) (k : Cmd) : d.moveSrc p k = c.moveSrc p k := by
  simp only [Chip.moveSrc, h.fmt]

theorem Chip.Alike.moveDst {c d : Chip} (h : c.Alike d) (p : Nat) (k : Cmd) : d.moveDst p k = c.moveDst p k := by
  simp only [Chip.moveDst, h.fmt]

/-- No line is bad where none is listed. -/
theorem lineHealth_good (c : Chip) {x : Ctx} (hl : x.mem.lines = []) (a : Nat) : c.lineHealth x a = .good := by
  simp [Chip.lineHealth, Memory.health, hl, tabGet]

/-! ### What a move does beside writing -/

theorem tierWrites_outputs (fz : Fuses) (c : Chip) (runs : List (Nat × Nat)) : Chip.Outputs fz c (c.tierWrites runs) [] :=
  .quiets (fun c a => .tierLine c a true) _ c

theorem dramCharge_wrote (fz : Fuses) (c : Chip) (p : Nat) (runs : List (Nat × Nat)) : Chip.Wrote fz c (c.dramCharge p runs) [] :=
  (Chip.Wrote.regTake c p 0 _).trans (.regTake _ p 1 _)

/-- A residency entry made is no output (R141). -/
theorem addResid_outputs (fz : Fuses) (c : Chip) (cell p tag off len : Nat) : Chip.Outputs fz c (c.addResid cell p tag off len) [] := by
  have entered (d : Chip) (l : Tab (List Resid)) : Chip.Outputs fz d { d with tiers.resid := l } [] := .of_alike ⟨rfl, fun _ => rfl⟩ rfl
  unfold Chip.addResid
  dsimp only
  split
  · exact (Chip.Outputs.count c _ _ _).trans (entered _ _)
  · exact entered c _

/-! ### The rows of a move -/

/-- The writing of a local move without a delta: its rows and aux bytes one after the other, or each row's values added into the wide
buffer as it is by then (R129, R135). -/
def Chip.moveWrites (c : Chip) (x : Ctx) (k : Cmd) (s d : MoveEnd) : Chip × Bool :=
  let rows := (List.range d.rows).map (moveRow s d (c.rd x) (bitAt (k.fld 16 1) 0) (k.sfld 18) (k.sfld 19) none)
  let nf := rows.any (fun q => q.2.2)
  if bitAt (k.fld 16 1) 2 then
    (List.range d.rows).foldl (fun (acc : Chip × Bool) i =>
      let q := acc.1.wideAdd (x.now acc.1) k.inst ((d.row i - wideAddr k.inst 0) / 4) ((chunks 4 (4 * d.rowLen + 1) (rows.getD i ([], [], false)).1).map leNat)
      (q.1, acc.2 || q.2)) (c, nf)
  else
    ((List.range d.rows).foldl (fun c i =>
      let q := rows.getD i ([], [], false)
      (c.wr x (d.row i) q.1).wr x (d.aux + i * d.auxRow) q.2.1) c, nf)

/-- A move of a partition whose source and destination are local, with no mode but TRANSPOSE and ACCUM, that nothing holds (R134, R319). -/
structure Chip.movesLocally (c : Chip) (p : Nat) (k : Cmd) : Prop where
  src : (c.moveSrc p k).host = false
  dst : (c.moveDst p k).host = false
  noDelta : bitAt (k.fld 16 1) 1 = false
  noZero : bitAt (k.fld 16 1) 3 = false
  noSkip : bitAt (k.fld 16 1) 4 = false
  srcLets : c.dramLets p (c.moveSrc p k).runs = true
  dstLets : c.dramLets p (c.moveDst p k).runs = true
  regLets : k.tclass = 5 → c.regLets p (3 + k.inst) = true
  unheld : bitAt (k.fld 16 1) 2 = true → c.accumHeld k k.inst = false

/-- Reporting does not change that. -/
theorem Chip.movesLocally.of_reports {c d : Chip} {p : Nat} {k : Cmd} (h : c.movesLocally p k) (r : Chip.reports c d) : d.movesLocally p k := by
  have src : d.moveSrc p k = c.moveSrc p k := Chip.reports_same r (fun b => b.moveSrc p k) fun _ => rfl
  have dst : d.moveDst p k = c.moveDst p k := Chip.reports_same r (fun b => b.moveDst p k) fun _ => rfl
  have lets (runs : List (Nat × Nat)) : d.dramLets p runs = c.dramLets p runs := Chip.reports_same r (fun b => b.dramLets p runs) fun _ => rfl
  have reg : d.regLets p (3 + k.inst) = c.regLets p (3 + k.inst) := Chip.reports_same r (fun b => b.regLets p (3 + k.inst)) fun _ => rfl
  have held : d.accumHeld k k.inst = c.accumHeld k k.inst := Chip.reports_same r (fun b => b.accumHeld k k.inst) fun _ => rfl
  exact
    { src := by rw [src]; exact h.src
      dst := by rw [dst]; exact h.dst
      noDelta := h.noDelta
      noZero := h.noZero
      noSkip := h.noSkip
      srcLets := by rw [src, lets]; exact h.srcLets
      dstLets := by rw [dst, lets]; exact h.dstLets
      regLets := fun host => reg.trans (h.regLets host)
      unheld := fun on => held.trans (h.unheld on) }

/-- No earlier accumulation and no regulator holds such a move (R130, R319). -/
theorem Chip.movesLocally.free {c : Chip} {p : Nat} {k : Cmd} (h : c.movesLocally p k) :
    ((bitAt (k.fld 16 1) 2 || bitAt (k.fld 16 1) 3) && c.accumHeld k k.inst) = false := by
  simpa [h.noZero] using h.unheld

theorem Chip.movesLocally.passes {c : Chip} {p : Nat} {k : Cmd} (h : c.movesLocally p k) :
    (!(c.dramLets p (c.moveSrc p k).runs && c.dramLets p (c.moveDst p k).runs) || decide (k.tclass = 5) && !c.regLets p (3 + k.inst)) = false := by
  simpa [h.srcLets, h.dstLets] using h.regLets

/-- A local move meets good lines, writes as `moveWrites` says, opens rows, charges its regulators, counts, may enter its destination in the
residency table, and ends with SUCCESS. -/
theorem dmaMove_wrote {c : Chip} {x : Ctx} (hl : x.mem.lines = []) (he : x.ecc = []) {env : Env} (hn : env.upsets = []) {k : Cmd}
    (h : c.movesLocally (c.own k) k) : ∃ r d a, Chip.Outputs x.fuse c r [] ∧ Chip.dmaMove x env c k = d.endCmd { k with acct := a } 0 0 ∧
      Chip.Wrote x.fuse (r.moveWrites x k (c.moveSrc (c.own k) k) (c.moveDst (c.own k) k)).1 d [] := by
  have found : Chip.reports c (c.meets x env k) := meets_reports c x hn k
  have source := (Chip.Alike.of_reports found).moveSrc (c.own k) k
  have dest := (Chip.Alike.of_reports found).moveDst (c.own k) k
  have met_moves := h.of_reports found
  unfold Chip.dmaMove
  rw [hn, upset_none]
  extract_lets +onlyGivenNames p met y mode s d t tag hull off cell hit srcRuns dstRuns da delta idxRuns tileRuns
  have miss : hit = false := by simp only [hit, mode, h.noSkip, Bool.false_and]
  have plain : delta = none := by simp only [delta, mode, h.noDelta, Bool.false_and, if_neg Bool.false_ne_true]
  have noIndex : idxRuns = [] := by simp only [idxRuns, plain, Option.elim]
  have noTiles : tileRuns = [] := by simp only [tileRuns, plain, Option.elim]
  have sources : srcRuns = s.runs := if_neg (Bool.eq_false_iff.mp met_moves.src)
  have dests : dstRuns = d.runs := if_neg (Bool.eq_false_iff.mp met_moves.dst)
  have free : ((bitAt mode 2 || bitAt mode 3) && met.accumHeld k cell) = false := met_moves.free
  have passes : (!(met.dramLets p (srcRuns ++ idxRuns ++ tileRuns) && met.dramLets p dstRuns) ||
      decide (k.tclass = 5) && !met.regLets p (3 + cell)) = false := by
    rw [noIndex, noTiles, sources, dests, List.append_nil, List.append_nil]
    exact met_moves.passes
  -- The move goes on: nothing holds it, its ends are local, and what it reads is good.
  rw [free, passes, miss, plain, noIndex, noTiles]
  clear_value delta idxRuns tileRuns hit
  simp -zeta only [Bool.false_eq_true, if_false]
  rw [show s.host = false from met_moves.src, show d.host = false from met_moves.dst]
  simp -zeta only [Bool.false_eq_true, if_false]
  extract_lets +onlyGivenNames c1 idx fail
  have good : fail = none := rfl
  rw [good]
  dsimp -zeta only
  extract_lets +onlyGivenNames c2 rmw lines src
  rw [onRead_off he]
  dsimp -zeta only
  extract_lets +onlyGivenNames poisoned
  have clean : poisoned = [] := List.filter_eq_nil_iff.mpr fun a _ => by rw [lineHealth_good c2 hl]; decide
  rw [clean, readLines_good x _ _ c2 hl he]
  simp -zeta only [coverRuns_good _ _ _ hl, List.foldl_nil, List.isEmpty_nil, Bool.or_true, Bool.not_true, Bool.false_eq_true, if_false, if_true]
  extract_lets +onlyGivenNames lr
  dsimp -zeta only [lr]
  extract_lets r rd rows ins inBytes outBytes nf zero unzeroed written lined charged counted reported beats j
  -- What it does beside writing stages nothing.
  have ready : Chip.Outputs x.fuse c r [] := (Chip.Outputs.meets c x hn k).then_quiet (.quiets (fun c a => .tierLine c a false) _ _)
  have same : unzeroed = r := if_neg (Bool.eq_false_iff.mp h.noZero)
  have moved : written = (r.moveWrites x k s d).1 := by
    dsimp only [written]
    rw [same]
    rfl
  have opened : Chip.Wrote x.fuse written lined [] := .of_outputs (tierWrites_outputs _ _ _)
  have charges : Chip.Wrote x.fuse lined charged [] := (dramCharge_wrote _ _ _ _).trans (dramCharge_wrote _ _ _ _)
  have counts : Chip.Wrote x.fuse charged reported [] := by
    dsimp only [reported]
    split
    · exact (Chip.Wrote.of_outputs (.count _ _ _ _)).trans (.regTake _ _ _ _)
    · exact .of_outputs ((Chip.Outputs.count _ _ _ _).trans (.count _ _ _ _))
  have entered : Chip.Wrote x.fuse reported _ [] := .of_outputs (addResid_outputs x.fuse reported cell p tag off hull.2)
  have quiet : Chip.Wrote x.fuse (r.moveWrites x k s d).1 reported [] := moved ▸ opened.trans (charges.trans counts)
  refine ⟨r, _, _, ready, rfl, ?_⟩
  rw [← source, ← dest]
  split
  · exact quiet.trans entered
  · exact quiet

/-- The rows and aux bytes that a move without ACCUM writes (R135). -/
def Chip.moveOuts (c : Chip) (x : Ctx) (k : Cmd) (s d : MoveEnd) : List (Nat × List Byte) :=
  (List.range d.rows).flatMap (fun i =>
    let q := moveRow s d (c.rd x) (bitAt (k.fld 16 1) 0) (k.sfld 18) (k.sfld 19) none i
    [(d.row i, q.1), (d.aux + i * d.auxRow, q.2.1)])

/-- Without ACCUM the rows are written. -/
theorem moveWrites_outputs (c : Chip) (x : Ctx) {k : Cmd} (h : bitAt (k.fld 16 1) 2 = false) (s d : MoveEnd) :
    Chip.Outputs x.fuse c (c.moveWrites x k s d).1 (c.moveOuts x k s d) := by
  unfold Chip.moveWrites
  extract_lets rows nf
  rw [if_neg (Bool.eq_false_iff.mp h)]
  rw [show c.moveOuts x k s d = (List.range d.rows).flatMap (fun i =>
      [(d.row i, (rows.getD i ([], [], false)).1), (d.aux + i * d.auxRow, (rows.getD i ([], [], false)).2.1)]) from
    List.flatMap_congr fun i hi => by rw [show rows.getD i ([], [], false) = _ from getD_map_range _ (List.mem_range.mp hi) _]]
  refine .foldl (fun e i => ?_) _ c
  exact (Chip.Outputs.wr e x _ _).trans (.wr _ x _ _)

/-! ### Additions that see those before them -/

/-- Sums depend on the bytes of their words only. -/
theorem addedAt_congr {c d : Chip} {x y : Ctx} {cell off : Nat} {vs : List Nat}
    (h : ∀ i < 4 * vs.length, d.rd y (wideAddr cell (4 * (off / 4)) + i) = c.rd x (wideAddr cell (4 * (off / 4)) + i)) :
    d.addedAt y cell off vs = c.addedAt x cell off vs := by
  have word (j : Nat) (hj : j < vs.length) :
      d.rdNat y (wideAddr cell (4 * (off / 4)) + 4 * j) 4 = c.rdNat x (wideAddr cell (4 * (off / 4)) + 4 * j) 4 := by
    refine congrArg leNat (List.map_congr_left fun b hb => ?_)
    have := List.mem_range.mp hb
    rw [Nat.add_assoc]
    exact h _ (by omega)
  refine congrArg (fun l : List (List Byte) => (wideAddr cell (4 * (off / 4)), l.flatten)) (List.map_congr_left fun j hj => ?_)
  rw [word j (List.mem_range.mp hj)]

/-- `outs` covers the runs of `sums`, and is `sums` where these are stored memory without a common byte. -/
structure Chip.Agrees (c : Chip) (fz : Fuses) (sums outs : List (Nat × List Byte)) : Prop where
  runs : runsOf outs = runsOf sums
  same : (∀ o ∈ sums, ∀ i < o.2.length, mapped (o.1 + i)) → c.separate fz (runsOf sums) → outs = sums

/-- Runs that agree with those stored are stored too: what overlapping runs hold is left unsaid. -/
theorem State.stores_agrees {s t : State} {sums outs : List (Nat × List Byte)} (h : s.stores t outs []) (ha : s.chip.Agrees s.fuse sums outs) :
    s.stores t sums [] := by
  intro stored
  have mapped : ∀ o ∈ sums, ∀ i < o.2.length, mapped (o.1 + i) := fun o ho i hi =>
    stored_mapped (stored (o.1, o.2.length) (List.mem_map.mpr ⟨o, ho, rfl⟩) (by omega)) hi
  obtain ⟨kept, read⟩ := h (ha.runs ▸ stored)
  refine ⟨ha.runs ▸ kept, fun separate => ?_⟩
  rw [← ha.same mapped separate]
  exact read (ha.runs ▸ separate)

/-- A row that shares no byte with rows staged before it finds its words as memory holds them. -/
theorem addedAt_now {c d : Chip} {x : Ctx} {sums : List (Nat × List Byte)} (hs : c.staged = []) (hw : x.mem.wf = true) (h : Chip.Wrote x.fuse c d sums)
    (hm : ∀ o ∈ sums, ∀ i < o.2.length, mapped (o.1 + i)) {cell off : Nat} {vs : List Nat}
    (apart : ∀ o ∈ sums, ∀ i < o.2.length, ∀ j < 4 * vs.length, c.key x.fuse (o.1 + i) ≠ c.key x.fuse (wideAddr cell (4 * (off / 4)) + j)) :
    d.addedAt (x.now d) cell off vs = c.addedAt x cell off vs := by
  refine addedAt_congr fun j hj => ?_
  have stored : (x.now d).mem = x.mem.commit (c.stagedOf x.fuse sums) := by
    rw [Ctx.now, h.staged_of, hs]
    rfl
  rw [h.rd, Chip.rd, stored]
  exact commit_stagedOf_kept hw hm fun o ho i hi => apart o ho i hi j hj

/-- Rows of values added one after the other, each to the words as the step has left them by then. -/
theorem wideAddsNow_wrote {c : Chip} {x : Ctx} (hs : c.staged = []) (hw : x.mem.wf = true) (cell n : Nat) (off : Nat → Nat) (vs : Nat → List Nat)
    (nf : Bool) : ∃ outs, Chip.Wrote x.fuse c ((List.range n).foldl (fun (acc : Chip × Bool) i =>
        ((acc.1.wideAdd (x.now acc.1) cell (off i / 4) (vs i)).1, acc.2 || (acc.1.wideAdd (x.now acc.1) cell (off i / 4) (vs i)).2)) (c, nf)).1 outs ∧
      c.Agrees x.fuse ((List.range n).map (fun i => c.addedAt x cell (off i) (vs i))) outs := by
  refine foldl_invariant (fun front (acc : Chip × Bool) => ∃ outs, Chip.Wrote x.fuse c acc.1 outs ∧
    c.Agrees x.fuse (front.map (fun i => c.addedAt x cell (off i) (vs i))) outs) ⟨[], .refl _ c, rfl, fun _ _ => rfl⟩ (fun front i acc before => ?_) _
  obtain ⟨outs, wrote, runs, same⟩ := before
  have row : Chip.Wrote x.fuse acc.1 _ [acc.1.addedAt (x.now acc.1) cell (off i) (vs i)] := wideAdd_wrote acc.1 (x.now acc.1) cell (off i / 4) (vs i)
  refine ⟨_, wrote.trans row, ?_, fun hm separate => ?_⟩
  · simp only [runsOf, List.map_append, List.map_cons, List.map_nil] at runs ⊢
    rw [runs]
    simp only [Chip.addedAt, wideSums_length]
  · rw [List.map_append, runsOf, List.map_append] at separate
    obtain ⟨pairs, inner⟩ := separate
    obtain ⟨front_apart, -, cross⟩ := List.pairwise_append.mp pairs
    rw [List.map_append] at hm ⊢
    have earlier : outs = front.map (fun i => c.addedAt x cell (off i) (vs i)) :=
      same (fun o ho => hm o (List.mem_append_left _ ho)) ⟨front_apart, fun r hr => inner r (List.mem_append_left _ hr)⟩
    rw [earlier] at wrote ⊢
    refine congrArg (fun o => front.map (fun i => c.addedAt x cell (off i) (vs i)) ++ [o])
      (addedAt_now hs hw wrote (fun o ho => hm o (List.mem_append_left _ ho)) fun o ho j hj l hl => ?_)
    refine cross (o.1, o.2.length) (List.mem_map.mpr ⟨o, ho, rfl⟩) _ (List.mem_singleton.mpr rfl) j hj l ?_
    rwa [← wideSums_length c x _ (vs i)] at hl

/-- The values that a move with ACCUM adds from row `i` (R129, R135). -/
def Chip.moveWords (c : Chip) (x : Ctx) (k : Cmd) (s d : MoveEnd) (i : Nat) : List Nat :=
  (chunks 4 (4 * d.rowLen + 1) (moveRow s d (c.rd x) (bitAt (k.fld 16 1) 0) (k.sfld 18) (k.sfld 19) none i).1).map leNat

/-- The rows that it adds. -/
def Chip.moveSums (c : Chip) (x : Ctx) (k : Cmd) (s d : MoveEnd) : List (Nat × List Byte) :=
  (List.range d.rows).map (fun i => c.addedAt x k.inst (d.row i - wideAddr k.inst 0) (c.moveWords x k s d i))

/-- With ACCUM they are added. -/
theorem moveWrites_adds {c : Chip} {x : Ctx} (hs : c.staged = []) (hw : x.mem.wf = true) {k : Cmd} (h : bitAt (k.fld 16 1) 2 = true) (s d : MoveEnd) :
    ∃ outs, Chip.Wrote x.fuse c (c.moveWrites x k s d).1 outs ∧ c.Agrees x.fuse (c.moveSums x k s d) outs := by
  unfold Chip.moveWrites
  extract_lets rows nf
  rw [if_pos h]
  rw [show c.moveSums x k s d = (List.range d.rows).map (fun i => c.addedAt x k.inst (d.row i - wideAddr k.inst 0)
      ((chunks 4 (4 * d.rowLen + 1) (rows.getD i ([], [], false)).1).map leNat)) from
    List.map_congr_left fun i hi => by
      rw [show rows.getD i ([], [], false) = _ from getD_map_range _ (List.mem_range.mp hi) _]
      rfl]
  exact wideAddsNow_wrote hs hw k.inst d.rows (fun i => d.row i - wideAddr k.inst 0) _ nf

/-! ### The statement -/

/-- A copy carries the source's bytes over (R135). -/
theorem moveRow_copy {s d : MoveEnd} {t : Bool} {ts td : Int} (h : s.fmt = d.fmt ∧ ts = td ∧ t = false) (rd : Nat → Byte) (i : Nat) :
    moveRow s d rd t ts td none i = ((List.range s.rowBytes).map (fun b => rd (s.row i + b)),
      (List.range s.auxRow).map (fun b => rd (s.aux + i * s.auxRow + b)), false) := by
  obtain ⟨fmt, scale, straight⟩ := h
  simp only [moveRow, fmt, scale, straight, decide_true, Bool.not_false, Bool.and_self, Option.isNone_none, if_true]

theorem Chip.Alike.moveOuts {c d : Chip} (h : c.Alike d) (x : Ctx) (k : Cmd) (s e : MoveEnd) : d.moveOuts x k s e = c.moveOuts x k s e := by
  simp only [Chip.moveOuts, h.rd]

theorem Chip.Alike.moveSums {c d : Chip} (h : c.Alike d) (x : Ctx) (k : Cmd) (s e : MoveEnd) : d.moveSums x k s e = c.moveSums x k s e := by
  simp only [Chip.moveSums, Chip.moveWords, h.rd, h.addedAt]

/-- Agreement on what is added does not depend on reports. -/
theorem Chip.Alike.agrees {c d : Chip} (h : c.Alike d) {fz : Fuses} {sums outs : List (Nat × List Byte)} (ha : d.Agrees fz sums outs) :
    c.Agrees fz sums outs :=
  ⟨ha.runs, fun hm separate => ha.same hm (by simpa only [Chip.separate, h.key] using separate)⟩

/-- Settles O31: a move that nothing holds stages its rows, or the sums of the rows it adds, and sets and reports nothing that the statement
speaks of; the staged runs are then stored. Rows added share no byte where the statement says what they hold, so none sees another. -/
theorem localMoves : Obligations.LocalMoves := by
  intro s id env k h hc hn hk p mode src dst rd srcLocal dstLocal noDelta noZero noSkip srcLets dstLets regLets row copy bytes aux
  have clear : s.ctx.ecc = [] := State.calm_ecc hc
  refine ⟨fun off => ?_, fun on held => ?_⟩
  · have moves : s.chip.movesLocally p k :=
      ⟨srcLocal, dstLocal, noDelta, noZero, noSkip, srcLets, dstLets, regLets, fun on => absurd on (Bool.eq_false_iff.mp off)⟩
    obtain ⟨r, d, a, ready, ended, quiet⟩ := dmaMove_wrote (x := s.ctx) hc.1 clear hn moves
    have outputs := (Chip.Wrote.of_outputs (ready.trans (moveWrites_outputs r s.ctx off src dst))).then_quiet quiet
    obtain ⟨t, step, fuse, pending, settled, stored, alike, -⟩ := onOp_wrote h clear hk (body := fun x => Chip.dmaMove x env) ended outputs
    refine ⟨t, step, fuse, pending, settled, alike.same Chip.gates fun _ => rfl, ?_⟩
    have rows : (List.range dst.rows).flatMap (fun i => [(dst.row i, bytes i), (dst.aux + i * dst.auxRow, aux i)]) = s.chip.moveOuts s.ctx k src dst := by
      refine List.flatMap_congr fun i _ => ?_
      dsimp only [bytes, aux, row]
      split
      · rw [moveRow_copy ‹_›]
        rfl
      · rfl
    rwa [rows, ← ready.toAlike.moveOuts]
  · have moves : s.chip.movesLocally p k :=
      ⟨srcLocal, dstLocal, noDelta, noZero, noSkip, srcLets, dstLets, regLets, fun _ => held⟩
    obtain ⟨r, d, a, ready, ended, quiet⟩ := dmaMove_wrote (x := s.ctx) hc.1 clear hn moves
    have unstaged : r.staged = [] := ready.staged.trans (congrArg (· ++ _) (State.sound_unstaged h))
    obtain ⟨outs, wrote, agrees⟩ := moveWrites_adds unstaged (x := s.ctx) h.1 on src dst
    have outputs := ((Chip.Wrote.of_outputs ready).trans wrote).then_quiet quiet
    obtain ⟨t, step, fuse, pending, settled, stored, alike, -⟩ := onOp_wrote h clear hk (body := fun x => Chip.dmaMove x env) ended outputs
    refine ⟨t, step, fuse, pending, settled, alike.same Chip.gates fun _ => rfl, ?_⟩
    rw [ready.toAlike.moveSums] at agrees
    exact State.stores_agrees stored (ready.toAlike.agrees agrees)

end Sys2Proof.Machine
end

section
/-! SUPPORT. A move to a resident destination (R142): it counts a hit and ends, and the statement about it. -/

namespace Sys2Proof.Machine

/-! ### Counters of one page -/

theorem listSet_length {α : Type} (l : List α) (n : Nat) (x : α) : (listSet l n x).length = l.length := by
  induction l generalizing n with
  | nil => rfl
  | cons y l ih =>
    cases n with
    | zero => rfl
    | succ n => exact congrArg (· + 1) (ih n)

/-- Counter `n` of a page is in `d` what it is in `c`. -/
structure Chip.SameCtr (f n : Nat) (c d : Chip) : Prop where
  size : (d.hdr f).ctr.length = (c.hdr f).ctr.length
  value : (d.hdr f).ctr.getD n 0 = (c.hdr f).ctr.getD n 0

namespace Chip.SameCtr

variable {f n : Nat} {c d e : Chip}

theorem of_headers (h : d.headers = c.headers) : Chip.SameCtr f n c d := by
  have same : d.hdr f = c.hdr f := by rw [Chip.hdr, h, Chip.hdr]
  exact ⟨by rw [same], by rw [same]⟩

theorem refl (c : Chip) : Chip.SameCtr f n c c := ⟨rfl, rfl⟩

theorem trans (h : Chip.SameCtr f n c d) (k : Chip.SameCtr f n d e) : Chip.SameCtr f n c e := ⟨k.size.trans h.size, k.value.trans h.value⟩

/-- A header replaced by one with the same counter. -/
theorem putHdr (c : Chip) {g : Nat} {h : Header}
    (hh : g = f → h.ctr.length = (c.hdr g).ctr.length ∧ h.ctr.getD n 0 = (c.hdr g).ctr.getD n 0) : Chip.SameCtr f n c (c.putHdr g h) := by
  by_cases hg : g = f
  · subst hg
    exact ⟨by rw [Chip.hdr_putHdr, if_pos rfl]; exact (hh rfl).1, by rw [Chip.hdr_putHdr, if_pos rfl]; exact (hh rfl).2⟩
  · constructor <;> rw [Chip.hdr_putHdr, if_neg hg]

/-- Another counter set. -/
theorem putCtr (c : Chip) {g m v : Nat} {h : Header} (hh : h.ctr = listSet (c.hdr g).ctr m v) (ho : g ≠ f ∨ m ≠ n) :
    Chip.SameCtr f n c (c.putHdr g h) := by
  refine putHdr c fun hg => ?_
  have other : n ≠ m := (ho.resolve_left (fun h => h hg)).symm
  exact ⟨by rw [hh, listSet_length], by rw [hh, getD_listSet, if_neg fun h => other h.1]⟩

theorem foldl {α : Type} {g : Chip → α → Chip} (l : List α) (hg : ∀ c, ∀ a ∈ l, Chip.SameCtr f n c (g c a)) (c : Chip) :
    Chip.SameCtr f n c (l.foldl g c) := by
  induction l generalizing c with
  | nil => exact refl c
  | cons a l ih => exact (hg c a List.mem_cons_self).trans (ih (fun c b hb => hg c b (List.mem_cons_of_mem _ hb)) _)

end Chip.SameCtr

/-- A notice that raises no counter `n` of page `f` itself: it counts another, or its vector is of a function whose port's page is another. -/
def Notice.spares (f n : Nat) : Notice → Prop
  | .count g m _ => g ≠ f ∨ m ≠ n
  | .vector fn _ => 0x010 + fn / 32 ≠ f
  | _ => True

/-- Such a notice leaves the counter, on a page that is not a port's: what it leads to counts on the pages of ports (R351). -/
theorem notice_sameCtr {f n : Nat} (hf : ∀ fn < 64, 0x010 + fn / 32 ≠ f) (fuel : Nat) {e : Notice} (he : e.spares f n) (c : Chip) :
    Chip.SameCtr f n c (notice fuel e c) := by
  induction fuel generalizing e c with
  | zero => exact .refl c
  | succ fuel ih =>
    cases e with
    | count g m k =>
      simp only [notice]
      split_ifs
      · exact .putCtr c rfl he
      · exact .putCtr c rfl he
      · exact (Chip.SameCtr.putCtr c rfl he).trans (ih (e := .fire g 1) trivial _)
    | fire g src =>
      have fired (i : Nat) : Chip.SameCtr f n c ((c.putHdr g { c.hdr g with irqRaw := (c.hdr g).irqRaw ||| (1#32 <<< src) }).traceAppend g src i) :=
        (Chip.SameCtr.putHdr c (h := { c.hdr g with irqRaw := (c.hdr g).irqRaw ||| (1#32 <<< src) }) fun _ => ⟨rfl, rfl⟩).trans (.of_headers rfl)
      simp only [notice]
      split_ifs
      · exact (fired _).trans (ih (e := .rise g) trivial _)
      · exact (fired _).trans (ih (e := .rise g) trivial _)
      · exact fired _
      · exact fired _
    | rise g =>
      simp only [notice]
      split
      · exact .refl c
      · refine .foldl _ (fun c fn hfn => ?_) c
        split
        · exact ih (e := .vector fn _) (hf fn (List.mem_range.mp hfn)) _
        · exact .refl c
    | vector fn v =>
      have port (m : Nat) (d : Chip) : Chip.SameCtr f n d (notice fuel (.count (0x010 + fn / 32) m 1) d) :=
        ih (e := .count (0x010 + fn / 32) m 1) (.inl he) d
      have sent (o : Out) (v : List (Nat × Nat)) : Chip.SameCtr f n c (({ c with sentVecs := v } : Chip).send o) := .of_headers rfl
      simp only [notice]
      by_cases hl : (!(c.port (fn / 32)).linkUp) = true
      · rw [if_pos hl]; exact .refl c
      rw [if_neg hl]
      by_cases hv : (if fn % 32 = 0 then 2048 else 64) ≤ v
      · rw [if_pos hv]; exact port 7 c
      rw [if_neg hv]
      by_cases hm : (!(c.fnRegs fn).unmasked.contains v) = true
      · rw [if_pos hm]
        split <;> exact .of_headers rfl
      rw [if_neg hm]
      split
      · exact .of_headers rfl
      · exact (sent _ _).trans (port 3 _)

/-- Another counter raised leaves a counter of a page that is not a port's. -/
theorem count_sameCtr {f n : Nat} (hf : ∀ fn < 64, 0x010 + fn / 32 ≠ f) (c : Chip) (g : Nat) {m : Nat} (hm : m ≠ n) (k : Nat) :
    Chip.SameCtr f n c (c.count g m k) := notice_sameCtr hf _ (e := .count g m k) (.inr hm) c

/-- What a cell command meets is counted in CTR2 and CTR3 of its pages alone (R125). -/
theorem meets_sameCtr {f n : Nat} (hf : ∀ fn < 64, 0x010 + fn / 32 ≠ f) (h2 : 2 ≠ n) (h3 : 3 ≠ n) (c : Chip) (x : Ctx) (env : Env) (k : Cmd) :
    Chip.SameCtr f n c (c.meets x env k) := by
  have upset : Chip.SameCtr f n c (c.upset x env.upsets) := .of_headers rfl
  exact upset.trans (.foldl _ (fun c b _ => (count_sameCtr hf c _ h2 _).trans (count_sameCtr hf _ _ h3 _)) _)

/-- A raised counter (R413). -/
theorem count_value {f n : Nat} (hf : ∀ fn < 64, 0x010 + fn / 32 ≠ f) (c : Chip) (k : Nat) (hn : n < (c.hdr f).ctr.length) :
    ((c.count f n k).hdr f).ctr.getD n 0 = satAdd 64 ((c.hdr f).ctr.getD n 0) k := by
  have put (h : Header) (v : Nat) (hh : h.ctr = listSet (c.hdr f).ctr n v) : ((c.putHdr f h).hdr f).ctr.getD n 0 = v := by
    rw [Chip.hdr_putHdr, if_pos rfl, hh, getD_listSet, if_pos ⟨rfl, hn⟩]
  show ((notice (11 + 1) (.count f n k) c).hdr f).ctr.getD n 0 = min _ _
  rw [notice]
  dsimp only
  split_ifs with fits
  · rw [put _ _ rfl, min_eq_left (Nat.le_sub_one_of_lt fits)]
  · rw [put _ _ rfl, min_eq_right (by omega)]
  · rw [(notice_sameCtr hf 11 (e := .fire f 1) trivial _).value, put _ _ rfl, min_eq_right (by omega)]

/-! ### A hit -/

/-- Traffic over no run may proceed. -/
theorem dramLets_nil (c : Chip) (p : Nat) : c.dramLets p [] = true := rfl

/-- The destination of a move has an entry of the same partition, tag, offset and length (R142). -/
def Chip.resident (c : Chip) (p : Nat) (k : Cmd) : Prop :=
  ∃ r ∈ tabGet [] c.tiers.resid k.inst,
    r.part = p ∧ r.tag = k.fld 30 2 ∧ r.off = (c.moveDst p k).hull.1 % 0x1000000 ∧ r.len = (c.moveDst p k).hull.2

/-- A hit counted after what a command meets: nothing is written, residency entries aside, and CTR4 of the page has risen. -/
theorem hit_counted (c : Chip) {x : Ctx} {env : Env} (hn : env.upsets = []) (k : Cmd) (hi : k.inst < 96) (l : Tab (List Resid)) :
    ∃ d, d = ({ c.meets x env k with tiers.resid := l } : Chip).count (0x200 + k.inst) 4 1 ∧ Chip.Outputs x.fuse c d [] ∧
      ((c.hdr (0x200 + k.inst)).ctr.length = 8 →
        (d.hdr (0x200 + k.inst)).ctr.getD 4 0 = satAdd 64 ((c.hdr (0x200 + k.inst)).ctr.getD 4 0) 1) := by
  have far : ∀ fn < 64, 0x010 + fn / 32 ≠ 0x200 + k.inst := by omega
  have moved : Chip.Outputs x.fuse (c.meets x env k) { c.meets x env k with tiers.resid := l } [] := .of_alike ⟨rfl, fun _ => rfl⟩ rfl
  have before : Chip.SameCtr (0x200 + k.inst) 4 c { c.meets x env k with tiers.resid := l } :=
    (meets_sameCtr far (by decide) (by decide) c x env k).trans (.of_headers rfl)
  refine ⟨_, rfl, ((Chip.Outputs.meets c x hn k).trans moved).trans (.count _ _ _ _), fun size => ?_⟩
  rw [← before.value]
  exact count_value far _ 1 (by rw [before.size, size]; decide)

/-- A move with SKIP_IF_RESIDENT to such a destination, if nothing holds it, counts a hit and ends; residency entries change their order. -/
theorem dmaMove_hit {c : Chip} {x : Ctx} {env : Env} (hn : env.upsets = []) {k : Cmd} (skip : bitAt (k.fld 16 1) 4 = true) (class_ : k.tclass = 4)
    (unheld : bitAt (k.fld 16 1) 2 = true ∨ bitAt (k.fld 16 1) 3 = true → c.accumHeld k k.inst = false)
    (ends : ∀ e ∈ [c.moveSrc (c.own k) k, c.moveDst (c.own k) k], e.host = false → c.dramLets (c.own k) e.runs = true)
    (entry : c.resident (c.own k) k) :
    ∃ l, Chip.dmaMove x env c k =
      (({ c.meets x env k with tiers.resid := l } : Chip).count (0x200 + k.inst) 4 1).endCmd k 0 0 := by
  have found : Chip.reports c (c.meets x env k) := meets_reports c x hn k
  have lets (runs : List (Nat × Nat)) : (c.meets x env k).dramLets (c.own k) runs = c.dramLets (c.own k) runs :=
    Chip.reports_same found (fun b => b.dramLets (c.own k) runs) fun _ => rfl
  unfold Chip.dmaMove
  rw [hn, upset_none]
  extract_lets +onlyGivenNames p met y mode s d t tag hull off cell hit srcRuns dstRuns da delta idxRuns tileRuns
  have source : s = c.moveSrc p k := (Chip.Alike.of_reports found).moveSrc p k
  have dest : d = c.moveDst p k := (Chip.Alike.of_reports found).moveDst p k
  have hits : hit = true := by
    obtain ⟨r, hr, part, tagged, offset, length⟩ := entry
    have listed : r ∈ tabGet [] met.tiers.resid cell := by
      rwa [show met.tiers = c.tiers from Chip.reports_same found Chip.tiers fun _ => rfl]
    rw [← show d = c.moveDst (c.own k) k from dest] at offset length
    dsimp only [hit, mode]
    rw [skip, Bool.true_and, List.any_eq_true]
    refine ⟨r, listed, ?_⟩
    rw [decide_eq_true (show r.part = p from part), decide_eq_true (show r.tag = tag from tagged), decide_eq_true (show r.off = off from offset),
      decide_eq_true (show r.len = hull.2 from length)]
    rfl
  have plain : delta = none := by simp only [delta, hits, Bool.not_true, Bool.and_false, if_neg Bool.false_ne_true]
  have free : ((bitAt mode 2 || bitAt mode 3) && met.accumHeld k cell) = false := by
    rw [(Chip.Alike.of_reports found).accumHeld, Bool.and_eq_false_imp, Bool.or_eq_true]
    exact unheld
  have srcLets : met.dramLets p (srcRuns ++ idxRuns ++ tileRuns) = true := by
    rw [show idxRuns = [] by simp only [idxRuns, plain, Option.elim], show tileRuns = [] by simp only [tileRuns, plain, Option.elim],
      List.append_nil, List.append_nil]
    dsimp only [srcRuns]
    split
    · exact dramLets_nil met p
    · next away => exact (lets _).trans (source ▸ ends _ List.mem_cons_self (source ▸ Bool.eq_false_iff.mpr away))
  have dstLets : met.dramLets p dstRuns = true := by
    dsimp only [dstRuns]
    split
    · exact dramLets_nil met p
    · next away => exact (lets _).trans (dest ▸ ends _ (List.mem_cons_of_mem _ List.mem_cons_self) (dest ▸ Bool.eq_false_iff.mpr away))
  rw [free, srcLets, dstLets, hits, if_neg Bool.false_ne_true, if_neg (by simp [class_]), if_pos rfl]
  exact ⟨_, rfl⟩

/-- A step of a running command that stages nothing leaves memory as it was, whatever is armed. -/
theorem onOp_idle {s : State} (h : s.sound) {id op : Nat} {k : Cmd} (hk : s.chip.runs id op k) {body : Ctx → Chip → Cmd → Chip}
    (hs : (body s.ctx s.chip k).staged = []) (p : State → Prop) :
    nextWith (onOp id op body s) p ↔ p { chip := (body s.ctx s.chip k).between, mem := s.mem, fuse := s.fuse, pending := s.pending } := by
  rw [onOp, onStep_next, State.sound_staged h, runOp_runs _ hk, eccStored_idle hs, hs, Memory.commit_nil]

/-! ### The statement -/

/-- Settles O32: the move finds its entry, stages nothing and ends with its account as it was. CTR4 of its page counts the hit alone: what its
banks met is counted in CTR2 and CTR3, and what a report leads to on the pages of ports. -/
theorem residentMove : Obligations.ResidentMove := by
  intro s id env k h hn hk p src dst f skip class_ inst unheld ends entry
  obtain ⟨l, ended⟩ := dmaMove_hit (x := s.ctx) hn skip class_ unheld ends entry
  obtain ⟨d, counted, quiet, value⟩ := hit_counted s.chip (x := s.ctx) hn k inst l
  rw [← counted] at ended
  have number : k.id = id := Chip.cmd?_id hk.1
  have running : d.cmd? id = some k := (Chip.cmd?_congr (quiet.toAlike.same Chip.cmds fun _ => rfl) id).trans hk.1
  have ending : (d.endCmd k 0 0).cmd? id = some { k with phase := .ended, status := 0, detail := 0 } :=
    Chip.cmd?_putCmd running (j := { k with phase := .ended, status := 0, detail := 0 }) number
  refine (onOp_idle h hk (body := fun x => Chip.dmaMove x env) ?_ _).mpr ?_
  · rw [ended]
    exact quiet.staged.trans (congrArg (· ++ _) (State.sound_unstaged h))
  · rw [ended]
    refine ⟨rfl, rfl, quiet.toAlike.settles hk.1 number 0 0, fun j hj => ?_, value⟩
    obtain rfl := Option.some.inj (ending.symm.trans hj)
    rfl

end Sys2Proof.Machine
end

section
/-! SUPPORT. GRADBUF_ZERO and RESID_DROP (R131, R141, R143): what they write and drop, and the statement about them. -/

namespace Sys2Proof.Machine

/-- A table has nothing at a key that was removed. -/
theorem tabGet_tabDel {α : Type} (d : α) (t : Tab α) (i : Nat) : tabGet d (tabDel t i) i = d :=
  tabGet_of_not_mem d _ i fun _ hg => of_decide_eq_true (List.mem_filter.mp hg).2

/-- GRADBUF_ZERO stages its zeros and ends; over a whole buffer it removes its GRADBUF_STAT (R131, R143). -/
theorem gradZero_wrote {c : Chip} (x : Ctx) {k : Cmd} (h : c.accumHeld k k.inst = false) :
    ∃ d a, Chip.gradZero x c k = d.endCmd { k with acct := a } 0 0 ∧
      Chip.Wrote x.fuse c d [(wideAddr k.inst (k.fld 16 4), List.replicate (k.fld 20 4) 0)] ∧
      (k.fld 16 4 = 0 → k.fld 20 4 = 0x200000 → tabGet (false, false) d.tiers.gradStat k.inst = (false, false)) ∧
      { d with staged := [], cmds := [], tiers := {} } = { c with staged := [], cmds := [], tiers := {} } := by
  unfold Chip.gradZero
  extract_lets cell off len written tiers cleared
  rw [if_neg (Bool.eq_false_iff.mp h)]
  refine ⟨cleared, _, rfl, ?_, ?_, ?_⟩
  · have zeros : Chip.Wrote x.fuse c written _ := .of_outputs (.wr c x (wideAddr cell off) (List.replicate len 0))
    refine zeros.then_quiet (.of_core ?_)
    dsimp only [cleared]
    split <;> rfl
  · intro start whole
    dsimp only [cleared]
    rw [if_pos (by rw [show off = 0 from start, show len = 0x200000 from whole]; rfl)]
    exact tabGet_tabDel _ _ _
  · obtain ⟨l, dropped⟩ := Chip.dropResid_chip c (wideAddr cell off) (List.replicate len (0 : Byte)).length
    have rest : { written with staged := [] } = { c.dropResid (wideAddr cell off) (List.replicate len (0 : Byte)).length with staged := [] } :=
      Chip.wr_chip c x (wideAddr cell off) (List.replicate len 0)
    rw [dropped] at rest
    have same : { cleared with staged := [], cmds := [], tiers := {} } = { written with staged := [], cmds := [], tiers := {} } := by
      dsimp only [cleared]
      split <;> rfl
    exact same.trans (congrArg (fun b : Chip => { b with cmds := [], tiers := {} }) rest)

/-- A sound state's chip is as it is between steps, commands and tiers aside too. -/
theorem between_rest {s : State} (h : s.sound) : { s.chip.between with cmds := [], tiers := {} } = { s.chip with cmds := [], tiers := {} } := by
  rw [State.sound_staged h]

/-- RESID_DROP changes residency entries and ends (R143). -/
theorem residDrop_settles {c : Chip} {id : Nat} {k : Cmd} (hk : c.cmd? id = some k) : c.settles (c.residDrop k) id 0 0 := by
  unfold Chip.residDrop
  extract_lets p tag l tiers
  have alike (t : Tab (List Resid)) : c.Alike { c with tiers.resid := t } := ⟨rfl, fun _ => rfl⟩
  exact (alike _).settles hk (Chip.cmd?_id hk) 0 0

/-! ### The statement -/

/-- Settles O33: the zeros are staged and stored, and the entries of a table are filtered. -/
theorem zeroAndDrop : Obligations.ZeroAndDrop := by
  refine ⟨fun s id k h _ unarmed hk held => ?_, fun s id k h hk => ?_⟩
  · obtain ⟨d, a, ended, outputs, clears, rest⟩ := gradZero_wrote s.ctx held
    obtain ⟨t, step, fuse, pending, settled, stored, -, chip⟩ :=
      onOp_wrote h (Chip.unarmed_ecc unarmed) hk (body := Chip.gradZero) ended outputs
    refine ⟨t, step, fuse, pending, settled, stored, ?_, ?_⟩
    · rwa [chip]
    · rw [chip]
      exact (congrArg Chip.between rest).trans (between_rest h)
  · refine (onOp_idle h hk (body := fun _ => Chip.residDrop) (State.sound_unstaged h) _).mpr ?_
    refine ⟨rfl, rfl, residDrop_settles hk.1, fun r => ?_, fun n hn => ?_, between_rest h⟩
    · show r ∈ tabGet [] (tabSet _ _ _) _ ↔ _
      rw [tabGet_tabSet, if_pos rfl, List.mem_filter]
      simp [Chip.own, imp_iff_not_or]
    · show tabGet [] (tabSet _ _ _) _ = _
      rw [tabGet_tabSet, if_neg hn.symm]

end Sys2Proof.Machine
end

section
/-! SUPPORT. What the scrub of a line does to memory and chip (R153, R154, R408): the writes it stages by the line's health, and the tier
units' state it leaves. -/

namespace Sys2Proof.Machine

/-! ### Health as it reads -/

@[simp] theorem Memory.health_setHealth {m : Memory} (h : m.wf = true) (l j : Nat) (v : Health) :
    (m.setHealth l v).health j = if l = j then v else m.health j := tabGet_sparseSet _ _ _ _ _ ((Memory.wf_iff m).mp h).2.1

/-- The writes that a scrub of a line stages, by the line's health and whether its error was injected. -/
def scrubStores (h : Health) (l : Nat) (injected : Bool) : List Store :=
  match h with
  | .good => []
  | .ce _ => [.health l .good]
  | .ue => [if injected then .injected l .poison else .health l .poison]
  | .poison => []

/-- They leave every byte, and of the health of lines change the scrubbed line's alone. -/
theorem commit_scrubStores {m : Memory} (h : m.wf = true) (l : Nat) (injected : Bool) :
    (m.commit (scrubStores (m.health l) l injected)).cells = m.cells ∧
      (m.commit (scrubStores (m.health l) l injected)).health l = scrubbed (m.health l) ∧
      ∀ j, j ≠ l → (m.commit (scrubStores (m.health l) l injected)).health j = m.health j := by
  have set (v : Health) : (m.setHealth l v).cells = m.cells ∧ (m.setHealth l v).health l = v ∧
      ∀ j, j ≠ l → (m.setHealth l v).health j = m.health j := by
    refine ⟨rfl, ?_, fun j hj => ?_⟩
    · rw [Memory.health_setHealth h, if_pos rfl]
    · rw [Memory.health_setHealth h, if_neg hj.symm]
  cases hl : m.health l with
  | good => exact ⟨rfl, hl, fun _ _ => rfl⟩
  | ce ps => exact set .good
  | ue => cases injected <;> exact set .poison
  | poison => exact ⟨rfl, hl, fun _ _ => rfl⟩

/-! ### What a scrub leaves of the chip -/

/-- `d` is `c` with writes staged, but for reports, logs and what reads change of the tier units: the position of no scrub moved. -/
structure Chip.Scrubs (c d : Chip) (ss : List Store) : Prop where
  staged : d.staged = c.staged ++ ss
  tiers : { d.tiers with units := [] } = { c.tiers with units := [] }
  position : ∀ u, (d.tier u).scrubPos = (c.tier u).scrubPos

namespace Chip.Scrubs

variable {c d e : Chip} {ss more : List Store}

theorem of_tiers (ht : d.tiers = c.tiers) (hs : d.staged = c.staged) : c.Scrubs d [] where
  staged := hs.trans (List.append_nil _).symm
  tiers := by rw [ht]
  position u := by rw [Chip.tier, ht, Chip.tier]

theorem refl (c : Chip) : c.Scrubs c [] := of_tiers rfl rfl

theorem trans (h : c.Scrubs d ss) (k : d.Scrubs e more) : c.Scrubs e (ss ++ more) where
  staged := by rw [k.staged, h.staged, List.append_assoc]
  tiers := k.tiers.trans h.tiers
  position u := (k.position u).trans (h.position u)

/-- What stages nothing more keeps the writes as they are. -/
theorem then_quiet (h : c.Scrubs d ss) (k : d.Scrubs e []) : c.Scrubs e ss := by simpa using h.trans k

theorem after_quiet (h : c.Scrubs d []) (k : d.Scrubs e ss) : c.Scrubs e ss := h.trans k

theorem stage (c : Chip) (st : Store) : c.Scrubs (c.stage st) [st] := ⟨rfl, rfl, fun _ => rfl⟩

theorem count (c : Chip) (f n k : Nat) : c.Scrubs (c.count f n k) [] :=
  of_tiers (Chip.reports_same (count_reports c f n k) Chip.tiers fun _ => rfl) (count_staged c f n k)

theorem fire (c : Chip) (f src : Nat) : c.Scrubs (c.fire f src) [] :=
  of_tiers (Chip.reports_same (fire_reports c f src) Chip.tiers fun _ => rfl) (fire_staged c f src)

theorem log (c : Chip) (f : Nat) (r : LogReq) : c.Scrubs (c.log f r) [] :=
  of_tiers (congrArg Chip.tiers (log_logs c f r).1 :) (log_fields c f r).2.1

theorem putTier (c : Chip) (u : Nat) {t : Tier} (h : t.scrubPos = (c.tier u).scrubPos) : c.Scrubs (c.putTier u t) [] where
  staged := (List.append_nil _).symm
  tiers := rfl
  position v := by
    rw [Chip.tier_putTier]
    split_ifs with e
    · rw [h, e]
    · rfl

/-- Windows, and with them keys, stand. -/
theorem key (h : c.Scrubs d ss) (fz : Fuses) (a : Nat) : d.key fz a = c.key fz a := by
  have windows : d.tiers.windows = c.tiers.windows := congrArg (·.windows) h.tiers
  rw [Chip.key, Chip.hbmMap, windows, Chip.key, Chip.hbmMap]

theorem tierSize (h : c.Scrubs d ss) (u : Nat) : d.tierSize u = c.tierSize u := by
  have channels : d.tiers.ddrChannels = c.tiers.ddrChannels := congrArg (·.ddrChannels) h.tiers
  have bytes : d.tiers.ddrBytes = c.tiers.ddrBytes := congrArg (·.ddrBytes) h.tiers
  rw [Chip.tierSize, channels, bytes, Chip.tierSize]

theorem tierLine (c : Chip) (a : Nat) (write : Bool) : c.Scrubs (c.tierLine a write) [] := by
  unfold Chip.tierLine
  split
  · exact ((putTier c _ (by rfl)).then_quiet (count _ _ _ _)).then_quiet (count _ _ _ _)
  · exact refl c

theorem ddrCorrected (c : Chip) (u b : Nat) (places : List Nat) : c.Scrubs (c.ddrCorrected u b places) [] := by
  unfold Chip.ddrCorrected
  extract_lets t counted
  have before : c.Scrubs counted [] := by
    dsimp only [counted]
    split
    · exact count c _ _ _
    · exact refl c
  split
  · exact before.then_quiet (putTier _ _ (by rfl))
  · exact before

/-- A corrected line is written back good (R153). -/
theorem corrected (c : Chip) (x : Ctx) (a : Nat) (w : Consumer) (places : List Nat) :
    c.Scrubs (c.corrected x a w places) [.health (c.key x.fuse a / 64) .good] := by
  unfold Chip.corrected
  extract_lets written
  have back : c.Scrubs written _ := stage c _
  split
  · exact back
  · extract_lets logged counted
    have logs : c.Scrubs logged _ := back.then_quiet (log _ _ _)
    have counts : c.Scrubs counted _ := logs.then_quiet (count _ _ _ _)
    split
    · exact logs
    · extract_lets devices t n rows limit
      have found : c.Scrubs devices [.health (c.key x.fuse a / 64) .good] := by
        dsimp only [devices]
        split
        · exact counts
        · exact counts.then_quiet (ddrCorrected _ _ _ _)
      have row : c.Scrubs rows _ := found.then_quiet (putTier _ _ (by rfl))
      split
      · exact row.then_quiet (fire _ _ _)
      · exact row

/-- A line that is not corrected becomes poisoned (R153, R408). -/
theorem uncorrected (c : Chip) (x : Ctx) (a : Nat) (w : Consumer) :
    c.Scrubs (c.uncorrected x a w)
      [if c.lineInjected x a then .injected (c.key x.fuse a / 64) .poison else .health (c.key x.fuse a / 64) .poison] := by
  unfold Chip.uncorrected
  extract_lets l written
  have poisoned : c.Scrubs written _ := stage c _
  split
  · extract_lets logged
    have logs : c.Scrubs logged _ := poisoned.then_quiet (log _ _ _)
    split
    · exact logs
    · exact ((logs.then_quiet (putTier _ _ (by rfl))).then_quiet (count _ _ _ _)).then_quiet (fire _ _ _)
  · exact poisoned

theorem poisonRead (c : Chip) (x : Ctx) (a : Nat) (w : Consumer) : c.Scrubs (c.poisonRead x a w) [] := by
  unfold Chip.poisonRead
  split
  · exact refl c
  · exact log _ _ _

/-- A line read where no ECC injection is armed stages what its health asks for. -/
theorem readLine (c : Chip) {x : Ctx} (he : x.ecc = []) (w : Consumer) (a : Nat) :
    c.Scrubs (Chip.readLines x w [a] c).1
      (scrubStores (x.mem.health (c.key x.fuse a / 64)) (c.key x.fuse a / 64) (x.mem.isInjected (c.key x.fuse a / 64))) := by
  have access : c.Scrubs (c.tierLine a false) [] := tierLine c a false
  rw [Chip.readLines, onRead_off he]
  simp only [Chip.lineHealth, ← access.key]
  cases (x.mem.health ((c.tierLine a false).key x.fuse a / 64)) with
  | good => exact access
  | ce ps => exact access.after_quiet (corrected _ x a w ps)
  | ue => exact access.after_quiet (uncorrected _ x a w)
  | poison => exact access.after_quiet (poisonRead _ x a w)

end Chip.Scrubs

/-- No upset stages nothing. -/
theorem Chip.upset_nil (c : Chip) (x : Ctx) : c.upset x [] = c := by
  show { c with staged := c.staged ++ [] } = c
  rw [List.append_nil]

/-- Whom the line errors that a scrub finds are charged to: no one. -/
def scrubber : Consumer := { page := none, part := none, opcode := 0, target := 0 }

/-- A step whose staged writes write no line whole or in part meets no ECC injection, whatever is armed (R417). -/
theorem onChip_lineless {s : State} (h : s.sound) {f : Ctx → Chip → Chip} (hs : ∀ st ∈ (f s.ctx s.chip).staged, st.lines = []) (p : State → Prop) :
    nextWith (onChip f s) p ↔ p { chip := (f s.ctx s.chip).between, mem := s.mem.commit (f s.ctx s.chip).staged, fuse := s.fuse, pending := s.pending } := by
  have unmet : (f s.ctx s.chip).eccStored s.ctx none = f s.ctx s.chip := by
    rw [Chip.eccStored, List.flatMap_eq_nil_iff.mpr hs]
    exact ite_self _
  rw [onChip, onStep_next, State.sound_staged h, unmet]

/-- A step that scrubs one line, with no ECC injection armed. -/
theorem onChip_scrubs {s : State} (h : s.sound) (hu : s.chip.unarmed) {f : Ctx → Chip → Chip} {line : Nat}
    (hs : (f s.ctx s.chip).staged = scrubStores (s.mem.health line) line (s.mem.isInjected line)) :
    nextWith (onChip f s) (fun v => v.fuse = s.fuse ∧ v.mem.cells = s.mem.cells ∧ v.mem.health line = scrubbed (s.mem.health line) ∧
      (∀ l, l ≠ line → v.mem.health l = s.mem.health l) ∧ v.chip = (f s.ctx s.chip).between) := by
  obtain ⟨cells, scrubbed, others⟩ := commit_scrubStores h.1 line (s.mem.isInjected line)
  rw [onChip_next f s _ (Chip.unarmed_ecc hu), State.sound_staged h, hs]
  exact ⟨rfl, cells, scrubbed, others, rfl⟩

end Sys2Proof.Machine
end

section
/-! SUPPORT. The memory tiers' own steps (R151, R153, R154, R159, R160, R408): refreshes, closing rows, scrubs and bring-up, and the
statement about them. -/

namespace Sys2Proof.Machine

/-! ### Refreshes and open rows (R151) -/

/-- A step that makes of the chip one that stages nothing, reports aside. -/
theorem becomes_reports {s : State} (h : s.sound) {i : Instr} {f : Ctx → Chip → Chip} (hi : exec i s = onChip f s) {c : Chip}
    (hr : Chip.reports c (f s.ctx s.chip)) (hs : (f s.ctx s.chip).staged = []) : becomes i s c :=
  ⟨_, hi.trans (onChip_unstaged h hs), rfl, rfl, rfl, hr⟩

/-- A tier unit replaced in chips that differ by reports. -/
theorem putTier_reports {c d : Chip} (h : Chip.reports c d) (u : Nat) (t : Tier) : Chip.reports (c.putTier u t) (d.putTier u t) := by
  have same : d.tiers.units = c.tiers.units := Chip.reports_same h (·.tiers.units) fun _ => rfl
  rw [Chip.putTier, Chip.putTier, same]
  exact Chip.reports_units h _

/-- The rows that a refresh closes. -/
theorem refreshed_eq (t : Tier) (u bank : Nat) :
    t.refreshed u bank =
      { t with open_ := if u < 16 then tabDel t.open_ bank else t.open_.filter (fun e => !(e.1 % 2 = bank % 2 && e.1 / 16 = bank / 16)) } := by
  unfold Tier.refreshed
  split <;> rfl

/-- A tier unit once the refresh of a bank was due: one more owed, the one forced with the ninth request, or all owed done. -/
def Tier.due (t : Tier) (u bank : Nat) (pending : Bool) : Tier :=
  if pending && tabGet 0 t.postponed bank < 8 then { t with postponed := tabSet t.postponed bank (tabGet 0 t.postponed bank + 1) }
  else if pending then t.refreshed u bank
  else { t.refreshed u bank with postponed := tabDel t.postponed bank }

/-- A refresh that is due where the rate stays as it is, reports aside. -/
theorem refreshDue_reports {c : Chip} {u : Nat} {hot : Bool} (rate : u < 16 ∨ (c.tier u).ref2x = hot) (runs : c.tierRuns u = true)
    (bank ecs : Nat) (pending : Bool) :
    Chip.reports (c.putTier u ((c.tier u).due u bank pending)) (c.refreshDue u bank pending hot ecs) ∧
      (c.refreshDue u bank pending hot ecs).staged = c.staged := by
  unfold Chip.refreshDue
  rw [if_neg (by simp [runs])]
  extract_lets counted t fired t' owed closed
  have counts : Chip.reports c counted ∧ counted.staged = c.staged := by
    dsimp only [counted]
    split
    · exact ⟨count_reports _ _ _ _, count_staged _ _ _ _⟩
    · exact ⟨Chip.reports_refl c, rfl⟩
  have same : t = c.tier u := Chip.reports_same counts.1 (fun b => b.tier u) fun _ => rfl
  have quiet : fired = counted := by
    refine if_neg ?_
    rcases rate with low | rate
    · simp [Nat.not_le.mpr low]
    · simp [same, rate]
  have kept : t' = c.tier u := by
    dsimp only [t']
    rw [same]
    split
    · next high => rw [← rate.resolve_left (Nat.not_lt.mpr high)]
    · rfl
  have put (v : Tier) : Chip.reports (c.putTier u v) (counted.putTier u v) := putTier_reports counts.1 u v
  rw [quiet, Tier.due]
  simp only [owed, closed, kept]
  split_ifs
  · exact ⟨put _, counts.2⟩
  · exact ⟨Chip.reports_trans (put _) (count_reports _ _ _ _), (count_staged _ _ _ _).trans counts.2⟩
  · exact ⟨Chip.reports_trans (put _) (count_reports _ _ _ _), (count_staged _ _ _ _).trans counts.2⟩

theorem refreshDue_idle {c : Chip} {u : Nat} (h : c.tierRuns u = false) (bank ecs : Nat) (pending hot : Bool) :
    c.refreshDue u bank pending hot ecs = c := by
  rw [Chip.refreshDue, if_pos (by simp [h])]

/-- REFRESH_DUE where the rate stays as it is. -/
theorem exec_refreshDue {s : State} (h : s.sound) {u : Nat} {hot : Bool} (rate : u < 16 ∨ (s.chip.tier u).ref2x = hot)
    (runs : s.chip.tierRuns u = true) (bank ecs : Nat) (pending : Bool) :
    becomes (.refreshDue u bank pending hot ecs) s (s.chip.putTier u ((s.chip.tier u).due u bank pending)) := by
  obtain ⟨reports, staged⟩ := refreshDue_reports rate runs bank ecs pending
  exact becomes_reports h (f := fun _ c => c.refreshDue u bank pending hot ecs) rfl reports (staged.trans (State.sound_unstaged h))

/-! ### Scrubs (R153, R154, R408) -/

/-- The address that the patrol of a unit reads next. -/
def Chip.patrolAddr (c : Chip) (u : Nat) : Nat := c.tierAddr u (64 * (c.tier u).scrubPos)

/-- A tier unit of a number of lines when its patrol has read one: at the last line the pass ends, and with it the rows' counts. -/
def Tier.patrolled (t : Tier) (size : Nat) : Tier :=
  if t.scrubPos + 1 < size then { t with scrubPos := t.scrubPos + 1, scrubActive := true }
  else { t with scrubPos := 0, scrubActive := false, rowCe := [] }

theorem patrolled_scrubPos (t : Tier) (size : Nat) : (t.patrolled size).scrubPos = if t.scrubPos + 1 < size then t.scrubPos + 1 else 0 := by
  unfold Tier.patrolled
  split <;> rfl

theorem patrolled_rowCe (t : Tier) (size : Nat) : t.scrubPos + 1 < size ∨ (t.patrolled size).rowCe = [] :=
  (em (t.scrubPos + 1 < size)).imp_right fun h => by rw [Tier.patrolled, if_neg h]

/-- The patrol scrubs the next line and goes on. -/
theorem patrol_scrubs {c : Chip} {x : Ctx} {u : Nat} (he : x.ecc = []) (runs : c.tierRuns u = true) (on : c.reg (tierFrame u) 0x108 24 ≠ 0) :
    let line := c.key x.fuse (c.patrolAddr u) / 64
    ∃ d, c.Scrubs d (scrubStores (x.mem.health line) line (x.mem.isInjected line)) ∧
      Chip.patrol x c u [] = d.putTier u ((d.tier u).patrolled (c.tierSize u)) := by
  intro line
  have read := Chip.Scrubs.readLine c he scrubber (c.patrolAddr u)
  refine ⟨_, read, ?_⟩
  rw [Chip.patrol, if_neg (by simp [runs, on]), Chip.upset_nil, upset_none, ← read.tierSize u, Tier.patrolled]
  exact (apply_ite _ _ _ _).symm

/-- PATROL_SCRUB_READ of a running unit. -/
theorem exec_patrolScrubRead {s : State} (h : s.sound) (hu : s.chip.unarmed) {u : Nat} (runs : s.chip.tierRuns u = true)
    (on : s.chip.reg (tierFrame u) 0x108 24 ≠ 0) :
    let t := s.chip.tier u
    let line := s.chip.key s.fuse (s.chip.patrolAddr u) / 64
    nextWith (exec (.patrolScrubRead u []) s) (fun v =>
      v.fuse = s.fuse ∧ v.mem.cells = s.mem.cells ∧ v.mem.health line = scrubbed (s.mem.health line) ∧
      (∀ l, l ≠ line → v.mem.health l = s.mem.health l) ∧
      (v.chip.tier u).scrubPos = (if t.scrubPos + 1 < s.chip.tierSize u then t.scrubPos + 1 else 0) ∧
      (t.scrubPos + 1 < s.chip.tierSize u ∨ (v.chip.tier u).rowCe = [])) := by
  intro t line
  obtain ⟨d, scrub, patrol⟩ := patrol_scrubs (x := s.ctx) (Chip.unarmed_ecc hu) runs on
  have staged : (Chip.patrol s.ctx s.chip u []).staged = scrubStores (s.mem.health line) line (s.mem.isInjected line) := by
    rw [patrol]
    exact scrub.staged.trans (congrArg (· ++ _) (State.sound_unstaged h))
  obtain ⟨v, step, fuse, cells, this, others, chip⟩ := onChip_scrubs h hu (f := fun x c => Chip.patrol x c u []) staged
  have unit : v.chip.tier u = (d.tier u).patrolled (s.chip.tierSize u) := by
    rw [chip]
    show (Chip.patrol s.ctx s.chip u []).tier u = _
    rw [patrol, Chip.tier_putTier, if_pos rfl]
  refine ⟨v, step, fuse, cells, this, others, ?_, ?_⟩
  · rw [unit, patrolled_scrubPos, scrub.position]
  · rw [unit, ← scrub.position]
    exact patrolled_rowCe _ _

/-- The scrub of a line of an SRAM, unless it is the event table or finds an error of a hub store that its code does not correct. -/
theorem sramScrub_reads {c : Chip} {x : Ctx} {a : Nat} (on : c.sramOn a = true) (power : c.power.off = false)
    (noEvent : c.store a 1 ≠ some .event)
    (h : ¬ ((∃ k, c.store a 1 = some (.hub k)) ∧ (c.lineHealth x (64 * (a / 64)) = .ue ∨ c.lineHealth x (64 * (a / 64)) = .poison))) :
    Chip.sramScrub x c a [] = (Chip.readLines x scrubber [64 * (a / 64)] c).1 := by
  rw [Chip.sramScrub, if_neg (by simp [on, power]), Chip.upset_nil, upset_none]
  extract_lets d y b bad
  split
  · next hs => exact absurd hs noEvent
  · next k hs =>
    refine if_neg fun hb => h ⟨⟨k, hs⟩, ?_⟩
    dsimp only [bad] at hb
    split at hb
    · exact .inl ‹_›
    · exact .inr ‹_›
    · cases hb
  · rfl

/-- SRAM_SCRUB of such a line. -/
theorem exec_sramScrub {s : State} (h : s.sound) (hu : s.chip.unarmed) {a : Nat}
    (reads : Chip.sramScrub s.ctx s.chip a [] = (Chip.readLines s.ctx scrubber [64 * (a / 64)] s.chip).1) :
    let line := s.chip.key s.fuse (64 * (a / 64)) / 64
    nextWith (exec (.sramScrub a []) s) (fun v => v.fuse = s.fuse ∧ v.mem.cells = s.mem.cells ∧
      v.mem.health line = scrubbed (s.mem.health line) ∧ ∀ l, l ≠ line → v.mem.health l = s.mem.health l) := by
  intro line
  have read := Chip.Scrubs.readLine s.chip (x := s.ctx) (Chip.unarmed_ecc hu) scrubber (64 * (a / 64))
  obtain ⟨v, step, fuse, cells, this, others, -⟩ := onChip_scrubs h hu (f := fun x c => Chip.sramScrub x c a []) (line := line) (by
    rw [reads]
    exact read.staged.trans (congrArg (· ++ _) (State.sound_unstaged h)))
  exact ⟨v, step, fuse, cells, this, others⟩

/-- The scrub of a hub store finds an error that its code does not correct. -/
theorem sramScrub_fatal {c : Chip} {x : Ctx} {a k : Nat} (on : c.sramOn a = true) (power : c.power.off = false)
    (hub : c.store a 1 = some (.hub k)) (bad : c.lineHealth x (64 * (a / 64)) = .ue ∨ c.lineHealth x (64 * (a / 64)) = .poison) :
    Chip.sramScrub x c a [] = c.hubFatal (k + 1) := by
  rw [Chip.sramScrub, if_neg (by simp [on, power]), Chip.upset_nil, upset_none]
  simp only [hub]
  refine if_pos ?_
  rcases bad with bad | bad <;> rw [bad]

/-- A hub store's error stops the device once, and only reports besides (R358). -/
theorem hubFatal_stops {c : Chip} {cause : Nat} (live : c.fatal = 0) (lo : cause ≠ 0) (hi : cause ≤ 3) (power : c.power.off = false)
    (up : c.power.pstate ≠ 4) : (c.hubFatal cause).fatal = cause ∧ (c.hubFatal cause).staged = c.staged := by
  have port (d : Chip) (p : Nat) (r : LogReq) :
      (((d.log (portFrame p) r).fire (portFrame p) 5).send (.aerFatal p)).fatal = d.fatal ∧
      (((d.log (portFrame p) r).fire (portFrame p) 5).send (.aerFatal p)).staged = d.staged := by
    refine ⟨?_, by simp⟩
    exact (Chip.reports_same (fire_reports _ _ _) Chip.fatal fun _ => rfl).trans (congrArg Chip.fatal (log_logs d (portFrame p) r).1 :)
  rw [Chip.hubFatal, if_neg (by simp [live, lo, power, up]; omega)]
  simp only [List.foldl_cons, List.foldl_nil]
  exact ⟨(port _ 1 _).1.trans (port _ 0 _).1, (port _ 1 _).2.trans (port _ 0 _).2⟩

/-! ### The event table (R43, R408) -/

/-- An entry whose line is lost: its count is gone, and it is poisoned. -/
def Event.lost (e : Event) : Event := { e with count := 0, poisoned := true }

/-- The entries of a list lose their counts and are poisoned; without waiters nothing follows. -/
theorem lose_entries (x : Ctx) (f : Nat → Nat) (js : List Nat) (c : Chip) (hw : ∀ j ∈ js, (c.event (f j)).waiters = []) :
    ∃ d, d = js.foldl (fun (c : Chip) j => (c.putEvent (f j) { c.event (f j) with count := 0 }).poison x (f j)) c ∧
      d.staged = c.staged ∧ d.cmds = c.cmds ∧ ∀ i, d.event i = if i ∈ js.map f then (c.event i).lost else c.event i := by
  refine ⟨_, rfl, ?_⟩
  induction js generalizing c with
  | nil => exact ⟨rfl, rfl, fun _ => rfl⟩
  | cons j js ih =>
    obtain ⟨e, he⟩ : ∃ e, e = (c.putEvent (f j) { c.event (f j) with count := 0 }).poison x (f j) := ⟨_, rfl⟩
    have lost (i : Nat) : e.event i = if f j = i then (c.event i).lost else c.event i := by
      rw [he, poison_idle (by simpa using hw j List.mem_cons_self)]
      simp only [Chip.event_putEvent, if_true]
      split_ifs with same
      · rw [same]
        rfl
      · rfl
    have rest : e.staged = c.staged ∧ e.cmds = c.cmds := by
      rw [he, poison_idle (by simpa using hw j List.mem_cons_self)]
      exact ⟨rfl, rfl⟩
    obtain ⟨staged, cmds, events⟩ := ih e fun i hi => by
      rw [lost]
      split_ifs
      · exact hw i (List.mem_cons_of_mem _ hi)
      · exact hw i (List.mem_cons_of_mem _ hi)
    rw [List.foldl_cons, ← he]
    refine ⟨staged.trans rest.1, cmds.trans rest.2, fun i => ?_⟩
    rw [events, lost, List.map_cons]
    by_cases same : f j = i
    · rw [if_pos same, if_pos (show i ∈ f j :: js.map f from same ▸ List.mem_cons_self)]
      split_ifs <;> rfl
    · rw [if_neg same]
      simp only [List.mem_cons, Ne.symm same, false_or]

/-- The address of an entry lies in the event table. -/
theorem store_event (c : Chip) {i : Nat} (hi : i < 2 ^ 16) : c.store (0x21800000000 + 16 * i) 1 = some .event := by
  rw [Chip.store, if_pos (by omega), Chip.region]
  simp only [Bool.and_eq_true, decide_eq_true_eq]
  rw [if_neg (by omega), if_neg (by omega), if_neg (by omega), if_neg (by omega), if_pos (by omega), if_pos (by omega)]

/-- The scrub of a line of the event table reads its entries. -/
theorem sramScrub_event {c : Chip} (x : Ctx) {i : Nat} (hi : i < 2 ^ 16) (power : c.power.off = false) :
    Chip.sramScrub x c (0x21800000000 + 16 * i) [] = c.meetEvent x i := by
  have on : c.sramOn (0x21800000000 + 16 * i) = true := by rw [Chip.sramOn, store_event c hi]
  rw [Chip.sramScrub, if_neg (by simp [on, power]), Chip.upset_nil, upset_none]
  simp only [store_event c hi]
  rw [if_pos (by omega), show (0x21800000000 + 16 * i - 0x21800000000) / 16 = i by omega]

/-- A line that is not good is listed. -/
theorem lines_any {m : Memory} {l : Nat} (h : m.health l ≠ .good) : m.lines.any (fun e => e.1 = l) = true := by
  by_contra none
  refine h (tabGet_of_not_mem _ _ _ fun e he same => none ?_)
  exact List.any_eq_true.mpr ⟨e, he, decide_eq_true same⟩

/-- Before anything is staged, memory is as the step found it. -/
theorem Ctx.now_unstaged {c : Chip} (hs : c.staged = []) (x : Ctx) : x.now c = x := by
  rw [Ctx.now, hs]
  rfl

section

variable {c : Chip} {x : Ctx} {i : Nat} (hs : c.staged = [])
include hs

theorem meetEvent_of_good (h : x.mem.health (evtLine i) = .good) : c.meetEvent x i = c := by
  rw [Chip.meetEvent]
  split
  · rfl
  · simp only [Ctx.now_unstaged hs, h]

theorem meetEvent_of_ce {ps : List Nat} (h : x.mem.health (evtLine i) = .ce ps) :
    ∃ r, c.meetEvent x i = (c.stage (.health (evtLine i) .good)).log 0x006 r := by
  rw [Chip.meetEvent, if_neg (by simp [lines_any (show x.mem.health (evtLine i) ≠ .good by simp [h])])]
  simp only [Ctx.now_unstaged hs, h]
  exact ⟨_, rfl⟩

theorem meetEvent_of_lost (h : x.mem.health (evtLine i) = .ue ∨ x.mem.health (evtLine i) = .poison) :
    ∃ r, c.meetEvent x i = Chip.eventLineLost x ((c.stage (.health (evtLine i) .good)).log 0x006 r) i := by
  rw [Chip.meetEvent, if_neg (by simp [lines_any (show x.mem.health (evtLine i) ≠ .good by rcases h with h | h <;> simp [h])])]
  rcases h with h | h <;>
  · simp only [Ctx.now_unstaged hs, h]
    exact ⟨_, rfl⟩

end

/-- SRAM_SCRUB of a line of the event table that is written back good. -/
theorem exec_eventScrub {s : State} (h : s.sound) {i : Nat} (hi : i < 2 ^ 16) (power : s.chip.power.off = false) {d : Chip}
    (hd : s.chip.meetEvent s.ctx i = d) (hs : d.staged = [.health (evtLine i) .good]) :
    nextWith (exec (.sramScrub (0x21800000000 + 16 * i) []) s) (fun v =>
      v.mem.cells = s.mem.cells ∧ v.mem.health (evtLine i) = .good ∧ v.chip = d.between) := by
  have scrub : Chip.sramScrub s.ctx s.chip (0x21800000000 + 16 * i) [] = d := (sramScrub_event s.ctx hi power).trans hd
  refine (onChip_lineless h (f := fun x c => Chip.sramScrub x c (0x21800000000 + 16 * i) []) ?_ _).mpr ?_
  · rw [scrub, hs]
    simp [Store.lines]
  · rw [scrub, hs]
    refine ⟨rfl, ?_, rfl⟩
    show (s.mem.setHealth (evtLine i) .good).health (evtLine i) = .good
    rw [Memory.health_setHealth h.1, if_pos rfl]

/-! ### Bring-up (R159, R160) -/

/-- Tier units set one after the other: the others stand. -/
theorem putTiers {f : Nat → Nat} (hf : Function.Injective f) {g : Nat → Tier → Tier} (hg : ∀ i t, g i (g i t) = g i t) (l : List Nat) (c : Chip) :
    ∃ u, l.foldl (fun (c : Chip) i => c.putTier (f i) (g i (c.tier (f i)))) c = { c with tiers.units := u } ∧
      ∀ k, tabGet {} u (f k) = if k ∈ l then g k (c.tier (f k)) else c.tier (f k) := by
  induction l generalizing c with
  | nil => exact ⟨c.tiers.units, rfl, fun _ => rfl⟩
  | cons i l ih =>
    obtain ⟨u, fold, units⟩ := ih (c.putTier (f i) (g i (c.tier (f i))))
    refine ⟨u, fold, fun k => ?_⟩
    rw [units, Chip.tier_putTier]
    by_cases same : i = k
    · subst same
      simp only [if_true, hg, ite_self, List.mem_cons_self]
    · rw [if_neg fun e => same (hf e)]
      simp only [List.mem_cons, Ne.symm same, false_or]

/-- Noting overcommitment leaves the tiers. -/
theorem noteOvercommit_leaves (c : Chip) : c.noteOvercommit.tiers = c.tiers ∧ c.noteOvercommit.staged = c.staged := by
  unfold Chip.noteOvercommit
  generalize c.overcommitted = isOver
  have fold (l : Tab Part) (d : Chip) :
      (l.foldl (fun (c : Chip) e =>
        let c := c.modPart e.1 (fun q => { q with overcommit := isOver })
        if isOver && !e.2.overcommit then c.fire (partFrame e.1) 6 else c) d).tiers = d.tiers ∧
      (l.foldl (fun (c : Chip) e =>
        let c := c.modPart e.1 (fun q => { q with overcommit := isOver })
        if isOver && !e.2.overcommit then c.fire (partFrame e.1) 6 else c) d).staged = d.staged := by
    induction l generalizing d with
    | nil => exact ⟨rfl, rfl⟩
    | cons e l ih =>
      obtain ⟨tiers, staged⟩ := ih _
      refine ⟨tiers.trans ?_, staged.trans ?_⟩ <;> dsimp only <;> split_ifs
      · exact Chip.reports_same (fire_reports _ _ _) Chip.tiers fun _ => rfl
      · rfl
      · exact fire_staged _ _ _
      · rfl
  exact fold c.parts c

/-- HBM_INIT_DONE at its time. -/
theorem exec_hbmInitDone {s : State} (h : s.sound) (verified : s.chip.sec.verified = true) (zero : (s.chip.tier 0).zeroDone = false)
    (up : s.chip.tiers.hbmFailed = false) (failed : List Nat) :
    nextWith (exec (.hbmInitDone failed) s) (fun v =>
      v.mem = s.mem ∧ v.fuse = s.fuse ∧ v.chip.tiers.hbmFailed = failed.any (fun k => k < 12) ∧
      ∀ k < 12, v.chip.tier k = { s.chip.tier k with trained := !failed.contains k, zeroDone := !failed.any (fun j => j < 12) }) := by
  obtain ⟨u, fold, units⟩ := putTiers (f := id) Function.injective_id
    (g := fun k t => { t with trained := !failed.contains k, zeroDone := !failed.any (fun j => j < 12) }) (fun _ _ => rfl) (List.range 12) s.chip
  have done : s.chip.hbmInit failed = { s.chip with tiers.units := u, tiers.hbmFailed := failed.any (fun k => k < 12) } := by
    rw [Chip.hbmInit, if_neg (by simp [verified, zero, up])]
    exact congrArg (fun c : Chip => { c with tiers.hbmFailed := failed.any (fun k => k < 12) }) fold
  refine ⟨_, onChip_just h (f := fun _ c => c.hbmInit failed) done rfl, rfl, rfl, rfl, fun k hk => ?_⟩
  exact (units k).trans (if_pos (List.mem_range.mpr hk))

section

variable {s : State} (verified : s.chip.sec.verified = true) (used : s.chip.tiers.ddrChannels ≠ [])
  (zero : ∀ k ∈ s.chip.tiers.ddrChannels, (s.chip.tier (16 + k)).zeroDone = false) {failed : List Nat}
include verified used zero

theorem ddrInit_waits : (!s.chip.sec.verified || s.chip.tiers.ddrChannels.isEmpty ||
    s.chip.tiers.ddrChannels.any (fun ch => (s.chip.tier (16 + ch)).zeroDone)) = false := by
  simpa [verified, used] using zero

/-- DDR_INIT_DONE of channels that are all trained. -/
theorem exec_ddrInitDone_trained (h : s.sound) (good : ∀ k ∈ s.chip.tiers.ddrChannels, k ∉ failed) :
    nextWith (exec (.ddrInitDone failed) s) (fun v => v.mem = s.mem ∧ v.chip.tiers.ddrChannels = s.chip.tiers.ddrChannels ∧
      ∀ k ∈ s.chip.tiers.ddrChannels, v.chip.tier (16 + k) = { s.chip.tier (16 + k) with trained := true, zeroDone := true }) := by
  obtain ⟨u, fold, units⟩ := putTiers (f := (16 + ·)) (add_right_injective 16)
    (g := fun _ t => { t with trained := true, zeroDone := true }) (fun _ _ => rfl) s.chip.tiers.ddrChannels s.chip
  have done : s.chip.ddrInit failed = ({ s.chip with tiers.units := u } : Chip).noteOvercommit := by
    rw [Chip.ddrInit, if_neg (by rw [ddrInit_waits verified used zero]; exact Bool.false_ne_true), if_neg (by simpa using good)]
    exact congrArg Chip.noteOvercommit fold
  obtain ⟨tiers, staged⟩ := noteOvercommit_leaves { s.chip with tiers.units := u }
  refine ⟨_, onChip_just h (f := fun _ c => c.ddrInit failed) done staged, rfl, congrArg (·.ddrChannels) tiers, fun k hk => ?_⟩
  exact (congrArg (fun t : Tiers => tabGet {} t.units (16 + k)) tiers).trans ((units k).trans (if_pos hk))

/-- DDR_INIT_DONE of a channel whose training failed. -/
theorem exec_ddrInitDone_failed (h : s.sound) (bad : ∃ k ∈ s.chip.tiers.ddrChannels, k ∈ failed) :
    nextWith (exec (.ddrInitDone failed) s) (fun v => v.mem = s.mem ∧ v.chip.tiers.ddrChannels = [] ∧ v.chip.tiers.ddrBytes = 0 ∧
      ∀ k ∈ s.chip.tiers.ddrChannels, k ∈ failed → (v.chip.tier (16 + k)).dimmState = 5) := by
  obtain ⟨u, fold, units⟩ := putTiers (f := (16 + ·)) (add_right_injective 16)
    (g := fun k t => { t with dimmState := if failed.contains k then 5 else 6, speed := 0 }) (fun _ _ => rfl) s.chip.tiers.ddrChannels s.chip
  have done : s.chip.ddrInit failed = ({ s.chip with tiers.units := u, tiers.ddrChannels := [], tiers.ddrBytes := 0 } : Chip).noteOvercommit := by
    rw [Chip.ddrInit, if_neg (by rw [ddrInit_waits verified used zero]; exact Bool.false_ne_true), if_pos (by simpa using bad)]
    exact congrArg (fun c : Chip => ({ c with tiers.ddrChannels := [], tiers.ddrBytes := 0 } : Chip).noteOvercommit) fold
  obtain ⟨tiers, staged⟩ := noteOvercommit_leaves { s.chip with tiers.units := u, tiers.ddrChannels := [], tiers.ddrBytes := 0 }
  refine ⟨_, onChip_just h (f := fun _ c => c.ddrInit failed) done staged, rfl, congrArg (·.ddrChannels) tiers, congrArg (·.ddrBytes) tiers,
    fun k hk hf => ?_⟩
  have unit := (congrArg (fun t : Tiers => tabGet {} t.units (16 + k)) tiers).trans ((units k).trans (if_pos hk))
  exact (congrArg Tier.dimmState unit).trans (if_pos (by simpa using hf))

end

/-! ### The statement -/

/-- Settles O49: a due refresh is a report beside its unit's change; a scrub reads one line, whose health decides what it stages; a lost line
of the event table loses its four entries, none of which has a waiter; and bring-up sets unit after unit. -/
theorem memoryTiers : Obligations.MemoryTiers := by
  intro s u bank ecs pending hot failed a h c t n closed
  refine ⟨fun rate runs => ?_, fun idle => ?_, fun never => ?_, fun closes => ?_, fun unarmed runs on => exec_patrolScrubRead h unarmed runs on,
    fun unarmed on power noEvent => ⟨fun calm => ?_, fun k hk hub bad live up => ?_⟩,
    fun i hi power => ⟨fun good => ?_, fun ps ce => ?_, fun bad idle => ?_⟩, fun verified zero up => exec_hbmInitDone h verified zero up failed,
    fun verified used zero => ⟨exec_ddrInitDone_trained verified used zero h, exec_ddrInitDone_failed verified used zero h⟩⟩
  · have due := exec_refreshDue h rate runs bank ecs pending
    have rows : (s.chip.tier u).refreshed u bank = { t with open_ := closed } := refreshed_eq t u bank
    refine ⟨fun asked few => ?_, fun asked many => ?_, fun free => ?_⟩
    · rwa [Tier.due, if_pos (by simpa [asked] using few)] at due
    · rwa [Tier.due, if_neg (by simpa [asked] using many), if_pos asked, rows] at due
    · rwa [Tier.due, if_neg (by simp [free]), if_neg (by simp [free]), rows] at due
  · exact onChip_just h (f := fun _ c => c.refreshDue u bank pending hot ecs) (refreshDue_idle idle bank ecs pending hot) rfl
  · exact onChip_just h (f := fun _ c => c.rowClose u bank) (if_pos never) rfl
  · exact onChip_just h (f := fun _ c => c.rowClose u bank) (if_neg closes) rfl
  · exact exec_sramScrub h unarmed (sramScrub_reads on power noEvent calm)
  · have fatal : Chip.sramScrub s.ctx s.chip a [] = s.chip.hubFatal (k + 1) := sramScrub_fatal on power hub bad
    obtain ⟨stops, staged⟩ := hubFatal_stops live (Nat.succ_ne_zero k) hk power up
    exact ⟨_, onChip_just h (f := fun x c => Chip.sramScrub x c a []) fatal staged, rfl, rfl, stops⟩
  · have read : s.chip.meetEvent s.ctx i = s.chip := meetEvent_of_good (State.sound_unstaged h) good
    exact onChip_just h (f := fun x c => Chip.sramScrub x c (0x21800000000 + 16 * i) []) ((sramScrub_event s.ctx hi power).trans read) rfl
  · obtain ⟨r, read⟩ := meetEvent_of_ce (State.sound_unstaged h) (x := s.ctx) ce
    obtain ⟨v, step, cells, line, chip⟩ := exec_eventScrub h hi power read
      ((log_fields _ _ _).2.1.trans (congrArg (· ++ _) (State.sound_unstaged h)))
    refine ⟨v, step, cells, line, ?_⟩
    rw [chip]
    exact (log_fields _ _ _).2.2.1
  · obtain ⟨r, read⟩ := meetEvent_of_lost (State.sound_unstaged h) (x := s.ctx) bad
    have same (j : Nat) : ((s.chip.stage (.health (evtLine i) .good)).log 0x006 r).event j = s.chip.event j :=
      Chip.event_congr (log_fields _ _ _).2.2.1 j
    obtain ⟨d, lost, staged, cmds, events⟩ := lose_entries s.ctx (fun j => i / 4 * 4 + j) (List.range 4)
      ((s.chip.stage (.health (evtLine i) .good)).log 0x006 r) fun j hj => (congrArg Event.waiters (same _)).trans (idle _ (List.mem_map_of_mem hj))
    obtain ⟨v, step, cells, line, chip⟩ := exec_eventScrub h hi power (read.trans lost.symm)
      (staged.trans ((log_fields _ _ _).2.1.trans (congrArg (· ++ _) (State.sound_unstaged h))))
    have entries (j : Nat) : v.chip.event j = d.event j := by
      rw [chip]
      rfl
    refine ⟨v, step, cells, line, ?_, fun j hj => ?_, fun j hj => ?_⟩
    · rw [chip]
      exact cmds.trans (log_fields _ _ _).2.2.2.1
    · rw [entries, events, if_pos hj, same]
      rfl
    · rw [entries, events, if_neg hj, same]

end Sys2Proof.Machine
end

section
/-! SUPPORT. Writes of WIN_CTRL (R149, R164) and of the perturbation registers (R417, R418). -/

namespace Sys2Proof.Machine

/-! ### Windows (R149, R164) -/

/-- The range of a slot overlaps no other enabled window. -/
def Chip.windowClear (c : Chip) (i : Nat) : Prop :=
  let w := c.window i
  ∀ e ∈ c.tiers.windows, e.1 ≠ i → e.2.enable = true →
    w.base + 12 * w.size ≤ e.2.base ∨ e.2.base + 12 * e.2.size ≤ w.base ∨ e.2.size = 0

theorem overlap_iff (a n b k : Nat) : overlap a n b k = true ↔ (a < b + k ∧ b < a + n) ∧ 0 < n ∧ 0 < k := by
  simp [overlap, and_assoc]

theorem windowClear_iff {c : Chip} {i : Nat} (hs : 0 < (c.window i).size) :
    c.windowClear i ↔ c.tiers.windows.any (fun e => e.1 ≠ i && e.2.enable &&
      overlap (c.window i).base (12 * (c.window i).size) e.2.base (12 * e.2.size)) = false := by
  rw [Chip.windowClear, List.any_eq_false]
  refine forall₂_congr fun e _ => ?_
  simp only [Bool.and_eq_true, decide_eq_true_eq, overlap_iff]
  constructor
  · rintro clear ⟨⟨other, on⟩, apart⟩
    have := clear other on
    omega
  · intro none other on
    by_contra meet
    exact none ⟨⟨other, on⟩, by omega⟩

section

variable {c : Chip} {i : Nat}

theorem windowErr_shape (h : ¬ ((c.window i).base % 12 = 0 ∧ 0 < (c.window i).size)) : c.windowErr i = 1 := by
  have bad : (c.window i).base % 12 ≠ 0 ∨ (c.window i).size = 0 := by omega
  exact if_pos (by simpa using bad)

variable (shaped : (c.window i).base % 12 = 0 ∧ 0 < (c.window i).size)
include shaped

theorem windowErr_shaped :
    c.windowErr i = if 226492416 < (c.window i).base + 12 * (c.window i).size then 2
      else if c.tiers.windows.any (fun e => e.1 ≠ i && e.2.enable && overlap (c.window i).base (12 * (c.window i).size) e.2.base (12 * e.2.size)) then 3
      else if c.partRunning (i / 4) then 4 else 0 := by
  obtain ⟨aligned, some⟩ := shaped
  exact if_neg (by simp [aligned, some.ne'])

theorem windowErr_outside (h : ¬ (c.window i).base + 12 * (c.window i).size ≤ 226492416) : c.windowErr i = 2 := by
  rw [windowErr_shaped shaped, if_pos (by omega)]

variable (inside : (c.window i).base + 12 * (c.window i).size ≤ 226492416)
include inside

theorem windowErr_overlap (h : ¬ c.windowClear i) : c.windowErr i = 3 := by
  rw [windowClear_iff shaped.2, Bool.not_eq_false] at h
  rw [windowErr_shaped shaped, if_neg (by omega), if_pos h]

theorem windowErr_clear (h : c.windowClear i) : c.windowErr i = if c.partRunning (i / 4) then 4 else 0 := by
  rw [windowClear_iff shaped.2] at h
  rw [windowErr_shaped shaped, if_neg (by omega), h, if_neg Bool.false_ne_true]

end

section

variable {c : Chip} {i : Nat}

theorem winCtrl_enabled (on : (c.window i).enable = true) : c.winCtrl i true = c := by
  rw [Chip.winCtrl, if_pos rfl, if_pos on]

/-- An ENABLE of 1 that a slot refuses records the cause. -/
theorem winCtrl_refused {err : Nat} (off : (c.window i).enable = false) (h : c.windowErr i = err) (some : err ≠ 0) :
    c.winCtrl i true = c.putWindow i { c.window i with err := err } := by
  subst h
  rw [Chip.winCtrl, if_pos rfl, if_neg (Bool.eq_false_iff.mp off), if_pos some]

theorem winCtrl_accepted (off : (c.window i).enable = false) (h : c.windowErr i = 0) :
    c.winCtrl i true = c.putWindow i { c.window i with enable := true } := by
  rw [Chip.winCtrl, if_pos rfl, if_neg (Bool.eq_false_iff.mp off), if_neg (not_not.mpr h)]

theorem winCtrl_off :
    c.winCtrl i false = if c.partRunning (i / 4) then c.putWindow i { c.window i with err := 4 } else c.putWindow i { c.window i with enable := false } := by
  rw [Chip.winCtrl, if_neg Bool.false_ne_true]

end

/-- WIN_ENABLE of a requester that may make it acts on the slot that its WIN_SEL names. -/
theorem exec_winEnable {s : State} (h : s.sound) {r : Requester} (reaches : s.chip.writeReaches s.fuse r hbmmapPage = true)
    (may : s.chip.mayWrite r hbmmapPage 0x10C = true) {on : Bool} {d : Chip}
    (hd : s.chip.winCtrl (s.chip.selOf r.code 0x007 0x100 % 64) on = d) (hs : d.staged = s.chip.staged) :
    becomesJust (.winEnable r on) s d := by
  refine onChip_just h (f := fun x c => Chip.winEnable x c r on) ?_ hs
  have reached : s.chip.writeReaches s.ctx.fuse r hbmmapPage = true := reaches
  rw [Chip.winEnable, reached, may, ← hd]
  rfl

/-! ### Perturbation registers (R417, R418) -/

/-- The perturbation registers of a page in the order of their offsets, from 0x084 on. -/
def Pert.reg (t : Pert) : Nat → BitVec 32
  | 0 => t.ctrl
  | 1 => t.delay
  | 2 => t.bp
  | 3 => t.stall
  | 4 => t.ecc
  | 5 => t.addrLo
  | 6 => t.addrHi
  | 7 => t.flit
  | 8 => t.nf
  | _ => t.late

/-- One of them written: a write of PERT_CTRL that arms begins anew. -/
def Pert.setReg (t : Pert) (w : BitVec 32) (cap now : Nat) : Nat → Pert
  | 0 =>
    let u := { t with ctrl := w &&& ~~~ (BitVec.ofNat 32 (2 ^ 7 - 1) &&& ~~~ BitVec.ofNat 32 cap) }
    if w.getLsbD 31 then { u with fired := false, expired := false, used := [], left := 0, since := now } else u
  | 1 => { t with delay := w }
  | 2 => { t with bp := w }
  | 3 => { t with stall := w }
  | 4 => { t with ecc := w }
  | 5 => { t with addrLo := w }
  | 6 => { t with addrHi := w }
  | 7 => { t with flit := w }
  | 8 => { t with nf := w }
  | _ => { t with late := w }

theorem readHeader_pert (c : Chip) (req : Nat) (pg : Page) {i : Nat} (hi : i < 10) :
    c.readHeader req pg (0x084 + 4 * i) = ((c.hdr pg.frame).pert.reg i).toNat := by
  interval_cases i <;> rfl

/-- What a perturbation register holds once it is written: PERT_CTRL no kind that the page does not have. -/
def pertWritten (w : BitVec 32) (cap : Nat) (i : Nat) : BitVec 32 :=
  if i = 0 then w &&& ~~~ (BitVec.ofNat 32 (2 ^ 7 - 1) &&& ~~~ BitVec.ofNat 32 cap) else w

/-- The kinds that a page has are kept, and the bits that are no kinds. -/
theorem kinds_mask (b : Block) :
    (~~~ (BitVec.ofNat 32 (2 ^ 7 - 1) &&& ~~~ BitVec.ofNat 32 b.pertCap)).toNat = 0xFFFFFFFF - (127 - (127 &&& b.pertCap)) := by
  cases b <;> rfl

/-- A perturbation register that is written holds what it keeps of it, and the others stand. -/
theorem reg_setReg (t : Pert) (w : BitVec 32) (cap now : Nat) {i j : Nat} (hi : i < 10) (hj : j < 10) :
    (t.setReg w cap now i).reg j = if j = i then pertWritten w cap i else t.reg j := by
  have arming : (t.setReg w cap now 0).reg j = if j = 0 then pertWritten w cap 0 else t.reg j := by
    rw [Pert.setReg]
    split <;> interval_cases j <;> rfl
  cases i with
  | zero => exact arming
  | succ i =>
    have low : i < 9 := by omega
    interval_cases i <;> interval_cases j <;> rfl

/-- The bits of a register that are not reserved read back. -/
theorem pertWritten_toNat {v : Nat} (hv : v < 2 ^ 32) (b : Block) (m i : Nat) :
    (pertWritten (BitVec.ofNat 32 (v &&& m)) b.pertCap i).toNat =
      if i = 0 then v &&& m &&& (0xFFFFFFFF - (127 - (127 &&& b.pertCap))) else v &&& m := by
  have value : (BitVec.ofNat 32 (v &&& m)).toNat = v &&& m := by
    rw [BitVec.toNat_ofNat, Nat.mod_eq_of_lt (Nat.and_le_left.trans_lt hv)]
  unfold pertWritten
  split
  · rw [BitVec.toNat_and, kinds_mask, value]
  · exact value

/-- The holder of a D3 session may write every kind (R418). -/
theorem writePert_session {c : Chip} {r : Requester} (hd : c.session r 3 = true) (pg : Page) {i : Nat} (hi : i < 10) (v : Nat) :
    c.writePert r pg (0x084 + 4 * i) v =
      (let d := c.rsvd pg v (0xFFFFFFFF - headerMask pg.blk (0x084 + 4 * i))
       d.putHdr pg.frame { d.hdr pg.frame with
         pert := (c.hdr pg.frame).pert.setReg (BitVec.ofNat 32 (v &&& headerMask pg.blk (0x084 + 4 * i))) pg.blk.pertCap d.instant i }) := by
  have holds (n : Nat) (pos : 0 < n) (le : n ≤ 3) : c.session r n = true := by
    simp only [Chip.session, Bool.and_eq_true, decide_eq_true_eq] at hd ⊢
    omega
  have allowed (serves three two : Bool) : c.session r (if !serves || three then 3 else if two then 2 else 1) = true := by
    split_ifs <;> exact holds _ (by decide) (by decide)
  rw [Chip.writePert, if_neg (by rw [allowed]; exact Bool.false_ne_true)]
  interval_cases i <;> rfl

/-- A write that a D3 session allows changes the written register, and RSVD_WR, of its page alone. -/
theorem writePert_frame {c : Chip} {r : Requester} (hd : c.session r 3 = true) (pg : Page) {i : Nat} (hi : i < 10) (v req : Nat) :
    ∃ d l, d = c.writePert r pg (0x084 + 4 * i) v ∧ d = { c with headers := l } ∧
      (∀ j < 10, d.readHeader req pg (0x084 + 4 * j) =
        if j = i then (pertWritten (BitVec.ofNat 32 (v &&& headerMask pg.blk (0x084 + 4 * i))) pg.blk.pertCap i).toNat
        else c.readHeader req pg (0x084 + 4 * j)) ∧
      { d.hdr pg.frame with pert := {}, rsvdWr := false } = { c.hdr pg.frame with pert := {}, rsvdWr := false } ∧
      ∀ f, f ≠ pg.frame → d.hdr f = c.hdr f := by
  obtain ⟨l, noted⟩ := rsvd_frame c pg v (0xFFFFFFFF - headerMask pg.blk (0x084 + 4 * i))
  have hdrs (f : Nat) := rsvd_hdr c pg v (0xFFFFFFFF - headerMask pg.blk (0x084 + 4 * i)) f
  obtain ⟨k, frame⟩ : ∃ k, c.writePert r pg (0x084 + 4 * i) v = { c with headers := k } := by
    rw [writePert_session hd pg hi v, noted]
    exact ⟨_, rfl⟩
  refine ⟨_, k, rfl, frame, fun j hj => ?_, ?_, fun f hf => ?_⟩
  · rw [readHeader_pert _ _ _ hj, readHeader_pert _ _ _ hj, writePert_session hd pg hi v]
    simp only [Chip.hdr_putHdr, if_true]
    rw [reg_setReg _ _ _ _ hi hj]
    split <;> rfl
  · rw [writePert_session hd pg hi v]
    simp only [Chip.hdr_putHdr, if_true, hdrs]
  · rw [writePert_session hd pg hi v]
    simp only [Chip.hdr_putHdr, if_neg hf.symm, hdrs]

/-- The perturbation registers stand at the ten aligned offsets from 0x084 to 0x0A8. -/
theorem pertOffset {off : Nat} (lo : 0x084 ≤ off) (hi : off ≤ 0x0A8) (aligned : off % 4 = 0) : ∃ i < 10, off = 0x084 + 4 * i :=
  ⟨(off - 0x084) / 4, by omega, by omega⟩

/-- A write of a perturbation register of a page within reach. -/
theorem pertRow_reached {s : State} {r : Requester} {pg : Page} (h : s.reached r pg) {i : Nat} (hi : i < 10) (v : Nat) :
    Chip.pertRow s.ctx s.chip r pg (0x084 + 4 * i) v = s.chip.writePert r pg (0x084 + 4 * i) v := by
  rw [Chip.pertRow, reached_live h, if_neg (by simp; omega)]

/-- Without a debug session no kind may be written (R418). -/
theorem writePert_denied {c : Chip} {r : Requester} (none : c.sec.dbgLevel = 0) (pg : Page) (off v : Nat) : c.writePert r pg off v = c.deny pg := by
  have refused (n : Nat) : c.session r n = false := by
    rw [Chip.session, none]
    cases n <;> rfl
  rw [Chip.writePert]
  simp only [refused]
  rfl

/-- PERT_ARM by the holder of a D3 session. -/
theorem exec_pertArm_session {s : State} (h : s.sound) {r : Requester} {pg : Page} (reached : s.reached r pg) (hd : s.chip.session r 3 = true)
    {i : Nat} (hi : i < 10) {v : Nat} (hv : v < 2 ^ 32) :
    nextWith (exec (.pertArm r pg (0x084 + 4 * i) v) s) (fun t =>
      t.mem = s.mem ∧ t.fuse = s.fuse ∧ t.pending = s.pending ∧
      t.chip.readHeader r.code pg (0x084 + 4 * i) =
        (if i = 0 then v &&& headerMask pg.blk (0x084 + 4 * i) &&& (0xFFFFFFFF - (127 - (127 &&& pg.blk.pertCap)))
         else v &&& headerMask pg.blk (0x084 + 4 * i)) ∧
      (∀ j < 10, j ≠ i → t.chip.readHeader r.code pg (0x084 + 4 * j) = s.chip.readHeader r.code pg (0x084 + 4 * j)) ∧
      { t.chip.hdr pg.frame with pert := {}, rsvdWr := false } = { s.chip.hdr pg.frame with pert := {}, rsvdWr := false } ∧
      (∀ f, f ≠ pg.frame → t.chip.hdr f = s.chip.hdr f) ∧
      { t.chip with headers := [] } = { s.chip with headers := [] }) := by
  obtain ⟨d, l, written, frame, reads, own, others⟩ := writePert_frame hd pg hi v r.code
  have step : exec (.pertArm r pg (0x084 + 4 * i) v) s = .next { s with chip := d.between } :=
    onChip_just h (f := fun x c => Chip.pertRow x c r pg (0x084 + 4 * i) v) ((pertRow_reached reached hi v).trans written.symm) (by rw [frame])
  refine ⟨_, step, rfl, rfl, rfl, ?_, fun j hj ne => ?_, own, others, ?_⟩
  · exact (reads i hi).trans ((if_pos rfl).trans (pertWritten_toNat hv pg.blk _ i))
  · exact (reads j hj).trans (if_neg ne)
  · rw [frame]
    exact congrArg (fun b : Chip => { b with headers := [] }) (State.sound_staged h)

end Sys2Proof.Machine
end

section
/-! SUPPORT. A one-shot ECC injection into a wide buffer (R417, R419, R408): the lines that GRADBUF_ZERO writes, the one that is
injected, and the scrub that finds it; and the statement about windows and perturbation. -/

namespace Sys2Proof.Machine

/-! ### Pieces and lines of a run -/

/-- A piece of a run lies within it and within a page, and goes up to the end of one or the other. -/
theorem pieces_spec {fuel a n : Nat} {pc : Nat × Nat} (h : pc ∈ pieces fuel a n) :
    a ≤ pc.1 ∧ pc.1 + pc.2 ≤ a + n ∧ pc.1 % 4096 + pc.2 ≤ 4096 ∧ 0 < pc.2 ∧ ((pc.1 + pc.2) % 4096 = 0 ∨ pc.1 + pc.2 = a + n) := by
  induction fuel generalizing a n with
  | zero => exact absurd h List.not_mem_nil
  | succ fuel ih =>
    rw [pieces] at h
    split_ifs at h with empty
    · exact absurd h List.not_mem_nil
    · rcases List.mem_cons.mp h with rfl | h
      · dsimp only
        omega
      · have := ih h
        omega

/-- Every byte of a run lies in a piece. -/
theorem pieces_cover {fuel a n b : Nat} (hf : n ≤ 4096 * fuel - a % 4096) (lo : a ≤ b) (hi : b < a + n) :
    ∃ pc ∈ pieces fuel a n, pc.1 ≤ b ∧ b < pc.1 + pc.2 := by
  induction fuel generalizing a n with
  | zero => omega
  | succ fuel ih =>
    rw [pieces, if_neg (by omega)]
    by_cases first : b < a + min n (4096 - a % 4096)
    · exact ⟨_, List.mem_cons_self, lo, first⟩
    · obtain ⟨pc, hpc, within⟩ := ih (a := a + min n (4096 - a % 4096)) (n := n - min n (4096 - a % 4096)) (by omega) (by omega) (by omega)
      exact ⟨pc, List.mem_cons_of_mem _ hpc, within⟩

/-- The lines of a run of stored bytes. -/
theorem mem_linesOf {k n l : Nat} (hn : 0 < n) : l ∈ (linesOf k n).map (· / 64) ↔ k / 64 ≤ l ∧ l ≤ (k + n - 1) / 64 := by
  rw [linesOf, if_neg (by omega)]
  simp only [List.map_map, List.mem_map, List.mem_range, Function.comp_apply]
  constructor
  · rintro ⟨i, hi, rfl⟩
    omega
  · rintro ⟨lo, hi⟩
    exact ⟨l - k / 64, by omega, by omega⟩

/-! ### A wide buffer's bytes and where they are stored -/

/-- The key of byte 0 of a cell's wide buffer (R10, R15). -/
def Fuses.wideKey (fz : Fuses) (n : Nat) : Nat := 2 * 2 ^ 48 + fz.phys n * 2 ^ 21

theorem key_wide (c : Chip) (fz : Fuses) {n o : Nat} (hn : n < 96) (ho : o < 0x200000) : c.key fz (wideAddr n o) = fz.wideKey n + o := by
  unfold Chip.key wideAddr Fuses.wideKey
  rw [if_neg (by omega), if_neg (by omega), if_pos (by omega)]
  have cell : (0x20800000000 + n * 0x200000 + o - 0x20800000000) / 0x200000 = n := by omega
  have byte : (0x20800000000 + n * 0x200000 + o - 0x20800000000) % 0x200000 = o := by omega
  rw [cell, byte]

theorem store_wide (c : Chip) {n o : Nat} (hn : n < 96) (ho : o < 0x200000) : c.store (wideAddr n o) 1 = some (.wide n) := by
  unfold Chip.store Chip.region scratchAddr wideAddr
  simp only [Bool.and_eq_true, decide_eq_true_eq]
  have cell : (0x20800000000 + n * 0x200000 + o - 0x20800000000) / 0x200000 = n := by omega
  rw [if_pos (by omega), if_neg (by omega), if_neg (by omega), if_pos (by omega), cell, if_pos (by omega)]

theorem storagePage_wide (c : Chip) {n o : Nat} (hn : n < 96) (ho : o < 0x200000) :
    c.storagePage (wideAddr n o) = some ({ blk := .cdma, inst := n }, wideAddr n o % 0x200000 / 64 % 16) := by
  rw [Chip.storagePage, store_wide c hn ho]

theorem hiddenStore_wide {n o : Nat} (hn : n < 96) (ho : o < 0x200000) : hiddenStore (wideAddr n o) = none := by
  unfold hiddenStore hubAddr evtAddr rowAddr progAddr keepAddr wideAddr
  simp only [Bool.and_eq_true, decide_eq_true_eq]
  rw [if_neg (by omega), if_neg (by omega), if_neg (by omega), if_neg (by omega), if_neg (by omega)]

/-- Spare cells carry one logical cell each. -/
def Fuses.apart (fz : Fuses) : Prop := (∀ a < 96, fz.phys a < 104) ∧ ∀ a < 96, ∀ b < 96, fz.phys a = fz.phys b → a = b

theorem State.placed_apart {s : State} (h : s.placed) : s.fuse.apart := ⟨h.2.2.1, h.2.2.2⟩

/-- The address of a stored byte of a wide buffer. -/
theorem addrOf_wide (c : Chip) {fz : Fuses} (hp : fz.apart) {n o : Nat} (hn : n < 96) (ho : o < 0x200000) :
    c.addrOf fz (fz.wideKey n + o) = some (wideAddr n o) := by
  obtain ⟨bound, inj⟩ := hp
  have phys := bound n hn
  have tag : (fz.wideKey n + o) / 2 ^ 48 = 2 := by unfold Fuses.wideKey; omega
  have off : (fz.wideKey n + o) % 2 ^ 48 = fz.phys n * 2 ^ 21 + o := by unfold Fuses.wideKey; omega
  have found : (List.range 96).find? (fun m => fz.phys m = fz.phys n) = some n := by
    obtain ⟨m, hm⟩ : ∃ m, (List.range 96).find? (fun m => fz.phys m = fz.phys n) = some m :=
      Option.isSome_iff_exists.mp (List.find?_isSome.mpr ⟨n, List.mem_range.mpr hn, decide_eq_true rfl⟩)
    rw [hm, inj m (List.mem_range.mp (List.mem_of_find?_eq_some hm)) n hn (of_decide_eq_true (List.find?_some hm :))]
  unfold Chip.addrOf
  simp only [tag, off]
  rw [show (fz.phys n * 2 ^ 21 + o) / 2 ^ 21 = fz.phys n by omega, show (fz.phys n * 2 ^ 21 + o) % 2 ^ 21 = o by omega, found]
  rfl

/-! ### What an injection does to a line (R417, R419) -/

/-- A one-shot injection of two bits of one word, armed and not yet made, for the line at an address that a command writes. -/
structure Pert.strikes (t : Pert) (a : Nat) : Prop where
  ctrl : t.ctrl = 0x80000008#32
  fresh : t.used = []
  mode : bitField t.ecc.toNat 31 29 = 2
  bits : bitField t.ecc.toNat 8 0 ≠ bitField t.ecc.toNat 24 16
  word : bitField t.ecc.toNat 8 0 / 32 = bitField t.ecc.toNat 24 16 / 32
  addr : t.addrLo.toNat + 2 ^ 32 * t.addrHi.toNat = a

theorem Pert.strikes.armed {t : Pert} {a : Nat} (h : t.strikes a) (p : Option Nat) : t.armed 3 p = true := by
  rw [Pert.armed, h.ctrl, h.fresh]
  rfl

/-- The injection made: it is over. -/
theorem Pert.strikes.injected {t : Pert} {a : Nat} (h : t.strikes a) :
    (t.injected 3).fired = true ∧ (t.injected 3).expired = true ∧ (t.injected 3).ctrl.getLsbD 31 = false := by
  simp [Pert.injected, h.ctrl, h.fresh]

/-- Two bits of one word of a wide buffer are more than its code corrects (R408). -/
theorem eccHealth_word {b0 b1 : Nat} (bits : b0 ≠ b1) (word : b0 / 32 = b1 / 32) : eccHealth 2 1 b0 b1 = .ue := by
  have places : 39 * (b0 / 32) + b0 % 32 ≠ 39 * (b1 / 32) + b1 % 32 := by omega
  have same : (39 * (b1 / 32) + b1 % 32) / 39 = (39 * (b0 / 32) + b0 % 32) / 39 := by omega
  simp [eccHealth, bitPlace, codeCorrects, codeBits, List.eraseDups_cons, bits, places.symm, same]

/-- It is not for reads. -/
theorem Pert.strikes.onWrite {t : Pert} {a : Nat} (h : t.strikes a) : bitField t.ecc.toNat 31 30 = 1 ∧ bitAt t.ecc.toNat 29 = false := by
  have mode := h.mode
  unfold bitField bitAt at *
  exact ⟨by omega, beq_false_of_ne (by omega)⟩

/-- It is for one line. -/
theorem Pert.strikes.oneLine {t : Pert} {a : Nat} (h : t.strikes a) (ha : a < 2 ^ 44) :
    t.addrHi.getLsbD 31 = false ∧ t.addrLo.toNat + t.addrHi.toNat % 2 ^ 12 * 2 ^ 32 = a := by
  have addr := h.addr
  have high : t.addrHi.toNat < 2 ^ 12 := by omega
  refine ⟨?_, by omega⟩
  rw [← BitVec.testBit_toNat]
  exact Nat.testBit_eq_false_of_lt (by omega)

theorem wideAddr_lt {n q : Nat} (hn : n < 96) (hq : q < 0x200000) : wideAddr n q < 2 ^ 44 := by
  unfold wideAddr
  omega

/-- The page of a line of a wide buffer. -/
def widePage (n : Nat) : Page := { blk := .cdma, inst := n }

/-- ECC injection meets an access of a wide buffer by what its page has armed. -/
theorem eccHit_wide (c : Chip) {n q : Nat} (hn : n < 96) (hq : q < 0x200000) (p : Option Nat) (onRead : Bool) :
    c.eccHit p onRead (wideAddr n q) =
      (let t := (c.hdr (0x200 + n)).pert
       let e := t.ecc.toNat
       if t.armed 3 p && bitField e 31 30 ≠ 3 && bitAt e 29 == onRead &&
           (t.addrHi.getLsbD 31 || (t.addrLo.toNat + t.addrHi.toNat % 2 ^ 12 * 2 ^ 32) / 64 = wideAddr n q / 64) then
         some (widePage n, eccHealth 2 (bitField e 31 30) (bitField e 8 0) (bitField e 24 16))
       else none) := by
  have noEngine : isEng (wideAddr n q) = false := by
    rw [isEng, decide_eq_false (Nat.not_le.mpr (wideAddr_lt hn hq)), Bool.false_and]
  rw [Chip.eccHit, hiddenStore_wide hn hq, Option.elim, storagePage_wide c hn hq]
  simp only [noEngine, store_wide c hn hq]
  rfl

/-- An injection meets a write of its line alone. -/
theorem eccHit_strikes {c : Chip} {n o q : Nat} (hn : n < 96) (ho : o < 0x200000) (hq : q < 0x200000) (line : o % 64 = 0) (line' : q % 64 = 0)
    (h : (c.hdr (0x200 + n)).pert.strikes (wideAddr n o)) (p : Option Nat) :
    c.eccHit p false (wideAddr n q) = if q = o then some (widePage n, .ue) else none := by
  obtain ⟨mode, write⟩ := h.onWrite
  obtain ⟨single, addr⟩ := h.oneLine (wideAddr_lt hn ho)
  have same : wideAddr n o / 64 = wideAddr n q / 64 ↔ q = o := by
    unfold wideAddr
    omega
  rw [eccHit_wide c hn hq]
  simp only [h.armed, mode, write, single, addr, same, eccHealth_word h.bits h.word]
  simp

/-- Nothing is injected where nothing is armed. -/
theorem eccHit_unarmed {c : Chip} {n q : Nat} (hn : n < 96) (hq : q < 0x200000) (h : (c.hdr (0x200 + n)).pert.ctrl.getLsbD 31 = false)
    (p : Option Nat) (onRead : Bool) : c.eccHit p onRead (wideAddr n q) = none := by
  have off : (c.hdr (0x200 + n)).pert.armed 3 p = false := by rw [Pert.armed, h, Bool.false_and, Bool.false_and, Bool.false_and]
  rw [eccHit_wide c hn hq]
  simp only [off, Bool.false_and, if_neg Bool.false_ne_true]

/-! ### The writes of a run in a wide buffer -/

/-- A staged write of bytes covers a line whole. -/
def Store.fills (st : Store) (l : Nat) : Prop := ∃ k d, st = .bytes k d ∧ k ≤ 64 * l ∧ 64 * l + 64 ≤ k + d.length

theorem Memory.lines_setBytes (m : Memory) (k : Nat) (d : List Byte) : (m.setBytes k d).lines = m.lines := by
  induction d generalizing m k with
  | nil => rfl
  | cons b d ih => exact ih (m.setByte k b) (k + 1)

/-- A write of bytes makes the lines that it covers good, and leaves the others (R153, R409). -/
theorem health_bytes (m : Memory) (k l : Nat) (d : List Byte) :
    ((Store.bytes k d).apply m).health l = if k ≤ 64 * l ∧ 64 * l + 64 ≤ k + d.length then .good else m.health l := by
  show tabGet .good ((m.clearLines k d.length).setBytes k d).lines l = _
  rw [Memory.lines_setBytes]
  refine (tabGet_filter_key .good (fun l => !(k ≤ 64 * l && 64 * l + 64 ≤ k + d.length)) m.lines l).trans ?_
  by_cases covered : k ≤ 64 * l ∧ 64 * l + 64 ≤ k + d.length
  · rw [if_pos covered, if_neg (by simpa [not_or, Nat.not_lt] using covered)]
  · rw [if_neg covered, if_pos (by simp; omega)]
    rfl

/-- A line that one of the writes covers is good after them. -/
theorem commit_fills {m : Memory} {ss : List Store} {l : Nat} (bytes : ∀ st ∈ ss, ∃ k d, st = .bytes k d)
    (h : (∃ st ∈ ss, st.fills l) ∨ m.health l = .good) : (m.commit ss).health l = .good := by
  induction ss generalizing m with
  | nil => exact h.resolve_left fun ⟨_, hm, _⟩ => absurd hm List.not_mem_nil
  | cons st ss ih =>
    obtain ⟨k, d, rfl⟩ := bytes st List.mem_cons_self
    refine ih (m := (Store.bytes k d).apply m) (fun st hm => bytes st (List.mem_cons_of_mem _ hm)) ?_
    rcases h with ⟨st, hm, fills⟩ | good
    · rcases List.mem_cons.mp hm with rfl | hm
      · obtain ⟨k', d', same, covers⟩ := fills
        cases same
        exact .inr ((health_bytes m k l d).trans (if_pos covers))
      · exact .inl ⟨st, hm, fills⟩
    · exact .inr (by rw [health_bytes, good, ite_self])

section

variable {c : Chip} {fz : Fuses} {n off len : Nat} (hn : n < 96) (fit : off + len ≤ 0x200000)
include hn fit

/-- The zeros of a wide buffer are staged piece by piece within it. -/
theorem wideZeros_piece {st : Store} (h : st ∈ c.stagedOf fz [(wideAddr n off, List.replicate len 0)]) :
    ∃ q e, st = .bytes (fz.wideKey n + q) e ∧ off ≤ q ∧ 0 < e.length ∧ q + e.length ≤ off + len := by
  simp only [Chip.stagedOf, List.flatMap_cons, List.flatMap_nil, List.append_nil, Chip.bytesAt, List.mem_map, List.length_replicate] at h
  obtain ⟨pc, hpc, rfl⟩ := h
  obtain ⟨lo, hi, -, pos, -⟩ := pieces_spec hpc
  obtain ⟨q, hq⟩ : ∃ q, pc.1 = wideAddr n q := ⟨pc.1 - wideAddr n 0, by unfold wideAddr at *; omega⟩
  have start : off ≤ q := by unfold wideAddr at *; omega
  have stop : q + pc.2 ≤ off + len := by unfold wideAddr at *; omega
  have size : ((List.replicate len (0 : Byte)).drop (pc.1 - wideAddr n off) |>.take pc.2).length = pc.2 := by
    rw [List.length_take, List.length_drop, List.length_replicate]
    omega
  refine ⟨q, _, ?_, start, by rwa [size], by rwa [size]⟩
  rw [← key_wide c fz hn (show q < 0x200000 by omega), ← hq]

/-- A whole line of it lies in one piece. -/
theorem wideZeros_fill {o line : Nat} (lo : off ≤ o) (hi : o + 64 ≤ off + len) (hl : 64 * line = fz.wideKey n + o) :
    ∃ st ∈ c.stagedOf fz [(wideAddr n off, List.replicate len 0)], st.fills line ∧ line ∈ st.lines := by
  obtain ⟨pc, hpc, first, last⟩ := pieces_cover (fuel := len / 4096 + 2) (a := wideAddr n off) (n := len) (b := wideAddr n o) (by omega)
    (by unfold wideAddr; omega) (by unfold wideAddr; omega)
  obtain ⟨below, above, -, -, cut⟩ := pieces_spec hpc
  have aligned : o % 64 = 0 := by unfold Fuses.wideKey at hl; omega
  obtain ⟨q, hq⟩ : ∃ q, pc.1 = wideAddr n q := ⟨pc.1 - wideAddr n 0, by unfold wideAddr at *; omega⟩
  have start : q ≤ o := by unfold wideAddr at *; omega
  have stop : o + 64 ≤ q + pc.2 := by unfold wideAddr at *; omega
  have size : ((List.replicate len (0 : Byte)).drop (pc.1 - wideAddr n off) |>.take pc.2).length = pc.2 := by
    rw [List.length_take, List.length_drop, List.length_replicate]
    omega
  have key : c.key fz pc.1 = fz.wideKey n + q := by rw [hq, key_wide c fz hn (by omega)]
  refine ⟨.bytes (c.key fz pc.1) (((List.replicate len 0).drop (pc.1 - wideAddr n off)).take pc.2), ?_, ⟨_, _, rfl, ?_, ?_⟩, ?_⟩
  · simp only [Chip.stagedOf, List.flatMap_cons, List.flatMap_nil, List.append_nil, Chip.bytesAt, List.mem_map, List.length_replicate]
    exact ⟨pc, hpc, rfl⟩
  · omega
  · omega
  · rw [Store.lines, mem_linesOf (by omega), size, key]
    omega

end

/-! ### The lines of a step that meet the injection -/

section

variable {c : Chip} {x : Ctx} {p : Option Nat} {l a : Nat} (at_ : c.addrOf x.fuse (64 * l) = some a)
include at_

theorem eccLine_miss (h : c.eccHit p false a = none) : Chip.eccLine x p c l = c := by
  simp only [Chip.eccLine, at_, h]

theorem eccLine_hit {pg : Page} (h : c.eccHit p false a = some (pg, .ue)) (good : (x.now c).mem.health l = .good) :
    Chip.eccLine x p c l = (c.stage (.injected l .ue)).injected pg 3 := by
  simp only [Chip.eccLine, at_, h, good]
  rfl

end

/-- A fold whose steps all leave the value leaves it. -/
theorem foldl_idle {α β : Type} {g : β → α → β} {l : List α} {b : β} (h : ∀ a ∈ l, g b a = b) : l.foldl g b = b := by
  induction l with
  | nil => rfl
  | cons a l ih =>
    rw [List.foldl_cons, h a List.mem_cons_self]
    exact ih fun a ha => h a (List.mem_cons_of_mem _ ha)

/-- Of the lines of a wide buffer that a step writes, the first that is the injection's gets the error; then it is over. -/
theorem eccLines_strike {c : Chip} {x : Ctx} {n o line : Nat} (hp : x.fuse.apart) (hn : n < 96) (ho : o < 0x200000) (aligned : o % 64 = 0)
    (hline : 64 * line = x.fuse.wideKey n + o) {ls : List Nat} (hls : ∀ l ∈ ls, ∃ q < 0x200000, 64 * l = x.fuse.wideKey n + q)
    (met : line ∈ ls) (strikes : (c.hdr (0x200 + n)).pert.strikes (wideAddr n o)) (good : (x.now c).mem.health line = .good) (p : Option Nat) :
    ls.foldl (Chip.eccLine x p) c = (c.stage (.injected line .ue)).injected (widePage n) 3 := by
  have place {l q : Nat} (h : 64 * l = x.fuse.wideKey n + q) : q % 64 = 0 := by unfold Fuses.wideKey at h; omega
  have at_ {l q : Nat} (hq : q < 0x200000) (h : 64 * l = x.fuse.wideKey n + q) (d : Chip) : d.addrOf x.fuse (64 * l) = some (wideAddr n q) :=
    h ▸ addrOf_wide d hp hn hq
  obtain ⟨before, after, rfl, first⟩ := List.eq_append_cons_of_mem met
  rw [List.foldl_append, List.foldl_cons]
  have early : before.foldl (Chip.eccLine x p) c = c := foldl_idle fun l hl => by
    obtain ⟨q, hq, key⟩ := hls l (List.mem_append_left _ hl)
    have other : q ≠ o := by
      rintro rfl
      exact first (by rwa [show line = l by omega])
    exact eccLine_miss (at_ hq key c) ((eccHit_strikes hn ho hq aligned (place key) strikes p).trans (if_neg other))
  have strike : Chip.eccLine x p c line = (c.stage (.injected line .ue)).injected (widePage n) 3 :=
    eccLine_hit (at_ ho hline c) ((eccHit_strikes hn ho ho aligned aligned strikes p).trans (if_pos rfl)) good
  rw [early, strike]
  refine foldl_idle fun l hl => ?_
  obtain ⟨q, hq, key⟩ := hls l (List.mem_append_right _ (List.mem_cons_of_mem _ hl))
  refine eccLine_miss (at_ hq key _) (eccHit_unarmed hn hq ?_ p false)
  rw [Chip.injected, Chip.hdr_putHdr, if_pos (show Page.frame (widePage n) = 0x200 + n from rfl)]
  exact strikes.injected.2.2

/-! ### The scrub that finds the injected error (R408, R410) -/

/-- A read that meets no injection sees memory as it is. -/
theorem onRead_miss {c : Chip} {p : Option Nat} {a : Nat} (h : c.eccHit p true a = none) (x : Ctx) : c.onRead x p [a] = (c, x) := by
  simp only [Chip.onRead, List.foldl_cons, List.foldl_nil, h, ite_self]

/-- An error is captured where no entry is held (R411). -/
theorem log_captures {c : Chip} {f : Nat} (h : (c.hdr f).elog.valid = false) (r : LogReq) :
    ∃ e, ((c.log f r).hdr f).elog = e ∧ e.valid = true ∧ e.injected = r.injected ∧ e.cls = r.cls ∧ e.severity = r.sev ∧ e.detail = r.detail ∧
      e.addr = r.addr := by
  have held (k : Header) : (((c.putHdr f k).fire f 0).hdr f).elog = k.elog := by
    have kept : (((c.putHdr f k).fire f 0).hdr f).kept = ((c.putHdr f k).hdr f).kept := (fire_reports _ f 0).2.1 f
    rw [Chip.hdr_putHdr, if_pos rfl] at kept
    exact (congrArg Header.elog kept :)
  unfold Chip.log
  dsimp only
  rw [if_pos (by rw [h]; rfl), held]
  exact ⟨_, rfl, rfl, rfl, rfl, rfl, rfl, rfl⟩

/-- An access of a wide buffer is none of a DRAM tier. -/
theorem tierOf_wide (c : Chip) {n o : Nat} (hn : n < 96) (ho : o < 0x200000) : c.tierOf (wideAddr n o) = none := by
  have region : c.region (wideAddr n o) 1 = some (.wide n) := by
    rw [← store_wide c hn ho, Chip.store, if_pos (wideAddr_lt hn ho)]
  rw [Chip.tierOf, region]

/-- An error that the code of an SRAM does not correct, met by no command (R153, R408). -/
theorem uncorrected_sram {c : Chip} {x : Ctx} {a unit : Nat} {pg : Page} {k : Region.Kind} (page : c.storagePage a = some (pg, unit))
    (store : c.store a 1 = some k) (tier : ∀ d : Chip, d.tierOf a = none) (addr : a < 2 ^ 44) (injected : c.lineInjected x a = true) :
    c.uncorrected x a scrubber = (c.stage (.injected (c.key x.fuse a / 64) .poison)).log pg.frame
      { cls := 2, sev := 1, detail := k.eccDetail, unit := unit, addr := some a, injected := true } := by
  unfold Chip.uncorrected
  extract_lets l d
  have poisoned : d = c.stage (.injected (c.key x.fuse a / 64) .poison) := by
    dsimp only [d]
    rw [injected, if_pos rfl]
  have page' : d.storagePage a = some (pg, unit) := poisoned ▸ page
  have store' : d.store a 1 = some k := poisoned ▸ store
  have injected' : d.lineInjected x a = true := poisoned ▸ injected
  rw [page', store']
  dsimp only
  rw [tier, if_pos addr, injected', poisoned]
  rfl

section

variable {n o a : Nat} (hn : n < 96) (ho : o < 0x200000) (ha : a = wideAddr n o)
include hn ho ha

/-- A line of a wide buffer with an error that its code does not correct, read by no command: it is poisoned, and the error is logged in
the page of its cell. -/
theorem readLines_uncorrected {c : Chip} {x : Ctx} (unarmed : (c.hdr (0x200 + n)).pert.ctrl.getLsbD 31 = false) (bad : c.lineHealth x a = .ue)
    (injected : c.lineInjected x a = true) :
    ∃ unit, (Chip.readLines x scrubber [a] c).1 = (c.stage (.injected (c.key x.fuse a / 64) .poison)).log (0x200 + n)
      { cls := 2, sev := 1, detail := 3, unit := unit, addr := some a, injected := true } := by
  have tier (d : Chip) : d.tierOf a = none := ha ▸ tierOf_wide d hn ho
  have direct : c.tierLine a false = c := by rw [Chip.tierLine, tier]
  obtain ⟨unit, page⟩ : ∃ unit, c.storagePage a = some (widePage n, unit) := by
    refine ⟨a % 0x200000 / 64 % 16, ?_⟩
    rw [widePage, ha, storagePage_wide c hn ho]
  have miss : c.eccHit scrubber.part true a = none := ha ▸ eccHit_unarmed hn ho unarmed _ true
  have read : (Chip.readLines x scrubber [a] c).1 = c.uncorrected x a scrubber := by
    rw [Chip.readLines, direct, onRead_miss miss]
    simp only [bad]
  have sram : c.store a 1 = some (.wide n) := ha ▸ store_wide c hn ho
  have addr : a < 2 ^ 44 := ha ▸ wideAddr_lt hn ho
  have logged := uncorrected_sram page sram tier addr injected
  rw [show Page.frame (widePage n) = 0x200 + n from rfl, show Region.Kind.eccDetail (.wide n) = 3 from rfl] at logged
  exact ⟨unit, read.trans logged⟩

/-- SRAM_SCRUB of a line of a wide buffer that bears an injected error beyond its code (R408, R410, R411). -/
theorem exec_sramScrub_injected {t : State} (h : t.sound) {line : Nat} (aligned : o % 64 = 0) (hline : 64 * line = t.fuse.wideKey n + o)
    (bad : t.mem.health line = .ue) (injected : t.mem.isInjected line = true) (unarmed : (t.chip.hdr (0x200 + n)).pert.ctrl.getLsbD 31 = false)
    (free : (t.chip.hdr (0x200 + n)).elog.valid = false) (on : t.chip.sramOn a = true) (power : t.chip.power.off = false) :
    nextWith (exec (.sramScrub a []) t) (fun u =>
      let e := (u.chip.hdr (0x200 + n)).elog
      u.mem.health line = .poison ∧ e.valid = true ∧ e.injected = true ∧ e.cls = 2 ∧ e.severity = 1 ∧ e.detail = 3 ∧ e.addr = some a) := by
  have place : t.chip.key t.fuse a / 64 = line := by
    rw [ha, key_wide _ _ hn ho]
    omega
  have whole : 64 * (a / 64) = a := by
    unfold wideAddr at ha
    omega
  have sram : t.chip.store a 1 = some (.wide n) := ha ▸ store_wide t.chip hn ho
  have reads := sramScrub_reads (x := t.ctx) on power (by rw [sram]; simp) (by rw [sram]; simp)
  obtain ⟨unit, read⟩ := readLines_uncorrected hn ho ha (x := t.ctx) unarmed ((congrArg t.mem.health place).trans bad)
    ((congrArg t.mem.isInjected place).trans injected)
  rw [whole, read, show t.chip.key t.ctx.fuse a / 64 = line from place] at reads
  have staged : (Chip.sramScrub t.ctx t.chip a []).staged = [.injected line .poison] := by
    rw [reads, (log_fields _ _ _).2.1, Chip.stage, State.sound_unstaged h, List.nil_append]
  refine (onChip_lineless h (f := fun x c => Chip.sramScrub x c a []) (fun st hst => ?_) _).mpr ?_
  · rw [staged] at hst
    rw [List.mem_singleton.mp hst]
    rfl
  · rw [staged, reads]
    obtain ⟨e, rfl, entry⟩ := log_captures (c := t.chip.stage (.injected line .poison)) free
      { cls := 2, sev := 1, detail := 3, unit := unit, addr := some a, injected := true }
    exact ⟨(Memory.health_setHealth h.1 line line .poison).trans (if_pos rfl), entry⟩

end

/-! ### GRADBUF_ZERO over the injection's line -/

/-- A line marked with an injected error bears it. -/
theorem commit_injected {m : Memory} (h : m.wf = true) (line : Nat) :
    (m.commit [.injected line .ue]).health line = .ue ∧ (m.commit [.injected line .ue]).isInjected line = true :=
  ⟨(Memory.health_setHealth h line line .ue).trans (if_pos rfl),
    (tabGet_sparseSet false _ line line true ((Memory.wf_iff _).mp (Memory.wf_setHealth h line .ue)).2.2).trans (if_pos rfl)⟩

/-- The lines that the zeros of a wide buffer write are lines of it. -/
theorem wideZeros_lines {c : Chip} {fz : Fuses} {n off len : Nat} (hn : n < 96) (fit : off + len ≤ 0x200000) {l : Nat}
    (h : l ∈ (c.stagedOf fz [(wideAddr n off, List.replicate len 0)]).flatMap Store.lines) : ∃ q < 0x200000, 64 * l = fz.wideKey n + q := by
  obtain ⟨st, hst, hl⟩ := List.mem_flatMap.mp h
  obtain ⟨q, e, rfl, lo, pos, hi⟩ := wideZeros_piece hn fit hst
  have range := (mem_linesOf pos).mp hl
  refine ⟨64 * l - fz.wideKey n, ?_⟩
  unfold Fuses.wideKey at *
  omega

/-- GRADBUF_ZERO whose zeros cover the line of a one-shot injection stores them, the line with the error; the injection is over. -/
theorem exec_gradbufZero_struck {s : State} (h : s.sound) (placed : s.placed) {id : Nat} {k : Cmd} (hk : s.chip.runs id 0x41 k)
    (held : s.chip.accumHeld k k.inst = false) (hn : k.inst < 96) (fit : k.fld 16 4 + k.fld 20 4 ≤ 0x200000) {o line : Nat} (lo : k.fld 16 4 ≤ o)
    (hi : o + 64 ≤ k.fld 16 4 + k.fld 20 4) (hline : 64 * line = s.fuse.wideKey k.inst + o) (armed : s.chip.eccFrames ≠ [])
    (strikes : (s.chip.hdr (0x200 + k.inst)).pert.strikes (wideAddr k.inst o)) :
    nextWith (exec (.gradbufZero id) s) (fun t => t.sound ∧ t.fuse = s.fuse ∧ t.mem.health line = .ue ∧ t.mem.isInjected line = true ∧
      t.chip.hdr (0x200 + k.inst) = { s.chip.hdr (0x200 + k.inst) with pert := (s.chip.hdr (0x200 + k.inst)).pert.injected 3 } ∧
      t.chip.power = s.chip.power) := by
  have ho : o < 0x200000 := by omega
  have aligned : o % 64 = 0 := by unfold Fuses.wideKey at hline; omega
  obtain ⟨d, a, ended, wrote, -, rest⟩ := gradZero_wrote s.ctx held
  set e := d.endCmd { k with acct := a } 0 0
  set zeros := s.chip.stagedOf s.fuse [(wideAddr k.inst (k.fld 16 4), List.replicate (k.fld 20 4) 0)]
  have staged : e.staged = zeros := wrote.staged_of.trans (congrArg (· ++ _) (State.sound_unstaged h))
  have headers : e.headers = s.chip.headers := (congrArg Chip.headers rest :)
  have power : e.power = s.chip.power := (congrArg Chip.power rest :)
  have hdr (f : Nat) : e.hdr f = s.chip.hdr f := by rw [Chip.hdr, headers, Chip.hdr]
  obtain ⟨st, hst, fills, met⟩ := wideZeros_fill (c := s.chip) hn fit lo hi hline
  have good : (s.mem.commit zeros).health line = .good := commit_fills (fun st hst => by
    obtain ⟨q, b, rfl, -⟩ := wideZeros_piece hn fit hst
    exact ⟨_, b, rfl⟩) (.inl ⟨st, hst, fills⟩)
  have struck (p : Option Nat) : e.eccStored s.ctx p = (e.stage (.injected line .ue)).injected (widePage k.inst) 3 := by
    rw [Chip.eccStored, if_neg (by rw [List.isEmpty_iff]; exact armed)]
    refine eccLines_strike (x := s.ctx) (State.placed_apart placed) hn ho aligned hline (fun l hl => ?_) ?_ ?_ ?_ p
    · rw [staged] at hl
      exact wideZeros_lines hn fit hl
    · rw [staged]
      exact List.mem_flatMap.mpr ⟨st, hst, met⟩
    · rwa [hdr]
    · show (s.mem.commit e.staged).health line = .good
      rwa [staged]
  have stores : s.mem.commit (zeros ++ [.injected line .ue]) = (s.mem.commit zeros).commit [.injected line .ue] := Memory.commit_append _ _ _
  have own : ((e.stage (.injected line .ue)).injected (widePage k.inst) 3).hdr (0x200 + k.inst) =
      { s.chip.hdr (0x200 + k.inst) with pert := (s.chip.hdr (0x200 + k.inst)).pert.injected 3 } := by
    rw [Chip.injected, Chip.hdr_putHdr, if_pos (show Page.frame (widePage k.inst) = 0x200 + k.inst from rfl), ← hdr]
    rfl
  have wf := Memory.wf_commit h.1 zeros
  obtain ⟨ue, marked⟩ := commit_injected wf line
  show nextWith (onOp id 0x41 Chip.gradZero s) _
  rw [onOp, onStep_next, State.sound_staged h, runOp_runs _ hk, ended, struck]
  refine ⟨⟨?_, rfl, h.2.2⟩, rfl, ?_, ?_, own, power⟩
  · exact Memory.wf_commit h.1 _
  · show (s.mem.commit (e.staged ++ [.injected line .ue])).health line = .ue
    rwa [staged, stores]
  · show (s.mem.commit (e.staged ++ [.injected line .ue])).isInjected line = true
    rwa [staged, stores]

/-- An SRAM line of a wide buffer can be scrubbed where its cell's domain is on. -/
theorem sramOn_wide (c : Chip) {n o : Nat} (hn : n < 96) (ho : o < 0x200000) : c.sramOn (wideAddr n o) = (c.domain (n / 2)).on := by
  rw [Chip.sramOn, store_wide c hn ho]

/-! ### The statement -/

/-- Settles O11: a write of WIN_CTRL follows the slot's cause of refusal, a write of a perturbation register changes that register of its page,
and of the lines that GRADBUF_ZERO writes the injection meets its own alone, where the scrub then finds it. -/
theorem windowsAndPerturbation : Obligations.WindowsAndPerturbation := by
  refine ⟨fun s r h reaches may => ?_, fun s r pg off v h reached lo le aligned => ?_, ?_⟩
  · intro i w clear shaped inside refused
    have refuses {err : Nat} (off : w.enable = false) (cause : s.chip.windowErr i = err) (some : err ≠ 0) : refused err :=
      exec_winEnable h reaches may (winCtrl_refused off cause some) rfl
    refine ⟨fun on => ?_, fun off hs hin hc idle => ?_, fun off hs => ?_, fun off hs hin => ?_, fun off hs hin hc => ?_, fun off hs hin hc busy => ?_,
      fun idle => ?_, fun busy => ?_⟩
    · exact (exec_winEnable h reaches may (winCtrl_enabled on) rfl).trans (State.sound_next h)
    · have accepts : s.chip.windowErr i = 0 := (windowErr_clear hs hin hc).trans (if_neg (Bool.eq_false_iff.mp idle))
      exact exec_winEnable h reaches may (winCtrl_accepted off accepts) rfl
    · exact refuses off (windowErr_shape hs) (by decide)
    · exact refuses off (windowErr_outside hs hin) (by decide)
    · exact refuses off (windowErr_overlap hs hin hc) (by decide)
    · exact refuses off ((windowErr_clear hs hin hc).trans (if_pos busy)) (by decide)
    · exact exec_winEnable h reaches may (winCtrl_off.trans (if_neg (Bool.eq_false_iff.mp idle))) rfl
    · exact exec_winEnable h reaches may (winCtrl_off.trans (if_pos busy)) rfl
  · obtain ⟨i, hi, rfl⟩ := pertOffset lo le aligned
    refine ⟨fun session hv => ?_, fun none => ?_⟩
    · obtain ⟨t, step, mem, fuse, pending, own, others, rest⟩ := exec_pertArm_session h reached session hi hv
      refine ⟨t, step, mem, fuse, pending, ?_, fun q lo hi aligned ne => ?_, rest⟩
      · simpa using own
      · obtain ⟨j, hj, rfl⟩ := pertOffset lo hi aligned
        exact others j hj fun same => ne (same ▸ rfl)
    · exact onChip_just h (f := fun x c => Chip.pertRow x c r pg _ v) ((pertRow_reached reached hi v).trans (writePert_denied none pg _ v)) rfl
  · intro s id a k hs placed hk held hn f h p off b0 b1 line fit lo hi aligned listed _ ctrl fresh mode bits word addr
    obtain ⟨o, ho⟩ : ∃ o, a = wideAddr k.inst o := ⟨a - wideAddr k.inst 0, by unfold wideAddr at *; omega⟩
    have first : off ≤ o := by unfold wideAddr at *; omega
    have last : o + 64 ≤ off + k.fld 20 4 := by unfold wideAddr at *; omega
    have strikes : p.strikes (wideAddr k.inst o) := ⟨ctrl, fresh, mode, bits, word, addr.trans ho⟩
    have hline : 64 * line = s.fuse.wideKey k.inst + o := by
      have key : s.chip.key s.fuse a = s.fuse.wideKey k.inst + o := ho ▸ key_wide s.chip s.fuse hn (by omega)
      unfold wideAddr Fuses.wideKey at *
      omega
    have inside : o < 0x200000 := by omega
    have aligned : o % 64 = 0 := by unfold Fuses.wideKey at hline; omega
    have armed : s.chip.eccFrames ≠ [] :=
      List.ne_nil_of_mem (List.mem_map_of_mem (List.mem_filter.mpr ⟨listed, by rw [show h.pert.ctrl = _ from ctrl]; rfl⟩))
    obtain ⟨t, step, sound, fuse, ue, marked, own, power⟩ := exec_gradbufZero_struck hs placed hk held hn fit first last hline armed strikes
    obtain ⟨fired, expired, disarmed⟩ := strikes.injected
    have after : (t.chip.hdr f).pert = p.injected 3 := congrArg Header.pert own
    refine ⟨t, step, ue, marked, after ▸ fired, after ▸ expired, after ▸ disarmed, fun free on supply => ?_⟩
    have on' : t.chip.sramOn a = true := by
      rw [ho, sramOn_wide t.chip hn inside, Chip.domain, power]
      rw [ho, sramOn_wide s.chip hn inside] at on
      exact on
    exact exec_sramScrub_injected hn inside ho sound aligned (fuse ▸ hline) ue marked (after ▸ disarmed)
      ((congrArg (fun h => h.elog.valid) own).trans free) on' (power ▸ supply)

end Sys2Proof.Machine
end

section
/-! SUPPORT. RING_RESET of a ring whose region lies outside bridge SRAM (R170), as `State.placed` does not forbid. -/

namespace Sys2Proof.Machine

/-- RING_RESET of ring 0, running. -/
def strayReset : Cmd := { id := 1, fn := 0, sq := 0, desc := BitVec.ofNat 512 0x51, arrival := 0, phase := .running }

/-- A ring of one slot whose region is the first line of the model's addresses of the flash. -/
def strayRing : Ring :=
  { tPart := 0, sPart := 1, base := 2 ^ 45 - 0x21000000000, depth := 1, k := 1, tempIdx := 0, v := 1, vsliceT := 128, vsliceS := 128, tCells := [0]
    sCells := [1], rowsMax := 1, seqStart := 0, alpha := 0, labelAddr := 0, lossAddr := 0, tau := 0, scale := 0, nextSeq := 0 }

/-- A listed byte behind the flash, which has no address. -/
def strayKey : Nat := 7 * 2 ^ 48

/-- The state after reset with that ring, command and byte. -/
def strayState : State :=
  { State.reset with chip := { cmds := [strayReset], bridge := { rings := [(0, strayRing)] } }, mem := { cells := [(strayKey, 1)], lines := [] } }

theorem strayState_sound : strayState.sound := ⟨by decide, rfl, Nat.zero_le _, fun _ hi => by cases hi⟩

theorem strayState_placed : strayState.placed := by
  refine ⟨fun e he => ?_, fun _ he => (by cases he), by decide +kernel, by decide +kernel⟩
  obtain rfl := List.mem_singleton.mp he
  exact .inr (.inr (.inr (by decide)))

theorem strayState_unarmed : strayState.chip.unarmed := fun _ he => by cases he

theorem strayReset_runs : strayState.chip.runs 1 0x51 strayReset ∧ strayState.chip.ringOf strayReset = some strayRing := by
  unfold Chip.runs
  decide +kernel

/-- The ring's region is stored memory. -/
theorem strayRing_stored : strayState.chip.stored (bridgeAddr strayRing.base) strayRing.regionBytes :=
  ⟨.flash, by decide +kernel, by decide, by decide⟩

/-- The byte lies outside it. -/
theorem strayKey_outside :
    ¬ strayState.chip.covers strayState.fuse [(bridgeAddr strayRing.base, strayRing.regionBytes)] strayKey := by
  rintro ⟨r, hr, i, hi, hk⟩
  obtain rfl := List.mem_singleton.mp hr
  exact absurd hk ((by decide +kernel : ∀ i < strayRing.regionBytes,
    strayState.chip.key strayState.fuse (bridgeAddr strayRing.base + i) ≠ strayKey) i hi)

/-- Zeroing the region zeroes the byte too: `Chip.addrOf` answers the first address of the flash for it. -/
theorem strayReset_zeroes : nextWith (exec (.ringReset 1) strayState) (fun t => t.mem.byte strayKey = 0) :=
  ⟨_, rfl, by decide +kernel⟩

/-- Refutes O34: the clause of RING_RESET fails for an open ring whose region lies outside bridge SRAM, as neither `State.sound` nor
`State.placed` forbids. At the model's addresses of the flash, `Chip.addrOf` sends listed bytes that have no address into the region, and
zeroing it changes them too. RING_OPEN opens only rings within bridge SRAM (R173); the statement lacks the premise that this one is. -/
theorem not_ringCommands : ¬ Obligations.RingCommands := by
  unfold Obligations.RingCommands
  intro h
  obtain ⟨runs, opened⟩ := strayReset_runs
  obtain ⟨-, reset⟩ := h strayState 1 strayReset strayState_sound strayState_placed strayState_unarmed
  obtain ⟨t, ht, -, -, -, stores, -⟩ := reset strayRing runs opened
  have length : runsOf [(bridgeAddr strayRing.base, List.replicate strayRing.regionBytes (0 : Byte))] =
      [(bridgeAddr strayRing.base, strayRing.regionBytes)] := by simp only [runsOf, List.map_cons, List.map_nil, List.length_replicate]
  rw [State.stores, length] at stores
  obtain ⟨kept, -⟩ := stores fun o ho _ => by
    obtain rfl := List.mem_singleton.mp ho
    exact strayRing_stored
  obtain ⟨u, hu, zeroed⟩ := strayReset_zeroes
  obtain rfl : u = t := Host.Outcome.next.inj (hu.symm.trans ht)
  have stands : u.mem.byte strayKey = 1 := kept strayKey strayKey_outside
  exact absurd (stands.symm.trans zeroed) (by decide)

end Sys2Proof.Machine
end

section
/-! SUPPORT. The window of a head command (R177-R187): it folds its logits, writes its gradients and records, and keeps or closes its row set;
and the rows it begins from records (R171). -/

namespace Sys2Proof.Machine

/-! ### Writing beside what a command is charged -/

/-- The chip without its partitions and virtual times, where a head command is charged (R318, R319). -/
def Chip.uncharged (c : Chip) : Chip := { c with parts := [], vtime := [] }

/-- `d` is `c` with bytes staged at local addresses, but for what writing, reporting and charging change; commands act for the partitions they
acted for. -/
structure Chip.Headed (fz : Fuses) (c d : Chip) (outs : List (Nat × List Byte)) : Prop where
  outputs : Chip.Outputs fz c.uncharged d.uncharged outs
  acts : ∀ k, d.cmdPart k = c.cmdPart k

/-- A changed partition keeps its function, so that commands act for it as before (R339). -/
theorem cmdPart_modPart (c : Chip) (p : Nat) {f : Part → Part} (hf : ∀ pt, (f pt).fn = pt.fn) (k : Cmd) :
    (c.modPart p f).cmdPart k = c.cmdPart k := by
  have fn (e : Nat × Part) : (if e.1 = p then (e.1, f e.2) else e).2.fn = e.2.fn := by split <;> simp [hf]
  have number (e : Nat × Part) : (if e.1 = p then (e.1, f e.2) else e).1 = e.1 := by split <;> rfl
  simp only [Chip.cmdPart, Chip.partOfFn, Chip.modPart, List.find?_map, Option.map_map, Function.comp_def, fn, number]

namespace Chip.Headed

variable {fz : Fuses} {c d e : Chip} {outs more : List (Nat × List Byte)}

theorem of_outputs (h : Chip.Outputs fz c d outs) : Chip.Headed fz c d outs where
  outputs := ⟨⟨(congrArg Chip.uncharged h.bare :), h.kept⟩, h.staged⟩
  acts k := h.toAlike.same (fun b => b.cmdPart k) fun _ => rfl

theorem refl (fz : Fuses) (c : Chip) : Chip.Headed fz c c [] := of_outputs (.refl fz c)

theorem trans (h : Chip.Headed fz c d outs) (k : Chip.Headed fz d e more) : Chip.Headed fz c e (outs ++ more) :=
  ⟨h.outputs.trans k.outputs, fun j => (k.acts j).trans (h.acts j)⟩

/-- What writes nothing after writing adds no bytes. -/
theorem then_quiet (h : Chip.Headed fz c d outs) (k : Chip.Headed fz d e []) : Chip.Headed fz c e outs := by simpa using h.trans k

theorem regTake (c : Chip) (p i n : Nat) : Chip.Headed fz c (c.regTake p i n) [] where
  outputs := .refl fz _
  acts := cmdPart_modPart c p fun pt => by split <;> rfl

theorem dramCharge (c : Chip) (p : Nat) (runs : List (Nat × Nat)) : Chip.Headed fz c (c.dramCharge p runs) [] :=
  (regTake c p 0 _).trans (.regTake _ p 1 _)

theorem headTurns (c : Chip) (p : Nat) (k : Cmd) (tiles : Nat) : Chip.Headed fz c (c.headTurns p k tiles) [] := by
  unfold Chip.headTurns
  split
  · exact ⟨.refl fz _, fun _ => rfl⟩
  · exact refl fz c

/-- A ring set on both sides. -/
theorem putRing (h : Chip.Headed fz c d outs) (i : Nat) (r : Ring) : Chip.Headed fz (c.putRing i r) (d.putRing i r) outs where
  outputs := ⟨⟨(congrArg (fun b : Chip => b.putRing i r) h.outputs.bare :), h.outputs.kept⟩, h.outputs.staged⟩
  acts := h.acts

theorem rd (h : Chip.Headed fz c d outs) (x : Ctx) : d.rd x = c.rd x := h.outputs.toAlike.rd x

theorem rdBytes (h : Chip.Headed fz c d outs) (x : Ctx) (a n : Nat) : d.rdBytes x a n = c.rdBytes x a n := h.outputs.toAlike.rdBytes x a n

theorem rdNat (h : Chip.Headed fz c d outs) (x : Ctx) (a n : Nat) : d.rdNat x a n = c.rdNat x a n := congrArg leNat (h.rdBytes x a n)

theorem fmt (h : Chip.Headed fz c d outs) (k : Cmd) (p code : Nat) : d.fmt k p code = c.fmt k p code := h.outputs.toAlike.fmt k p code

theorem own (h : Chip.Headed fz c d outs) (k : Cmd) : d.own k = c.own k := congrArg (Option.getD · 16) (h.acts k)

theorem slotTaken (h : Chip.Headed fz c d outs) (x : Ctx) (r : Ring) : d.slotTaken x r = c.slotTaken x r :=
  funext fun q => by simp only [Chip.slotTaken, h.rdNat]

theorem idlePages (h : Chip.Headed fz c d outs) (hu : c.idlePages) : d.idlePages := h.outputs.toAlike.idlePages hu

theorem staged (h : Chip.Headed fz c d outs) : d.staged = c.staged ++ c.stagedOf fz outs := h.outputs.staged

end Chip.Headed

/-! ### What a window makes of its rows, its ring and memory -/

/-- The FP32 logit of a row, source and column of a window (R177). -/
def Chip.headLogit (c : Chip) (x : Ctx) (k : Cmd) (r : Ring) (i src col : Nat) : Nat :=
  toF32 (((((r.cells k.stream).map (c.headOuts x (c.own k) k)).getD src []).getD i []).map (fun q => q.val) |>.getD col Val.zero)

/-- A row after a window, and in pass two its gradients (R182, R184, R185). -/
def Chip.headRow (c : Chip) (x : Ctx) (k : Cmd) (r : Ring) (rows : List HeadRow) (first : Bool) (i : Nat) : HeadRow × List (List Val) :=
  let order := headOrder r k.stream k
  if k.stream = 0 then (rowTeacher r order (c.headLogit x k r i) (rows.getD i {}), [])
  else if k.stream = 1 then (rowPass1 r order (c.headLogit x k r i) (rows.getD i {}), [])
  else rowPass2 r k order (c.headLogit x k r i) first (rows.getD i {})

/-- The rows after a window. -/
def Chip.rowsAfter (c : Chip) (x : Ctx) (k : Cmd) (r : Ring) (rows : List HeadRow) (first : Bool) : List HeadRow :=
  (List.range (k.fld 22 2)).map (fun i => (c.headRow x k r rows first i).1)

/-- A row of gradients of a source, with its scales for an MX format (R186). -/
def Chip.gradRow (c : Chip) (x : Ctx) (k : Cmd) (r : Ring) (rows : List HeadRow) (first : Bool) (src i : Nat) : List (Nat × List Byte) :=
  let m := 128 * k.fld 55 1
  let xf := c.fmt k (c.own k) (k.fld 17 1 / 16)
  let a := scratchAddr ((r.cells k.stream).getD src 0) (k.fld 61 3)
  let e := encodeRow xf (((c.headRow x k r rows first i).2.getD src []).map (Val.scale (k.sfld 60)))
  (a + i * k.gradPitch xf, e.1) :: (if xf.isMx then [(a + k.fld 22 2 * k.gradPitch xf + i * (m / 32), e.2.1)] else [])

/-- The gradients that a window of pass two writes (R186). -/
def Chip.headGrads (c : Chip) (x : Ctx) (k : Cmd) (r : Ring) (rows : List HeadRow) (first : Bool) : List (Nat × List Byte) :=
  if k.stream ≠ 2 then []
  else (List.range (r.cells k.stream).length).flatMap (fun src => (List.range (k.fld 22 2)).flatMap (c.gradRow x k r rows first src))

/-- What a window writes: gradients, and with LAST records (R182, R184, R186, R187). -/
def Chip.headStores (c : Chip) (x : Ctx) (k : Cmd) (r : Ring) (rows : List HeadRow) (first : Bool) : List (Nat × List Byte) :=
  c.headGrads x k r rows first ++ (if bitAt (k.fld 16 1) 7 then headWrites r k.stream k.seqs (c.rowsAfter x k r rows first) else [])

/-- The ring after a window: its row set kept open or closed, and with LAST the slots its stream fills or frees (R178). -/
def Ring.after (r : Ring) (k : Cmd) (rows : List HeadRow) : Ring :=
  let last := bitAt (k.fld 16 1) 7
  let n := k.fld 22 2
  let sets := if last then tabDel r.sets k.stream
    else tabSet r.sets k.stream { base := k.fld 24 4, last := k.fld 52 3 + 128 * k.fld 55 1, rows := rows }
  let q := { r with sets := sets, held := none }
  if !last then q
  else if k.stream = 0 then { q with nextSeq := (k.fld 24 4 + n) % 2 ^ 32, live := r.live + n }
  else if k.stream = 2 then { q with live := r.live - n } else q

section

variable {fz : Fuses} {c d : Chip} {x : Ctx} {outs : List (Nat × List Byte)} (h : Chip.Headed fz c d outs)
include h

theorem Chip.Headed.headOuts (p : Nat) (k : Cmd) : d.headOuts x p k = c.headOuts x p k :=
  funext fun cell => by simp only [Chip.headOuts, h.fmt, h.rd]

theorem Chip.Headed.headRow (k : Cmd) (r : Ring) (rows : List HeadRow) (first : Bool) : d.headRow x k r rows first = c.headRow x k r rows first := by
  have logits : d.headLogit x k r = c.headLogit x k r := by
    funext i src col
    simp only [Chip.headLogit, h.headOuts, h.own]
  funext i
  simp only [Chip.headRow, logits]

theorem Chip.Headed.rowsAfter (k : Cmd) (r : Ring) (rows : List HeadRow) (first : Bool) :
    d.rowsAfter x k r rows first = c.rowsAfter x k r rows first := by
  simp only [Chip.rowsAfter, h.headRow]

theorem Chip.Headed.headGrads (k : Cmd) (r : Ring) (rows : List HeadRow) (first : Bool) :
    d.headGrads x k r rows first = c.headGrads x k r rows first := by
  have row (src : Nat) : d.gradRow x k r rows first src = c.gradRow x k r rows first src :=
    funext fun i => by simp only [Chip.gradRow, h.headRow, h.fmt, h.own]
  simp only [Chip.headGrads, row]

theorem Chip.Headed.headStores (k : Cmd) (r : Ring) (rows : List HeadRow) (first : Bool) :
    d.headStores x k r rows first = c.headStores x k r rows first := by
  simp only [Chip.headStores, h.headGrads, h.rowsAfter]

end

/-! ### The window -/

/-- Where an encoded row of gradients goes, its source and row first, and where its scales go for an MX format: `base` is the rows' offset
in a source cell, `gp` their pitch, `n` their number and `sc` a row's bytes of scales (R186). -/
def gradStores (mx : Bool) (cells : List Nat) (base gp n sc : Nat) (g : Nat × Nat × List Byte × List Byte × Bool) : List (Nat × List Byte) :=
  let a := scratchAddr (cells.getD g.1 0) base
  (a + g.2.1 * gp, g.2.2.1) :: (if mx then [(a + n * gp + g.2.1 * sc, g.2.2.2.1)] else [])

/-- Rows of gradients written one after the other. -/
theorem gradStores_outputs (x : Ctx) (mx : Bool) (cells : List Nat) (base gp n sc : Nat) (gs : List (Nat × Nat × List Byte × List Byte × Bool))
    (c : Chip) :
    Chip.Outputs x.fuse c (gs.foldl (fun c g =>
      let a := scratchAddr (cells.getD g.1 0) base
      let c := c.wr x (a + g.2.1 * gp) g.2.2.1
      if mx then c.wr x (a + n * gp + g.2.1 * sc) g.2.2.2.1 else c) c) (gs.flatMap (gradStores mx cells base gp n sc)) := by
  refine .foldl (fun e g => ?_) gs c
  cases mx
  · exact .wr e x _ _
  · exact (Chip.Outputs.wr e x _ _).trans (.wr _ x _ _)

/-- Good lines of a store that nothing addresses need no cover. -/
theorem coverIn_good (c : Chip) {x : Ctx} (h : x.mem.lines = []) (a n : Nat) : c.coverIn x a n = c := by
  rw [Chip.coverIn, Chip.badIn, h]
  rfl

/-- Where nothing of the outside world interferes, a window writes its gradients and records, changes its ring and ends. -/
theorem headWindow_headed {c : Chip} {x : Ctx} (hl : x.mem.lines = []) (he : x.ecc = []) (hu : c.idlePages) (env : Env) (k : Cmd) (r : Ring)
    (rows : List HeadRow) (first : Bool) (hold : Nat) :
    ∃ d a, Chip.headWindow x env c k r rows first hold = d.endCmd { k with acct := a } 0 0 ∧
      Chip.Headed x.fuse (c.putRing k.ring (r.after k (c.rowsAfter x k r rows first))) d (c.headStores x k r rows first) := by
  unfold Chip.headWindow
  extract_lets p st n m last cells order env idx empty taken
  rw [afterReads_good _ _ _ _ _ _ hl he]
  have ready : Chip.Headed x.fuse c
      (c.tierReads (cells.flatMap (c.headReads p k) ++ (if first then [] else c.badIn x (rowAddr k.ring st) (2 ^ 20)))) [] :=
    .of_outputs (.tierReads _ _)
  generalize c.tierReads _ = e at ready ⊢
  extract_lets outs z step res rows' nf xf gp inj grads recs runs gruns q opened graded recorded charged marked taught beats counted array turned
    covered sets kept ring ringed out agree told ended bytes all acct
  have read : q = (e.tierReads (partRuns (runs ++ gruns)), none) := readRuns_good _ _ _ _ hl he
  rw [show q.2 = none from congrArg Prod.snd read]
  -- The rows, the gradients and the ring are those of the chip before.
  have same_rows (i : Nat) : step i = c.headRow x k r rows first i := by
    rw [← ready.headRow]
    have logits : z i = e.headLogit x k r i := by
      funext src col
      rw [Chip.headLogit, ready.own]
      rfl
    dsimp only [step]
    rw [logits]
    rfl
  have rows_after : rows' = c.rowsAfter x k r rows first := by
    dsimp only [rows', res]
    rw [List.map_map]
    exact List.map_congr_left fun i _ => congrArg Prod.fst (same_rows i)
  have same_ring : ring = r.after k (c.rowsAfter x k r rows first) := by
    rw [← rows_after]
    rfl
  have none_injected : inj = none := by
    dsimp only [inj]
    split
    · exact nfInject_off (ready.idlePages hu) _ _ _
    · rfl
  have format : xf = c.fmt k (c.own k) (k.fld 17 1 / 16) := ready.fmt k p _
  have same_grads : grads.flatMap (gradStores xf.isMx cells (k.fld 61 3) gp n (m / 32)) = c.headGrads x k r rows first := by
    by_cases pass : k.stream = 2
    · rw [Chip.headGrads, if_neg (not_not.mpr pass), show grads = _ from if_neg (not_not.mpr pass), List.flatMap_assoc]
      refine List.flatMap_congr fun src _ => ?_
      rw [List.flatMap_map]
      refine List.flatMap_congr fun i hi => ?_
      have row : res.getD i (empty, []) = c.headRow x k r rows first i := (getD_map_range step (List.mem_range.mp hi) _).trans (same_rows i)
      rw [Chip.gradRow, ← format, ← row, none_injected]
      rfl
    · rw [Chip.headGrads, if_pos pass, show grads = _ from if_pos pass]
      rfl
  -- Each part of the commit writes, reports or charges.
  have read_quiet : Chip.Headed x.fuse c opened [] := by
    dsimp only [opened]
    rw [coverRuns_good _ _ _ hl, read]
    exact ready.then_quiet (.of_outputs (.tierReads _ _))
  have grads_written : Chip.Headed x.fuse opened graded (c.headGrads x k r rows first) :=
    same_grads ▸ .of_outputs (gradStores_outputs x xf.isMx cells (k.fld 61 3) gp n (m / 32) grads opened)
  have recs_written : Chip.Headed x.fuse graded recorded recs := .of_outputs (by
    simpa using Chip.Outputs.foldl (fun c (w : Nat × List Byte) => .wr c x w.1 w.2) recs graded)
  have charges : Chip.Headed x.fuse recorded charged [] := (Chip.Headed.of_outputs (tierWrites_outputs _ _ _)).trans (.dramCharge _ _ _)
  have uninjected : marked = charged := congrArg (charged.nfDone _) none_injected
  have marks : Chip.Headed x.fuse charged marked [] := uninjected ▸ .refl _ _
  have counts : Chip.Headed x.fuse marked counted [] :=
    .of_outputs (Chip.Outputs.trans (.count marked _ _ _) (.quiets (fun c s => .arrayCounts c _ _ _ _ _ _ _ _ _) _ taught))
  have turns : Chip.Headed x.fuse counted turned [] := (Chip.Headed.of_outputs (.count _ _ _ _)).trans (.headTurns _ _ _ _)
  have window : Chip.Headed x.fuse c covered (c.headStores x k r rows first) := by
    rw [show covered = turned from coverIn_good _ hl _ _, Chip.headStores, ← rows_after]
    exact ((read_quiet.trans grads_written).trans recs_written).then_quiet (charges.trans (marks.trans (counts.trans turns)))
  have reports : Chip.Headed x.fuse ringed ended [] := by
    have finished : Chip.Outputs x.fuse ringed told [] := ((Chip.Outputs.count _ _ _ _).trans (.count _ _ _ _)).trans (.count _ _ _ _)
    refine .of_outputs ?_
    dsimp only [ended]
    split
    · exact .count _ _ _ _
    · split
      · split
        · exact finished.trans (.fire _ _ _)
        · exact finished
      · exact .refl _ _
  exact ⟨ended, _, rfl, same_ring ▸ (window.putRing k.ring ring).then_quiet reports⟩

/-! ### Pairing (R171) -/

/-- A token's record is found within DEPTH tokens of NEXT_SEQ in the state its stream needs. -/
def Chip.pairsToken (c : Chip) (x : Ctx) (r : Ring) (st q : Nat) : Prop :=
  let w := c.rdNat x (r.slotAddr q) 4
  let d := (r.nextSeq + 2 ^ 32 - q) % 2 ^ 32
  0 < d ∧ d ≤ r.depth ∧ w % 2 ^ 24 = q % 2 ^ 24 ∧ bitField w 25 24 = st

/-- The row begun from a token's record. -/
def Chip.pairedRow (c : Chip) (x : Ctx) (r : Ring) (st q : Nat) : HeadRow :=
  { record := c.rdBytes x (r.slotAddr q) r.slotBytes, label := if st = 2 then c.rdNat x (r.labelAddr + 4 * r.slot q) 4 else 0 }

/-- The first word of bytes that were read. -/
theorem recWord_rdBytes (c : Chip) (x : Ctx) (a : Nat) {n : Nat} (hn : 4 ≤ n) : recWord (c.rdBytes x a n) 0 = c.rdNat x a 4 := by
  rw [recWord, List.drop_zero, Chip.rdBytes, ← List.map_take, List.take_range, min_eq_left hn]
  rfl

theorem four_le_slotBytes (r : Ring) : 4 ≤ r.slotBytes := by
  unfold Ring.slotBytes ceilDiv
  omega

section

variable {c : Chip} {x : Ctx} (hl : x.mem.lines = []) (he : x.ecc = []) {k : Cmd} {r : Ring}
include hl he

/-- Such a token's record is read. -/
theorem pairRow_found {st q : Nat} (h : c.pairsToken x r st q) :
    ∃ d, Chip.pairRow x k r st q c = (d, .inl (c.rdBytes x (r.slotAddr q) r.slotBytes)) ∧ Chip.Headed x.fuse c d [] := by
  obtain ⟨near, deep, number, state⟩ := h
  unfold Chip.pairRow
  extract_lets d far run seen p b w
  have reads : Chip.Headed x.fuse c (c.tierReads run) [] := .of_outputs (.tierReads c run)
  have read : p = (c.tierReads run, none) := readRuns_good _ _ _ _ hl he
  have close : far = false :=
    Bool.or_eq_false_iff.mpr ⟨decide_eq_false_iff_not.mpr near.ne', decide_eq_false_iff_not.mpr (Nat.not_lt.mpr deep)⟩
  have bytes : b = c.rdBytes x (r.slotAddr q) r.slotBytes := by
    show p.1.rdBytes x _ _ = _
    rw [read]
    exact reads.rdBytes x _ _
  have word : w = c.rdNat x (r.slotAddr q) 4 := by
    show recWord b 0 = _
    rw [bytes]
    exact recWord_rdBytes c x _ (four_le_slotBytes r)
  have wanted : ¬ bitField w 25 24 ≠ st := word ▸ not_not.mpr state
  have numbered : ¬ w % 2 ^ 24 ≠ q % 2 ^ 24 := word ▸ not_not.mpr number
  rw [close, Bool.false_and, if_neg Bool.false_ne_true, show p.2 = none from congrArg Prod.snd read]
  dsimp -zeta only
  rw [if_neg wanted, if_neg numbered, bytes, read]
  exact ⟨_, rfl, reads⟩

/-- The rows of a student's FIRST command are begun from its tokens' records. -/
theorem firstRows_found {st : Nat} (student : st = 1 ∨ st = 2) (h : ∀ q ∈ k.seqs, c.pairsToken x r st q) :
    ∃ d, Chip.firstRows x k r st c = (d, .inl (k.seqs.map (c.pairedRow x r st))) ∧ Chip.Headed x.fuse c d [] := by
  unfold Chip.firstRows
  rw [if_neg (by omega)]
  refine foldl_invariant (P := fun l (acc : Chip × (List HeadRow ⊕ (Nat × Nat))) => (∀ q ∈ l, c.pairsToken x r st q) →
    ∃ d, acc = (d, .inl (l.map (c.pairedRow x r st))) ∧ Chip.Headed x.fuse c d []) (fun _ => ⟨c, rfl, .refl _ c⟩) ?_ k.seqs h
  intro l q acc ih paired
  obtain ⟨d, reached, before⟩ := ih fun p hp => paired p (List.mem_append_left _ hp)
  have found : d.pairsToken x r st q := by
    rw [Chip.pairsToken, before.rdNat]
    exact paired q (by simp)
  obtain ⟨e, read, after⟩ := pairRow_found hl he (k := k) found
  have upto : Chip.Headed x.fuse c e [] := before.then_quiet after
  rw [show acc.1 = d from congrArg Prod.fst reached, show acc.2 = .inl _ from congrArg Prod.snd reached, read, before.rdBytes, List.map_append]
  dsimp -zeta only
  extract_lets p a labels
  rw [show p.2 = .inl _ from rfl]
  dsimp -zeta only
  rcases student with rfl | rfl
  · rw [if_pos rfl]
    exact ⟨e, rfl, upto⟩
  · have charged : Chip.Headed x.fuse c (e.dramCharge ((c.cmdPart k).getD 16) [(a, 4)]) [] := upto.then_quiet (.dramCharge _ _ _)
    have labelled := charged.then_quiet (.of_outputs (.tierReads _ [(a, 4)]))
    have good : labels = (_, none) := readRuns_good _ _ _ _ hl he
    rw [if_neg (by decide), show labels.2 = none from congrArg Prod.snd good]
    dsimp -zeta only
    rw [good, labelled.rdNat]
    exact ⟨_, rfl, labelled⟩

end

end Sys2Proof.Machine
end

section
/-! SUPPORT. Head commands of the bridge (R178, R188, R189): one takes its window, or is held for slots that are not FREE and takes it once they
are; and the statement about them. -/

namespace Sys2Proof.Machine

/-! ### Head commands -/

/-- A row set is open exactly where a command is not FIRST, and its rows are those of the command (R178). -/
theorem headRows_open {s : State} {k : Cmd} {r : Ring} {rows : List HeadRow} {first : Bool} (hr : s.headRows k r rows first) :
    first = (tabFind r.sets k.stream).isNone ∧ ∀ w, tabFind r.sets k.stream = some w → rows = w.rows := by
  rw [State.headRows] at hr
  split at hr
  · next w ready =>
    refine ⟨by rw [ready, hr.2]; rfl, fun v hv => ?_⟩
    rw [hr.1, Option.some.inj (ready.symm.trans hv)]
  · next ready => exact ⟨by rw [ready, hr.1]; rfl, fun v hv => absurd (ready.symm.trans hv) (Option.some_ne_none v).symm⟩

/-- The rows of a head command begun in the chip that `firstRows` leaves, or those of its open row set. -/
theorem headRows_first {s : State} (hc : s.calm) {k : Cmd} {r : Ring} {rows : List HeadRow} {first : Bool} (streams : k.stream ≤ 2)
    (hr : s.headRows k r rows first) (ready : tabFind r.sets k.stream = none) {d : Chip} (hd : Chip.Headed s.fuse s.chip d []) :
    first = true ∧ ∃ e, Chip.firstRows s.ctx k r k.stream d = (e, .inl rows) ∧ Chip.Headed s.fuse s.chip e [] := by
  rw [State.headRows, ready] at hr
  obtain ⟨hfirst, paired, begun⟩ := hr
  refine ⟨hfirst, ?_⟩
  by_cases teacher : k.stream = 0
  · refine ⟨d, ?_, hd⟩
    rw [begun, Chip.firstRows, if_pos teacher]
    simp only [if_pos teacher]
  · have found : ∀ q ∈ k.seqs, d.pairsToken s.ctx r k.stream q := fun q hq => by
      rw [Chip.pairsToken, hd.rdNat]
      exact paired teacher q hq
    obtain ⟨e, read, quiet⟩ := firstRows_found hc.1 (State.calm_ecc hc) (by omega) found
    refine ⟨e, ?_, hd.then_quiet quiet⟩
    rw [read, begun]
    refine congrArg (fun l => (e, Sum.inl l)) (List.map_congr_left fun q _ => ?_)
    rw [if_neg teacher, Chip.pairedRow, hd.rdBytes, hd.rdNat]

/-- The runs that HEAD_PASS2 accesses in DRAM: loss records, and at FIRST the label words (R185, R187). -/
def headDram (k : Cmd) (r : Ring) (first : Bool) : List (Nat × Nat) :=
  k.seqs.map (fun q => (r.lossAddr + 16 * r.slot q, 16)) ++ (if first then k.seqs.map (fun q => (r.labelAddr + 4 * r.slot q, 4)) else [])

/-- A head command that nothing holds before its rows are there takes its window on a chip that is as before, or is held there for slots that
are not FREE (R178, R188). -/
theorem head_opens {s : State} (hc : s.calm) {env : Env} (hn : env.upsets = []) {k : Cmd} {r : Ring} {rows : List HeadRow} {first : Bool}
    (streams : k.stream ≤ 2) (ring : s.chip.ringOf k = some r) (opened : r.openedAt ≤ k.startAt) (stage : k.stage = 0)
    (hr : s.headRows k r rows first) (lets : k.stream = 2 → s.chip.dramLets (s.chip.own k) (headDram k r first) = true) :
    ∃ d, Chip.Headed s.fuse s.chip d [] ∧ Chip.head s.ctx env s.chip k =
      if k.stream = 0 && bitAt (k.fld 16 1) 7 && k.seqs.any (s.chip.slotTaken s.ctx r) then
        ((d.putRing k.ring { r with held := some k.id }).putCmd { k with stage := 1 }).fire teaselFrame 4
      else Chip.headWindow s.ctx env d k r rows first 0 := by
  have met : Chip.Headed s.fuse s.chip (s.chip.meets s.ctx env k) [] := .of_outputs (.meets _ _ hn k)
  unfold Chip.head
  rw [ring]
  dsimp -zeta only
  rw [if_neg (Nat.not_lt.mpr opened), if_neg (by rw [stage]; decide), hn, upset_none]
  extract_lets st loss labels c y cur q
  obtain ⟨opens, keeps⟩ := headRows_open hr
  have accesses : loss ++ labels = headDram k r first := by
    rw [headDram, opens]
    dsimp only [loss, labels, st]
    cases tabFind r.sets k.stream <;> rfl
  have passes : (st = 2 && !s.chip.dramLets (s.chip.own k) (loss ++ labels)) = false := by
    rw [accesses, Bool.and_eq_false_imp]
    exact fun student => congrArg Bool.not (lets (of_decide_eq_true student))
  rw [← Chip.own, passes, if_neg Bool.false_ne_true]
  cases ready : tabFind r.sets k.stream with
  | some w =>
    refine ⟨c, met, ?_⟩
    rw [← met.slotTaken, show cur = some w from ready, keeps w ready, opens, ready]
    rfl
  | none =>
    obtain ⟨hfirst, e, read, quiet⟩ := headRows_first hc streams hr ready met
    have begun : q = (e, .inl rows) := read
    refine ⟨e, quiet, ?_⟩
    rw [← quiet.slotTaken, hfirst, show cur = none from ready, show q.2 = .inl rows from congrArg Prod.snd begun,
      show q.1 = e from congrArg Prod.fst begun]

/-- A head command that nothing holds takes its window (R178). -/
theorem head_takes {s : State} (hc : s.calm) {env : Env} (hn : env.upsets = []) {k : Cmd} {r : Ring} {rows : List HeadRow} {first : Bool}
    (streams : k.stream ≤ 2) (ring : s.chip.ringOf k = some r) (opened : r.openedAt ≤ k.startAt) (stage : k.stage = 0)
    (hr : s.headRows k r rows first) (lets : k.stream = 2 → s.chip.dramLets (s.chip.own k) (headDram k r first) = true)
    (free : k.stream = 0 → ¬ (bitAt (k.fld 16 1) 7 = true ∧ k.seqs.any (s.chip.slotTaken s.ctx r) = true)) :
    ∃ d a, Chip.head s.ctx env s.chip k = d.endCmd { k with acct := a } 0 0 ∧
      Chip.Headed s.fuse (s.chip.putRing k.ring (r.after k (s.chip.rowsAfter s.ctx k r rows first))) d (s.chip.headStores s.ctx k r rows first) := by
  obtain ⟨e, quiet, opens⟩ := head_opens hc hn streams ring opened stage hr lets
  obtain ⟨d, a, ended, window⟩ :=
    headWindow_headed hc.1 (State.calm_ecc hc) (quiet.idlePages (Chip.unarmed_hdr hc.2)) env k r rows first 0
  refine ⟨d, a, ?_, ?_⟩
  · rw [opens, if_neg (by simpa using free), ended]
  · rw [quiet.rowsAfter (x := s.ctx), quiet.headStores (x := s.ctx)] at window
    exact (quiet.putRing k.ring _).trans window

/-- A teacher LAST command whose slots are not all FREE is held (R188). -/
theorem head_holds {s : State} (hc : s.calm) {env : Env} (hn : env.upsets = []) {k : Cmd} {r : Ring} {rows : List HeadRow} {first : Bool}
    (teacher : k.stream = 0) (ring : s.chip.ringOf k = some r) (opened : r.openedAt ≤ k.startAt) (stage : k.stage = 0)
    (hr : s.headRows k r rows first) (last : bitAt (k.fld 16 1) 7 = true) (taken : k.seqs.any (s.chip.slotTaken s.ctx r) = true) :
    ∃ d, Chip.Headed s.fuse s.chip d [] ∧
      Chip.head s.ctx env s.chip k = ((d.putRing k.ring { r with held := some k.id }).putCmd { k with stage := 1 }).fire teaselFrame 4 := by
  obtain ⟨d, quiet, opens⟩ := head_opens hc hn (by omega) ring opened stage hr (by omega)
  exact ⟨d, quiet, opens.trans (if_pos (by rw [teacher, last, taken]; rfl))⟩

/-- Whether a ring holds a command changes nothing of what a window makes of it. -/
theorem rowsAfter_unheld (c : Chip) (x : Ctx) (k : Cmd) (r : Ring) (rows : List HeadRow) (first : Bool) :
    c.rowsAfter x k { r with held := none } rows first = c.rowsAfter x k r rows first := rfl

theorem headStores_unheld (c : Chip) (x : Ctx) (k : Cmd) (r : Ring) (rows : List HeadRow) (first : Bool) :
    c.headStores x k { r with held := none } rows first = c.headStores x k r rows first := rfl

theorem Ring.after_unheld (r : Ring) (k : Cmd) (rows : List HeadRow) : Ring.after { r with held := none } k rows = r.after k rows := rfl

theorem putRing_putRing (c : Chip) (i : Nat) (q r : Ring) : (c.putRing i q).putRing i r = c.putRing i r := by
  simp only [Chip.putRing, tabSet_tabSet]

/-- The rows of a teacher command. -/
theorem headRows_teacher {s : State} {k : Cmd} {r : Ring} {rows : List HeadRow} {first : Bool} (hr : s.headRows k r rows first)
    (teacher : k.stream = 0) : (tabFind r.sets 0).elim (k.seqs.map (fun _ => {})) RowSet.rows = rows := by
  rw [State.headRows] at hr
  split at hr
  · next w ready =>
    rw [show tabFind r.sets 0 = some w from teacher ▸ ready, hr.1]
    rfl
  · next ready =>
    rw [show tabFind r.sets 0 = none from teacher ▸ ready, hr.2.2]
    exact List.map_congr_left fun q _ => (if_pos teacher).symm

/-- A held teacher command takes its window once every slot of its rows is FREE (R188). -/
theorem holdRelease_takes {s : State} (hc : s.calm) {env : Env} (hn : env.upsets = []) {k : Cmd} {r : Ring} {rows : List HeadRow} {first : Bool}
    (teacher : k.stream = 0) (ring : s.chip.ringOf k = some r) (opened : r.openedAt ≤ k.startAt) (stage : k.stage = 1) (held : r.held = some k.id)
    (hr : s.headRows k r rows first) (free : k.seqs.any (s.chip.slotTaken s.ctx r) = false) (beats : Nat) :
    ∃ d a, Chip.holdRelease s.ctx env beats s.chip k = d.endCmd { k with acct := a } 0 0 ∧
      Chip.Headed s.fuse (s.chip.putRing k.ring (r.after k (s.chip.rowsAfter s.ctx k r rows first))) d (s.chip.headStores s.ctx k r rows first) := by
  have met : Chip.Headed s.fuse s.chip (s.chip.meets s.ctx env k) [] := .of_outputs (.meets _ _ hn k)
  unfold Chip.holdRelease
  rw [ring]
  dsimp -zeta only
  rw [if_neg (Nat.not_lt.mpr opened), if_neg (by simp [stage, held, free]), hn, upset_none]
  extract_lets q c y cur
  have begun : cur.elim (k.seqs.map (fun _ => {})) (fun w => w.rows) = rows := headRows_teacher hr teacher
  have firsts : cur.isNone = first := by rw [(headRows_open hr).1, teacher]
  have before : Chip.Headed s.fuse (s.chip.putRing k.ring q) c [] := (met.putRing k.ring q).then_quiet (.of_outputs (.count _ _ _ _))
  rw [begun, firsts]
  obtain ⟨d, a, ended, window⟩ :=
    headWindow_headed hc.1 (State.calm_ecc hc) (before.idlePages (Chip.unarmed_hdr hc.2)) env k q rows first beats
  refine ⟨d, a, ended, ?_⟩
  rw [before.rowsAfter (x := s.ctx), before.headStores (x := s.ctx)] at window
  have whole := (before.putRing k.ring _).trans window
  rw [putRing_putRing, show q = { r with held := none } from rfl, rowsAfter_unheld, headStores_unheld, Ring.after_unheld] at whole
  exact whole

/-- It is held for as long as one is not (R188). -/
theorem holdRelease_waits {c : Chip} {x : Ctx} {k : Cmd} {r : Ring} (ring : c.ringOf k = some r) (opened : r.openedAt ≤ k.startAt)
    (taken : k.seqs.any (c.slotTaken x r) = true) (env : Env) (beats : Nat) : Chip.holdRelease x env beats c k = c := by
  unfold Chip.holdRelease
  rw [ring]
  dsimp -zeta only
  rw [if_neg (Nat.not_lt.mpr opened), if_pos (by rw [taken, Bool.or_true])]

/-! ### A source that fires -/

/-- A bit of IRQ_RAW of page `f` that is set in `c` is set in `d`. -/
def Chip.StaysRaised (f i : Nat) (c d : Chip) : Prop := (c.hdr f).irqRaw.getLsbD i = true → (d.hdr f).irqRaw.getLsbD i = true

/-- A header replaced by one with every bit of IRQ_RAW that was set. -/
theorem putHdr_staysRaised {f i : Nat} (c : Chip) {g : Nat} {h : Header}
    (hh : (c.hdr g).irqRaw.getLsbD i = true → h.irqRaw.getLsbD i = true) : Chip.StaysRaised f i c (c.putHdr g h) := by
  intro raised
  rw [Chip.hdr_putHdr]
  split
  · next same => exact hh (same ▸ raised)
  · exact raised

/-- Reporting clears no bit of IRQ_RAW (R30). -/
theorem notice_staysRaised (f i fuel : Nat) (e : Notice) (c : Chip) : Chip.StaysRaised f i c (notice fuel e c) := by
  induction fuel generalizing e c with
  | zero => exact id
  | succ fuel ih =>
    cases e with
    | count g n k =>
      simp only [notice]
      split_ifs
      · exact putHdr_staysRaised c id
      · exact putHdr_staysRaised c id
      · exact fun raised => ih _ _ (putHdr_staysRaised c id raised)
    | fire g src =>
      have fired (j : Nat) : Chip.StaysRaised f i c
          ((c.putHdr g { c.hdr g with irqRaw := (c.hdr g).irqRaw ||| (1#32 <<< src) }).traceAppend g src j) :=
        putHdr_staysRaised c fun raised => by rw [BitVec.getLsbD_or, raised, Bool.true_or]
      simp only [notice]
      split_ifs
      · exact fun raised => ih _ _ (fired _ raised)
      · exact fun raised => ih _ _ (fired _ raised)
      · exact fired _
      · exact fired _
    | rise g =>
      simp only [notice]
      split
      · exact id
      · refine foldl_invariant (P := fun _ d => Chip.StaysRaised f i c d) id (fun _ fn d before => ?_) _
        split
        · exact fun raised => ih _ _ (before raised)
        · exact before
    | vector fn v =>
      simp only [notice]
      by_cases hl : (!(c.port (fn / 32)).linkUp) = true
      · rw [if_pos hl]; exact id
      rw [if_neg hl]
      by_cases hv : (if fn % 32 = 0 then 2048 else 64) ≤ v
      · rw [if_pos hv]; exact ih _ _
      rw [if_neg hv]
      split
      · split <;> exact id
      · split
        · exact id
        · exact fun raised => ih _ _ raised

/-- A source that fires has its bit of IRQ_RAW set (R30). -/
theorem fire_raises (c : Chip) (f : Nat) {src : Nat} (hs : src < 32) : ((c.fire f src).hdr f).irqRaw.getLsbD src = true := by
  have put (i : Nat) : (((c.putHdr f { c.hdr f with irqRaw := (c.hdr f).irqRaw ||| (1#32 <<< src) }).traceAppend f src i).hdr
      f).irqRaw.getLsbD src = true := by
    show ((c.putHdr f _).hdr f).irqRaw.getLsbD src = true
    rw [Chip.hdr_putHdr, if_pos rfl]
    simp [hs]
  show ((notice (11 + 1) (.fire f src) c).hdr f).irqRaw.getLsbD src = true
  rw [notice]
  split_ifs
  · exact notice_staysRaised _ _ _ _ _ (put _)
  · exact notice_staysRaised _ _ _ _ _ (put _)
  · exact put _
  · exact put _

/-! ### The ring after a window -/

theorem tabFind_tabDel {α : Type} (t : Tab α) (i j : Nat) : tabFind (tabDel t i) j = if j = i then none else tabFind t j := by
  rw [show tabDel t i = t.filter (fun e => !decide (e.1 = i)) by simp [tabDel], tabFind_filter_key (fun n => !decide (n = i))]
  by_cases h : j = i <;> simp [h]

section

variable (r : Ring) (k : Cmd) (rows : List HeadRow)

theorem Ring.after_same : { r.after k rows with sets := [], held := none, nextSeq := 0, live := 0 } =
    { r with sets := [], held := none, nextSeq := 0, live := 0 } := by
  unfold Ring.after
  dsimp only
  split_ifs <;> rfl

theorem Ring.after_held : (r.after k rows).held = none := by
  unfold Ring.after
  dsimp only
  split_ifs <;> rfl

theorem Ring.after_sets : (r.after k rows).sets = if bitAt (k.fld 16 1) 7 then tabDel r.sets k.stream
    else tabSet r.sets k.stream { base := k.fld 24 4, last := k.fld 52 3 + 128 * k.fld 55 1, rows := rows } := by
  unfold Ring.after
  cases bitAt (k.fld 16 1) 7
  · rfl
  · dsimp only
    split_ifs <;> rfl

theorem Ring.after_nextSeq : (r.after k rows).nextSeq =
    if bitAt (k.fld 16 1) 7 = true ∧ k.stream = 0 then (k.fld 24 4 + k.fld 22 2) % 2 ^ 32 else r.nextSeq := by
  unfold Ring.after
  cases bitAt (k.fld 16 1) 7
  · rfl
  · by_cases teacher : k.stream = 0
    · simp [teacher]
    · simp only [teacher, Bool.not_true, Bool.false_eq_true, if_false, and_false]
      split_ifs <;> rfl

theorem Ring.after_live : (r.after k rows).live = if bitAt (k.fld 16 1) 7 = true ∧ k.stream = 0 then r.live + k.fld 22 2
    else if bitAt (k.fld 16 1) 7 = true ∧ k.stream = 2 then r.live - k.fld 22 2 else r.live := by
  unfold Ring.after
  cases bitAt (k.fld 16 1) 7
  · rfl
  · by_cases teacher : k.stream = 0
    · simp [teacher]
    · by_cases student : k.stream = 2 <;> simp [teacher, student]

/-- The row set of the command's stream, kept open or closed. -/
theorem Ring.after_set : tabFind (r.after k rows).sets k.stream = if bitAt (k.fld 16 1) 7 then none
    else some { base := k.fld 24 4, last := k.fld 52 3 + 128 * k.fld 55 1, rows := rows } := by
  rw [Ring.after_sets]
  split
  · rw [tabFind_tabDel, if_pos rfl]
  · rw [tabFind_tabSet, if_pos rfl]

/-- The row sets of the other streams. -/
theorem Ring.after_set_other {j : Nat} (h : j ≠ k.stream) : tabFind (r.after k rows).sets j = tabFind r.sets j := by
  rw [Ring.after_sets]
  split
  · rw [tabFind_tabDel, if_neg h]
  · rw [tabFind_tabSet, if_neg h.symm]

end

/-! ### The statement -/

/-- A running head command that has taken its window has done what the statement says of it. -/
theorem onOp_window {s : State} (h : s.sound) (hc : s.calm) {id op : Nat} {k : Cmd} (hk : s.chip.runs id op k) {body : Ctx → Chip → Cmd → Chip}
    {r : Ring} {rows : List HeadRow} {first : Bool}
    (hb : ∃ d a, body s.ctx s.chip k = d.endCmd { k with acct := a } 0 0 ∧
      Chip.Headed s.fuse (s.chip.putRing k.ring (r.after k (s.chip.rowsAfter s.ctx k r rows first))) d (s.chip.headStores s.ctx k r rows first)) :
    nextWith (onOp id op body s) (fun t => s.headDone t id k r rows first) := by
  obtain ⟨d, a, ended, window⟩ := hb
  have number : k.id = id := Chip.cmd?_id hk.1
  have settled := window.outputs.toAlike.settles (id := id) (k := k) hk.1 (j := { k with acct := a }) number 0 0
  have rings : d.bridge.rings = tabSet s.chip.bridge.rings k.ring (r.after k (s.chip.rowsAfter s.ctx k r rows first)) :=
    window.outputs.toAlike.same (fun b => b.bridge.rings) fun _ => rfl
  refine (onOp_calm h hc hk _).mpr ?_
  rw [ended]
  refine ⟨rfl, rfl, settled, State.stores_commit h ?_, fun i hi => ?_, r.after k (s.chip.rowsAfter s.ctx k r rows first), ?_,
    r.after_same k _, r.after_held k _, r.after_set k _, fun j hj => r.after_set_other k _ hj, r.after_nextSeq k _, r.after_live k _⟩
  · exact congrArg s.mem.commit (window.staged.trans (congrArg (· ++ _) (State.sound_unstaged h)))
  · show tabFind d.bridge.rings i = _
    rw [rings, tabFind_tabSet, if_neg hi.symm]
  · show tabFind d.bridge.rings k.ring = _
    rw [rings, tabFind_tabSet, if_pos rfl]

/-- A teacher LAST command whose slots are not all FREE is held (R188). -/
theorem onOp_held {s : State} (h : s.sound) {id op : Nat} {k : Cmd} (hk : s.chip.runs id op k) {body : Ctx → Chip → Cmd → Chip}
    {r : Ring} (hb : ∃ d, Chip.Headed s.fuse s.chip d [] ∧
      body s.ctx s.chip k = ((d.putRing k.ring { r with held := some k.id }).putCmd { k with stage := 1 }).fire teaselFrame 4) :
    nextWith (onOp id op body s) (fun t => t.mem = s.mem ∧ t.fuse = s.fuse ∧ t.chip.cmd? id = some { k with stage := 1 } ∧
      tabFind t.chip.bridge.rings k.ring = some { r with held := some id } ∧ (t.chip.hdr 0x008).irqRaw.getLsbD 4 = true) := by
  obtain ⟨d, quiet, holds⟩ := hb
  obtain rfl : k.id = id := Chip.cmd?_id hk.1
  have unstaged : d.staged = [] := quiet.staged.trans (by rw [State.sound_unstaged h]; rfl)
  have running : d.cmd? k.id = some k := (Chip.cmd?_congr (quiet.outputs.toAlike.same Chip.cmds fun _ => rfl) k.id).trans hk.1
  have fired := fire_reports ((d.putRing k.ring { r with held := some k.id }).putCmd { k with stage := 1 }) teaselFrame 4
  refine (onOp_idle h hk (by rw [holds, fire_staged]; exact unstaged) _).mpr ?_
  rw [holds]
  refine ⟨rfl, rfl, ?_, ?_, fire_raises _ teaselFrame (by decide)⟩
  · exact (Chip.cmd?_congr (Chip.reports_same fired Chip.cmds fun _ => rfl) k.id).trans (Chip.cmd?_putCmd running rfl)
  · refine (congrArg (fun b : Bridge => tabFind b.rings k.ring) (Chip.reports_same fired Chip.bridge fun _ => rfl)).trans ?_
    show tabFind (tabSet d.bridge.rings k.ring _) k.ring = _
    rw [tabFind_tabSet, if_pos rfl]

/-- Settles O35: a head command that nothing holds takes its window, whose rows, writes and ring are those of the statement; a teacher LAST
command is held for slots that are not FREE, and takes its window once they are. -/
theorem headWindows : Obligations.HeadWindows := by
  unfold Obligations.HeadWindows
  intro s id beats env k r rows first h hc hn ring opened hr blocked last
  have teacher (hk : s.chip.runs id 0x52 k) : k.stream = 0 := by rw [Cmd.stream, hk.2.1]
  refine ⟨fun hk stage free => ?_, fun hk stage on taken => ?_, fun hk stage held free => ?_, fun hk stage taken => ?_, fun hk stage => ?_,
    fun hk stage lets => ?_⟩
  · have st := teacher hk
    exact onOp_window h hc hk (body := fun x => Chip.head x env)
      (head_takes hc hn (by omega) ring opened stage hr (by omega) fun _ => free)
  · exact onOp_held h hk (body := fun x => Chip.head x env) (head_holds hc hn (teacher hk) ring opened stage hr on taken)
  · have number : k.id = id := Chip.cmd?_id hk.1
    exact onOp_window h hc hk (body := fun x => Chip.holdRelease x env beats)
      (holdRelease_takes hc hn (teacher hk) ring opened stage (number ▸ held) hr free beats)
  · exact onOp_just h hk (body := fun x => Chip.holdRelease x env beats) (holdRelease_waits ring opened taken env beats) rfl
  · have st : k.stream = 1 := by rw [Cmd.stream, hk.2.1]
    exact onOp_window h hc hk (body := fun x => Chip.head x env)
      (head_takes hc hn (by omega) ring opened stage hr (by omega) (by omega))
  · have st : k.stream = 2 := by rw [Cmd.stream, hk.2.1]
    exact onOp_window h hc hk (body := fun x => Chip.head x env)
      (head_takes hc hn (by omega) ring opened stage hr (fun _ => lets) (by omega))

end Sys2Proof.Machine
end

section
/-! SUPPORT. The step gate's own steps (R210-R218, R269-R273): records sent in the tree, GATE_CFG and GATE_OPEN, and the statement about
them. -/

namespace Sys2Proof.Machine

/-! ### Records sent in the tree (R262, R273) -/

/-- `d` is `c` with packets sent, reports aside; no interrupt request is taken back. -/
structure Chip.Sends (c d : Chip) : Prop where
  reports : ∃ l, Chip.reports { c with links := l } d
  staged : d.staged = c.staged
  raised : ∀ f i, Chip.StaysRaised f i c d

namespace Chip.Sends

variable {c d e : Chip}

theorem of_reports (h : Chip.reports c d) (hs : d.staged = c.staged) (hr : ∀ f i, Chip.StaysRaised f i c d) : c.Sends d := ⟨⟨c.links, h⟩, hs, hr⟩

theorem refl (c : Chip) : c.Sends c := of_reports (Chip.reports_refl c) rfl fun _ _ => id

theorem trans (h : c.Sends d) (k : d.Sends e) : c.Sends e where
  reports := by
    obtain ⟨l, hl⟩ := h.reports
    obtain ⟨m, hm⟩ := k.reports
    have queued : Chip.reports { c with links := m } { d with links := m } :=
      ⟨congrArg (fun b : Chip => { b with links := m }) hl.1, hl.2.1, hl.2.2⟩
    exact ⟨m, Chip.reports_trans queued hm⟩
  staged := k.staged.trans h.staged
  raised f i := fun before => k.raised f i (h.raised f i before)

/-- What neither packets nor reports change is the same. -/
theorem same {α : Type} (h : c.Sends d) (f : Chip → α) (hf : ∀ b l, f { b.quiet with links := l } = f b) : f d = f c := by
  obtain ⟨l, hl⟩ := h.reports
  rw [← hf d d.links, ← hf c d.links]
  exact (congrArg (fun b : Chip => f { b with links := d.links }) hl.1 :)

theorem notice (fuel : Nat) (e : Notice) (c : Chip) : c.Sends (notice fuel e c) :=
  of_reports (notice_reports fuel e c) (notice_staged fuel e c) fun f i => notice_staysRaised f i fuel e c

theorem count (c : Chip) (f n k : Nat) : c.Sends (c.count f n k) := notice _ _ c

theorem fire (c : Chip) (f src : Nat) : c.Sends (c.fire f src) := notice _ _ c

theorem links (c : Chip) (l : Links) : c.Sends { c with links := l } := ⟨⟨l, Chip.reports_refl _⟩, rfl, fun _ _ => id⟩

theorem issue (c : Chip) (s : PacketSpec) (who : Issuer) (part : Option Nat) : c.Sends (c.issue s who part) :=
  trans (links c _) (.count _ _ _ _)

theorem sendScalar (c : Chip) (p : Nat) (q : Group) (dst : Nat) (s : Scalar) (result : Bool) : c.Sends (c.sendScalar p q dst s result) :=
  (issue c _ _ _).trans (.count _ _ _ _)

theorem foldl {α : Type} {g : Chip → α → Chip} (hg : ∀ c a, Chip.Sends c (g c a)) (l : List α) (c : Chip) : c.Sends (l.foldl g c) := by
  induction l generalizing c with
  | nil => exact refl c
  | cons a l ih => exact (hg c a).trans (ih _)

theorem passResult (c : Chip) (p : Nat) (s : Scalar) : c.Sends (c.passResult p s) := by
  unfold Chip.passResult
  split
  · exact refl c
  · exact foldl (fun c d => sendScalar c p _ d s true) _ c

end Chip.Sends

/-- A partition in no group has no child to pass a result to. -/
theorem passResult_alone {c : Chip} {p : Nat} (h : c.gateGroup p = none) (s : Scalar) : c.passResult p s = c := by
  simp only [Chip.passResult, h]

/-- A gate that nothing but packets and reports has met stands. -/
theorem Chip.Sends.gate {c d : Chip} (h : c.Sends d) (p : Nat) : d.gate p = c.gate p := h.same (fun b => b.gate p) fun _ _ => rfl

/-- The end of a command settles it, whatever has been sent before. -/
theorem Chip.Sends.settles {c d : Chip} (h : c.Sends d) {id : Nat} {k j : Cmd} (hk : c.cmd? id = some k) (hj : j.id = id) (status detail : Nat) :
    c.settles (d.endCmd j status detail) id status detail := by
  obtain ⟨l, hl⟩ := h.reports
  exact (Chip.Alike.of_reports hl).settles (c := { c with links := l }) hk hj status detail

/-! ### GATE_CFG (R211) -/

/-- The gate that GATE_CFG makes of a gate and a context (R211). -/
def Gate.configured (g : Gate) (b : List Byte) : Gate :=
  let f := ctxFld b
  { g with
    state := .idle, maxNorm := f 0 4, step := f 4 4, ls := signedOf 8 (f 8 1), lsMin := signedOf 8 (f 9 1), lsMax := signedOf 8 (f 10 1)
    lateFold := bitAt (f 11 1) 0, growth := f 12 2, group := f 14 2, timeoutMs := f 16 2, windowUs := f 18 2, slotAddr := f 24 8
    clean := 0, epoch := 0, loc := {}, res := {}, slots := [], sealAt := none, expired := false, window := false, sent := false
    kids := [], held := [], readyNorm := none, result := none }

theorem gateCfg_configures {c : Chip} {k : Cmd} (h : (c.gate (c.own k)).state = .unconfigured ∨ (c.gate (c.own k)).state = .idle) :
    c.gateCfg k = (c.putGate (c.own k) ((c.gate (c.own k)).configured k.ctx)).endCmd
      { k with acct := { k.acct with bytes64 := k.acct.bytes64 + 1 } } 0 0 := by
  unfold Chip.gateCfg
  dsimp only
  exact if_neg (by show ¬ (_ : Bool) = true; rcases h with h | h <;> simp [show (c.cmdPart k).getD 16 = c.own k from rfl, h])

theorem gateCfg_refuses {c : Chip} {k : Cmd} (hu : (c.gate (c.own k)).state ≠ .unconfigured) (hi : (c.gate (c.own k)).state ≠ .idle) :
    c.gateCfg k = c.endCmd k 5 16 := by
  unfold Chip.gateCfg
  dsimp only
  exact if_pos (by simp [show (c.cmdPart k).getD 16 = c.own k from rfl, hu, hi])

/-! ### GATE_OPEN (R210, R256, R257, R268) -/

/-- The gate that GATE_OPEN makes of an IDLE gate: a new epoch, with the records and the result that came for it before. -/
def Gate.opened (g : Gate) : Gate :=
  { g with
    state := .collecting, epoch := (g.epoch + 1) % 2 ^ 32, loc := {}, res := {}, slots := [], sealAt := none, expired := false
    window := false, sent := false, kids := g.held, held := [], result := g.result.filter (fun r => r.1 = (g.epoch + 1) % 2 ^ 32) }

/-- A group slot of the partition with BASE and LS latched (R256, R257). -/
def Gate.latches (g : Gate) (p : Nat) (e : Nat × Group) : Nat × Group :=
  if e.2.part = p then (e.1, { e.2 with base := some (gateBase g.readyNorm e.2.eInit), ls := some g.ls }) else e

theorem Gate.latches_part (g : Gate) (p : Nat) (e : Nat × Group) : (g.latches p e).2.part = e.2.part := by
  unfold Gate.latches
  split <;> rfl

/-- The chip once a partition's gate has opened, before a result goes on. -/
def Chip.gateOpened (c : Chip) (p : Nat) : Chip :=
  let g := c.gate p
  { c.putGate p g.opened with
    coll.stages := c.coll.stages.map (fun (e : Nat × Stage) => if c.ownStage p e.1 then (e.1, e.2.age (g.epoch % 256)) else e)
    coll.groups := c.coll.groups.map (g.latches p) }

theorem gate_gateOpened (c : Chip) (p q : Nat) : (c.gateOpened p).gate q = if p = q then (c.gate p).opened else c.gate q :=
  Chip.gate_putGate c p q _

theorem gateOpened_rest (c : Chip) (p : Nat) (k : Cmd) :
    { (c.gateOpened p).endCmd k 0 0 with gates := [], cmds := [], coll := {} } = { c with gates := [], cmds := [], coll := {} } := rfl

/-- GATE_OPEN of an IDLE gate opens it; only a result that came before is sent on (R273). -/
theorem gateOpen_opens {c : Chip} {k : Cmd} (h : (c.gate (c.own k)).state = .idle) :
    ∃ d, c.gateOpen k = d.endCmd k 0 0 ∧ (c.gateOpened (c.own k)).Sends d ∧
      ((c.gate (c.own k)).opened.result = none → d = c.gateOpened (c.own k)) := by
  have opens : c.gateOpen k = (match ((c.gateOpened (c.own k)).gate (c.own k)).result with
      | some r => (c.gateOpened (c.own k)).passResult (c.own k) r.2
      | none => c.gateOpened (c.own k)).endCmd k 0 0 := by
    unfold Chip.gateOpen
    dsimp only
    exact if_neg fun other => other h
  rw [gate_gateOpened, if_pos rfl] at opens
  cases hr : (c.gate (c.own k)).opened.result with
  | none => exact ⟨_, by rw [opens, hr], .refl _, fun _ => rfl⟩
  | some r => exact ⟨_, by rw [opens, hr], .passResult _ _ _, nofun⟩

theorem gateOpen_refuses {c : Chip} {k : Cmd} (h : (c.gate (c.own k)).state ≠ .idle) : c.gateOpen k = c.endCmd k 5 16 := by
  unfold Chip.gateOpen
  dsimp only
  exact if_pos h

/-- A result for another epoch than the next goes (R273). -/
theorem opened_result {g : Gate} (h : ∀ r, g.result = some r → r.1 ≠ (g.epoch + 1) % 2 ^ 32) : g.opened.result = none :=
  Option.filter_eq_none_iff.mpr fun r hr => by simpa using h r hr

/-- A group slot of another partition is none of a gate's (R256). -/
theorem latches_others (g : Gate) (p : Nat) (l : Tab Group) :
    (l.map (g.latches p)).filter (fun e => e.2.part ≠ p) = l.filter (fun e => e.2.part ≠ p) := by
  induction l with
  | nil => rfl
  | cons e l ih =>
    rw [List.map_cons, List.filter_cons, List.filter_cons, ih, Gate.latches_part]
    by_cases own : e.2.part = p
    · simp [own]
    · rw [Gate.latches, if_neg own]

/-! ### The statement -/

/-- A step of a running command that only ends it. -/
theorem onOp_ends {s : State} (h : s.sound) {id op : Nat} {k : Cmd} (hk : s.chip.runs id op k) {body : Ctx → Chip → Cmd → Chip} {status detail : Nat}
    (ended : body s.ctx s.chip k = s.chip.endCmd k status detail) :
    nextWith (onOp id op body s) (fun t => t.mem = s.mem ∧ s.chip.settles t.chip id status detail ∧ t.chip.gates = s.chip.gates) := by
  refine (onOp_idle h hk (by rw [ended]; exact State.sound_unstaged h) _).mpr ?_
  rw [ended]
  exact ⟨rfl, endCmd_settles hk.1 k (Chip.cmd?_id hk.1) status detail, rfl⟩

/-- Settles O28: each command replaces the gate of its partition, or ends with BAD_OPERAND and nothing else. -/
theorem gateConfigureAndOpen : Obligations.GateConfigureAndOpen := by
  intro s id k h p g f
  refine ⟨fun hk may => ?_, fun hk hu hi => ?_, fun hk idle => ?_, fun hk hi => ?_⟩
  · have number : k.id = id := Chip.cmd?_id hk.1
    have configures := gateCfg_configures may
    refine (onOp_idle h hk (body := fun _ => Chip.gateCfg) (by rw [configures]; exact State.sound_unstaged h) _).mpr ?_
    rw [configures]
    have gate (q : Nat) : (s.chip.putGate p (g.configured k.ctx)).gate q = if p = q then g.configured k.ctx else s.chip.gate q :=
      Chip.gate_putGate _ _ _ _
    have own := (gate p).trans (if_pos rfl)
    refine ⟨rfl, rfl, endCmd_settles (c := s.chip.putGate p (g.configured k.ctx)) hk.1
      { k with acct := { k.acct with bytes64 := k.acct.bytes64 + 1 } } number 0 0, fun q hq => (gate q).trans (if_neg hq.symm), ?_⟩
    have rest : { s.chip.between with gates := [], cmds := [] } = { s.chip with gates := [], cmds := [] } := by rw [State.sound_staged h]
    refine ⟨congrArg Gate.state own, congrArg Gate.epoch own, congrArg Gate.clean own, congrArg Gate.maxNorm own, congrArg Gate.step own,
      congrArg Gate.ls own, congrArg Gate.lsMin own, congrArg Gate.lsMax own, congrArg Gate.lateFold own, congrArg Gate.growth own,
      congrArg Gate.group own, congrArg Gate.timeoutMs own, congrArg Gate.windowUs own, congrArg Gate.slotAddr own, congrArg Gate.loc own,
      congrArg Gate.slots own, rest⟩
  · exact onOp_ends h hk (body := fun _ => Chip.gateCfg) (gateCfg_refuses hu hi)
  · obtain ⟨d, opens, sent, unsent⟩ := gateOpen_opens idle
    have own : d.gate p = g.opened := (sent.gate p).trans ((gate_gateOpened _ _ _).trans (if_pos rfl))
    have groups : d.coll.groups = s.chip.coll.groups.map (g.latches p) := sent.same (fun b => b.coll.groups) fun _ _ => rfl
    refine (onOp_idle h hk (body := fun _ => Chip.gateOpen) (by rw [opens]; exact sent.staged.trans (State.sound_unstaged h)) _).mpr ?_
    rw [opens]
    refine ⟨rfl, rfl, sent.settles (c := s.chip.gateOpened p) hk.1 (Chip.cmd?_id hk.1) 0 0, fun q hq => ?_, congrArg Gate.state own,
      congrArg Gate.epoch own, congrArg Gate.loc own, congrArg Gate.slots own, (congrArg Gate.ls own :), (congrArg Gate.step own :), fun e he part => ?_, ?_,
      fun late => ?_⟩
    · exact (sent.gate q).trans ((gate_gateOpened _ _ _).trans (if_neg hq.symm))
    · obtain ⟨e, -, rfl⟩ := List.mem_map.mp (groups ▸ he)
      rw [Gate.latches, if_pos ((g.latches_part p e).symm.trans part)]
    · exact (congrArg _ groups).trans (latches_others g p _)
    · rw [unsent (opened_result late)]
      exact (congrArg Chip.between (gateOpened_rest s.chip p k)).trans (congrArg (fun b : Chip => { b with gates := [], cmds := [], coll := {} })
        (State.sound_staged h))
  · exact onOp_ends h hk (body := fun _ => Chip.gateOpen) (gateOpen_refuses hi)

end Sys2Proof.Machine
end

section
/-! SUPPORT. The resolution of a step (R214, R216, R269, R273): what it makes of the gate, which commands it ends, and what it leaves;
GATE_SEAL and GATE_CLOSE, and the statement about them. -/

namespace Sys2Proof.Machine

/-! ### Commands replaced and ended -/

theorem putCmd_putCmd (c : Chip) {i j : Cmd} (h : i.id = j.id) : (c.putCmd i).putCmd j = c.putCmd j := by
  unfold Chip.putCmd
  dsimp only
  rw [List.map_map]
  congr 1
  refine List.map_congr_left fun l _ => ?_
  simp only [Function.comp]
  by_cases hl : l.id = i.id
  · rw [if_pos hl, if_pos h, if_pos (hl.trans h)]
  · rw [if_neg hl]

theorem mem_putCmd {c : Chip} {k j : Cmd} (h : j ∈ (c.putCmd k).cmds) : j = k ∨ (j ∈ c.cmds ∧ j.id ≠ k.id) := by
  obtain ⟨i, hi, rfl⟩ := List.mem_map.mp h
  split
  · exact .inl rfl
  · next other => exact .inr ⟨hi, other⟩

theorem mem_putCmd_self {c : Chip} {id : Nat} {k j : Cmd} (h : c.cmd? id = some k) (hj : j.id = id) : j ∈ (c.putCmd j).cmds :=
  List.mem_of_find?_eq_some (Chip.cmd?_putCmd h hj)

/-- A fold over a list with one element, however often, is one step where a second changes nothing. -/
theorem foldl_constant {α β : Type} {f : β → α → β} {l : List α} {a : α} (all : ∀ x ∈ l, x = a) (mem : a ∈ l) (idem : ∀ b, f (f b a) a = f b a)
    (b : β) : l.foldl f b = f b a := by
  obtain ⟨n, rfl⟩ : ∃ n, l = List.replicate n a := ⟨l.length, List.eq_replicate_iff.mpr ⟨rfl, all⟩⟩
  cases n with
  | zero => exact absurd mem List.not_mem_nil
  | succ n =>
    rw [List.replicate_succ, List.foldl_cons]
    exact foldl_idle fun x hx => by rw [List.eq_of_mem_replicate hx, idem]

/-- Commands replaced: the list changes, no number in it does. -/
theorem foldl_putCmd_frame (f : Chip → Cmd → Cmd) (l : List Cmd) (c : Chip) :
    ∃ ks, l.foldl (fun c k => c.putCmd (f c k)) c = { c with cmds := ks } ∧ ks.map Cmd.id = c.cmds.map Cmd.id := by
  have numbers (c : Chip) (k : Cmd) : (c.putCmd k).cmds.map Cmd.id = c.cmds.map Cmd.id := by
    unfold Chip.putCmd
    rw [List.map_map]
    refine List.map_congr_left fun j _ => ?_
    simp only [Function.comp]
    split
    · next same => exact same.symm
    · rfl
  induction l generalizing c with
  | nil => exact ⟨c.cmds, rfl, rfl⟩
  | cons k l ih =>
    obtain ⟨ks, step, same⟩ := ih (c.putCmd (f c k))
    exact ⟨ks, step, same.trans (numbers c _)⟩

/-! ### What a record makes of a gate (R214) -/

/-- A gate that a combined record resolves. -/
def Gate.resolvedBy (g : Gate) (s : Scalar) : Gate :=
  let r := resolveStep s g.ls g.maxNorm
  let g := { g with state := r.1, res := s }
  match r.2 with
  | some q => { g with norm := q.1, clip := q.2 }
  | none => g

/-- Of a gate the resolution sets STATE, the combined flags, NORM and CLIP. -/
theorem Gate.resolvedBy_frame (g : Gate) (s : Scalar) :
    ∃ n c, g.resolvedBy s = { g with state := (resolveStep s g.ls g.maxNorm).1, res := s, norm := n, clip := c } := by
  unfold Gate.resolvedBy
  dsimp only
  split
  · exact ⟨_, _, rfl⟩
  · exact ⟨g.norm, g.clip, rfl⟩

theorem Gate.resolvedBy_state (g : Gate) (s : Scalar) : (g.resolvedBy s).state = (resolveStep s g.ls g.maxNorm).1 := by
  obtain ⟨n, c, h⟩ := g.resolvedBy_frame s
  rw [h]

theorem Gate.resolvedBy_abandoned (g : Gate) {s : Scalar} (h : s.abandon = true) : (g.resolvedBy s).state = .abandoned := by
  rw [g.resolvedBy_state, resolveStep, if_pos h]

/-- The resolution is R214's. -/
theorem Gate.resolvedBy_resolves {g o : Gate} (ls : g.ls = o.ls) (bound : g.maxNorm = o.maxNorm) (s : Scalar) : gateResolved s (g.resolvedBy s) o := by
  refine ⟨g.resolvedBy_abandoned, fun ha hf => ?_, fun ha hn ho => ⟨fun big => ?_, fun small => ?_⟩⟩
  · rw [g.resolvedBy_state, resolveStep, if_neg (by simp [ha]), if_pos (by simpa using hf)]
  · rw [g.resolvedBy_state, resolveStep, if_neg (by simp [ha]), if_neg (by simp [hn, ho])]
    simp only [big, if_true]
  · have ready : resolveStep s g.ls g.maxNorm = (.ready, some (fmul (fsqrt (accF32 s.acc)) (toF32 (.num false 1 (-g.ls))),
        if (ofF32 g.maxNorm).lt (ofF32 (fmul (fsqrt (accF32 s.acc)) (toF32 (.num false 1 (-g.ls))))) then
          fdiv g.maxNorm (fmul (fsqrt (accF32 s.acc)) (toF32 (.num false 1 (-g.ls)))) else toF32 (Val.ofInt 1))) := by
      rw [resolveStep, if_neg (by simp [ha]), if_neg (by simp [hn, ho])]
      simp only [small, if_neg Bool.false_ne_true]
    unfold Gate.resolvedBy
    rw [ready, ls, bound]
    exact ⟨rfl, rfl, rfl⟩

/-! ### What the resolution ends (R216, R269) -/

/-- The source that a resolution fires (R222). -/
def Chip.resolutionFires (c : Chip) (p : Nat) (r : GState) : Chip :=
  if r = .skipped then c.fire (gateFrame p) 2 else if r = .abandoned then c.fire (gateFrame p) 3 else c

/-- The seals of a partition that wait for the result complete. -/
def Chip.sealsEnd (c : Chip) (p : Nat) : Chip := c.endAll (fun k => c.runningOp p 0x21 k && k.stage = 2) 0 0

/-- The launches of a partition that still run complete with STEP_ABANDONED. -/
def Chip.launchesEnd (c : Chip) (p : Nat) : Chip :=
  let launches := c.cmds.filter (c.runningOp p 0x71)
  let c := launches.foldl (fun c k => c.endCmd (c.seenNf k) 0x10 0) c
  { c with coll.launches := launches.foldl (fun t k => tabDel t k.id) c.coll.launches }

theorem resolveGate_reducing {c : Chip} {p : Nat} (h : (c.gate p).state = .reducing) (s : Scalar) :
    c.resolveGate p s = (((c.putGate p ((c.gate p).resolvedBy s)).resolutionFires p
      (resolveStep s (c.gate p).ls (c.gate p).maxNorm).1).sealsEnd p).launchesEnd p := by
  unfold Chip.resolveGate
  dsimp only
  rw [if_neg (not_not_intro h)]
  rfl

theorem resolutionFires_sends (c : Chip) (p : Nat) (r : GState) : c.Sends (c.resolutionFires p r) := by
  unfold Chip.resolutionFires
  split_ifs
  · exact .fire c _ _
  · exact .fire c _ _
  · exact .refl c

theorem sealsEnd_frame (c : Chip) (p : Nat) : ∃ ks, c.sealsEnd p = { c with cmds := ks } ∧ ks.map Cmd.id = c.cmds.map Cmd.id :=
  foldl_putCmd_frame (fun _ k => { k with phase := .ended, status := 0, detail := 0 }) _ c

theorem tabFind_foldl_tabDel {α : Type} {i : Nat} (l : List Cmd) {t : Tab α} (h : tabFind t i = none) :
    tabFind (l.foldl (fun t k => tabDel t k.id) t) i = none := by
  induction l generalizing t with
  | nil => exact h
  | cons k l ih => exact ih (by rw [tabFind_tabDel, h, ite_self])

/-- A chip whose launches are others. -/
def Chip.withLaunches (c : Chip) (ls : Tab Launch) : Chip := { c with coll.launches := ls }

theorem launchesEnd_frame (c : Chip) (p : Nat) :
    ∃ ks ls, c.launchesEnd p = { c with cmds := ks, coll.launches := ls } ∧ ks.map Cmd.id = c.cmds.map Cmd.id ∧
      ∀ i, tabFind c.coll.launches i = none → tabFind ls i = none := by
  obtain ⟨ks, ended, same⟩ := foldl_putCmd_frame
    (fun c k => { c.seenNf k with phase := .ended, status := 0x10, detail := 0 }) (c.cmds.filter (c.runningOp p 0x71)) c
  refine ⟨ks, (c.cmds.filter (c.runningOp p 0x71)).foldl (fun t k => tabDel t k.id) c.coll.launches, ?_, same, fun i hi => tabFind_foldl_tabDel _ hi⟩
  exact congrArg (fun b : Chip => b.withLaunches ((c.cmds.filter (c.runningOp p 0x71)).foldl (fun t k => tabDel t k.id) b.coll.launches)) ended

/-- Where one command alone is a seal that waits for the result, it ends. -/
theorem sealsEnd_one {c : Chip} {p : Nat} {k : Cmd} (mem : k ∈ c.cmds) (waits : (c.runningOp p 0x21 k && k.stage = 2) = true)
    (all : ∀ j ∈ c.cmds, c.runningOp p 0x21 j = true → j = k) : c.sealsEnd p = c.endCmd k 0 0 := by
  have listed : k ∈ c.cmds.filter (fun k => c.runningOp p 0x21 k && k.stage = 2) := List.mem_filter.mpr ⟨mem, waits⟩
  refine foldl_constant (f := fun c k => c.endCmd k 0 0) (fun j hj => ?_) listed (fun b => putCmd_putCmd b rfl) c
  obtain ⟨hj, test⟩ := List.mem_filter.mp hj
  exact all j hj ((Bool.and_eq_true _ _).mp test).1

theorem launchesEnd_none {c : Chip} {p : Nat} (h : ∀ j ∈ c.cmds, c.runningOp p 0x71 j = false) : c.launchesEnd p = c := by
  have none : c.cmds.filter (c.runningOp p 0x71) = [] := List.filter_eq_nil_iff.mpr fun j hj => by simp [h j hj]
  unfold Chip.launchesEnd
  rw [none]
  rfl

/-! ### What the scalar reduction leaves -/

/-- What a step of the scalar reduction of a partition's gate leaves: other gates and this one's own flags, events, memory, the numbers of the
commands; no launch begins and no interrupt request is taken back. -/
structure Chip.Reduces (p : Nat) (c d : Chip) : Prop where
  staged : d.staged = c.staged
  events : d.events = c.events
  others : ∀ q, q ≠ p → d.gate q = c.gate q
  loc : (d.gate p).loc = (c.gate p).loc
  alone : c.gateGroup p = none → d.gateGroup p = none
  ids : d.cmds.map Cmd.id = c.cmds.map Cmd.id
  launches : ∀ i, tabFind c.coll.launches i = none → tabFind d.coll.launches i = none
  raised : ∀ f i, Chip.StaysRaised f i c d

namespace Chip.Reduces

variable {p : Nat} {c d e : Chip}

theorem of_sends (h : c.Sends d) : Chip.Reduces p c d where
  staged := h.staged
  events := h.same Chip.events fun _ _ => rfl
  others q _ := h.gate q
  loc := congrArg Gate.loc (h.gate p)
  alone before := (h.same (fun b => b.gateGroup p) fun _ _ => rfl).trans before
  ids := congrArg (List.map Cmd.id) (h.same Chip.cmds fun _ _ => rfl)
  launches i before := (congrArg (fun t => tabFind t i) (h.same (fun b => b.coll.launches) fun _ _ => rfl)).trans before
  raised := h.raised

theorem refl (c : Chip) : Chip.Reduces p c c := of_sends (.refl c)

theorem trans (h : Chip.Reduces p c d) (k : Chip.Reduces p d e) : Chip.Reduces p c e where
  staged := k.staged.trans h.staged
  events := k.events.trans h.events
  others q hq := (k.others q hq).trans (h.others q hq)
  loc := k.loc.trans h.loc
  alone before := k.alone (h.alone before)
  ids := k.ids.trans h.ids
  launches i before := k.launches i (h.launches i before)
  raised f i := fun before => k.raised f i (h.raised f i before)

/-- The gate replaced by one with its own flags and group. -/
theorem putGate (c : Chip) {g : Gate} (loc : g.loc = (c.gate p).loc) (group : g.group = (c.gate p).group) : Chip.Reduces p c (c.putGate p g) where
  staged := rfl
  events := rfl
  others q hq := by rw [Chip.gate_putGate, if_neg hq.symm]
  loc := by rw [Chip.gate_putGate, if_pos rfl, loc]
  alone before := by
    rw [← before, Chip.gateGroup, Chip.gate_putGate, if_pos rfl, group]
    rfl
  ids := rfl
  launches _ before := before
  raised _ _ := id

/-- Commands replaced by ones of the same numbers, launches taken away. -/
theorem cmds (c : Chip) {ks : List Cmd} (ids : ks.map Cmd.id = c.cmds.map Cmd.id) {ls : Tab Launch}
    (gone : ∀ i, tabFind c.coll.launches i = none → tabFind ls i = none) : Chip.Reduces p c { c with cmds := ks, coll.launches := ls } where
  staged := rfl
  events := rfl
  others _ _ := rfl
  loc := rfl
  alone := id
  ids := ids
  launches := gone
  raised _ _ := id

end Chip.Reduces

/-- The resolution: the gate is resolved, the rest of the chip is as the reduction leaves it. -/
theorem resolveGate_resolves {c : Chip} {p : Nat} (h : (c.gate p).state = .reducing) (s : Scalar) :
    (c.resolveGate p s).gate p = (c.gate p).resolvedBy s ∧ Chip.Reduces p c (c.resolveGate p s) := by
  rw [resolveGate_reducing h]
  have put : Chip.Reduces p c (c.putGate p ((c.gate p).resolvedBy s)) := by
    obtain ⟨n, q, frame⟩ := (c.gate p).resolvedBy_frame s
    exact .putGate c (by rw [frame]) (by rw [frame])
  have fired := resolutionFires_sends (c.putGate p ((c.gate p).resolvedBy s)) p (resolveStep s (c.gate p).ls (c.gate p).maxNorm).1
  generalize (c.putGate p ((c.gate p).resolvedBy s)).resolutionFires p (resolveStep s (c.gate p).ls (c.gate p).maxNorm).1 = d at *
  obtain ⟨ks, seals, same⟩ := sealsEnd_frame d p
  obtain ⟨js, ls, launches, same', gone⟩ := launchesEnd_frame (d.sealsEnd p) p
  rw [launches]
  rw [seals] at same' gone ⊢
  refine ⟨(fired.gate p).trans ?_, (put.trans (.of_sends fired)).trans (.cmds d (same'.trans same) gone)⟩
  rw [Chip.gate_putGate, if_pos rfl]

theorem resolveGate_reduces (c : Chip) (p : Nat) (s : Scalar) : Chip.Reduces p c (c.resolveGate p s) := by
  by_cases h : (c.gate p).state = .reducing
  · exact (resolveGate_resolves h s).2
  · rw [Chip.resolveGate]
    dsimp only
    rw [if_pos h]
    exact .refl c

theorem applyResult_reduces (c : Chip) (p : Nat) (s : Scalar) : Chip.Reduces p c (c.applyResult p s) :=
  (resolveGate_reduces c p s).trans (.of_sends (.passResult _ _ _))

/-- The record that a member sends up: its own, with those of its children (R273). -/
def Gate.record (g : Gate) : Scalar := g.kids.foldl (fun a e => a.plus e.2) { g.loc with abandon := g.loc.abandon || g.expired }

/-- After the timer the record carries ABANDON (R218, R269). -/
theorem Gate.record_expired {g : Gate} (h : g.expired = true) : g.record.abandon = true :=
  foldl_invariant (P := fun _ (a : Scalar) => a.abandon = true) (by rw [h, Bool.or_true]) (fun _ e a before => by
    show (a.abandon || e.2.abandon) = true
    rw [before, Bool.true_or]) g.kids

theorem Gate.record_childless {g : Gate} (kids : g.kids = []) (expired : g.expired = false) : g.record = g.loc := by
  rw [Gate.record, kids, expired]
  simp only [List.foldl_nil, Bool.or_false]

theorem trySendUp_reduces (c : Chip) (p : Nat) : Chip.Reduces p c (c.trySendUp p) := by
  have sent : Chip.Reduces p c (c.putGate p { c.gate p with sent := true }) := .putGate c rfl rfl
  unfold Chip.trySendUp
  extract_lets g q kids ready own flagged s d
  split
  · exact .refl c
  · cases q with
    | none => exact sent.trans (applyResult_reduces d p s)
    | some q =>
      dsimp only
      split
      · exact sent.trans (applyResult_reduces d p s)
      · exact sent.trans (.of_sends (.sendScalar d p q q.parent s false))

/-- A partition in no group resolves its step itself, once nothing is waited for or the timer has expired (R269, R273). -/
theorem trySendUp_alone {c : Chip} {p : Nat} (reducing : (c.gate p).state = .reducing) (unsent : (c.gate p).sent = false)
    (ready : (c.gate p).expired = true ∨ ∀ j ∈ c.cmds, c.runningOp p 0x71 j = false) (alone : c.gateGroup p = none) :
    c.trySendUp p = (c.putGate p { c.gate p with sent := true }).resolveGate p (c.gate p).record := by
  have put : Chip.Reduces p c (c.putGate p { c.gate p with sent := true }) := .putGate c rfl rfl
  unfold Chip.trySendUp
  dsimp only
  rw [if_neg, alone]
  · exact passResult_alone ((put.trans (resolveGate_reduces _ p _)).alone alone) _
  · rcases ready with expired | none
    · simp [reducing, unsent, expired]
    · have idle : c.cmds.any (c.runningOp p 0x71) = false := List.any_eq_false.mpr fun j hj => by simp [none j hj]
      simp [reducing, unsent, idle, alone]

/-! ### The gate enters REDUCING (R216, R269) -/

theorem putGate_putGate (c : Chip) (p : Nat) (g h : Gate) : (c.putGate p g).putGate p h = c.putGate p h := by
  simp only [Chip.putGate, tabSet_tabSet]

/-- A command at a stage. -/
def Cmd.atStage (k : Cmd) (n : Nat) : Cmd := { k with stage := n }

/-- A gate that waits for the result. -/
def Gate.entered (g : Gate) : Gate := { g with state := .reducing }

/-- The seals of a partition all wait for the result. -/
def Chip.sealsWait (c : Chip) (p : Nat) : Chip := (c.cmds.filter (c.runningOp p 0x21)).foldl (fun c k => c.putCmd (k.atStage 2)) c

theorem sealsWait_frame (c : Chip) (p : Nat) : ∃ ks, c.sealsWait p = { c with cmds := ks } ∧ ks.map Cmd.id = c.cmds.map Cmd.id :=
  foldl_putCmd_frame (fun _ k => k.atStage 2) _ c

/-- Without a result that came before, the record may go up. -/
theorem enterReducing_waits {c : Chip} {p : Nat} (none : (c.gate p).result = none) :
    c.enterReducing p = ((c.putGate p (c.gate p).entered).sealsWait p).trySendUp p := by
  have gate : (((c.putGate p (c.gate p).entered).sealsWait p).gate p).result = Option.none := by
    obtain ⟨ks, waits, -⟩ := sealsWait_frame (c.putGate p (c.gate p).entered) p
    rw [waits]
    show ((c.putGate p _).gate p).result = _
    rw [Chip.gate_putGate, if_pos rfl]
    exact none
  show (match (((c.putGate p (c.gate p).entered).sealsWait p).gate p).result with
    | some r => ((c.putGate p (c.gate p).entered).sealsWait p).resolveGate p r.2
    | Option.none => ((c.putGate p (c.gate p).entered).sealsWait p).trySendUp p) = _
  rw [gate]

/-! ### GATE_SEAL (R214, R216, R269) -/

/-- A running seal, with no other seal, sum or launch running beside it. -/
structure Chip.SealsAlone (c : Chip) (id p : Nat) (k : Cmd) : Prop where
  runs : c.runs id 0x21 k
  acts : c.cmdPart k = some p
  only : ∀ j ∈ c.cmds, j.phase = .running → j.opcode = 0x1D ∨ j.opcode = 0x21 ∨ j.opcode = 0x71 → j.id = id

theorem runningOp_iff (c : Chip) (p op : Nat) (k : Cmd) : c.runningOp p op k = true ↔ k.phase = .running ∧ k.opcode = op ∧ c.cmdPart k = some p := by
  simp only [Chip.runningOp, Bool.and_eq_true, decide_eq_true_eq, and_assoc]

theorem runningOp_parts {c d : Chip} (h : d.parts = c.parts) (p op : Nat) (k : Cmd) : d.runningOp p op k = c.runningOp p op k := by
  rw [Chip.runningOp, Chip.cmdPart, Chip.partOfFn, h]
  rfl

namespace Chip.SealsAlone

variable {c : Chip} {id p : Nat} {k : Cmd} (h : c.SealsAlone id p k)
include h

theorem number : k.id = id := Chip.cmd?_id h.runs.1

/-- The seal at a stage is the one command that runs one of these opcodes. -/
theorem staged {n : Nat} {j : Cmd} (hj : j ∈ (c.putCmd (k.atStage n)).cmds) (running : j.phase = .running)
    (op : j.opcode = 0x1D ∨ j.opcode = 0x21 ∨ j.opcode = 0x71) : j = k.atStage n :=
  (mem_putCmd hj).resolve_right fun ⟨mem, other⟩ => other ((h.only j mem running op).trans h.number.symm)

theorem runningOp (n : Nat) : c.runningOp p 0x21 (k.atStage n) = true :=
  (runningOp_iff _ _ _ _).mpr ⟨h.runs.2.2, h.runs.2.1, h.acts⟩

variable {d : Chip} {n : Nat} (hd : d.cmds = (c.putCmd (k.atStage n)).cmds)
include hd

theorem seals {j : Cmd} (hj : j ∈ d.cmds) (runs : d.runningOp p 0x21 j = true) : j = k.atStage n := by
  obtain ⟨running, opcode, -⟩ := (runningOp_iff _ _ _ _).mp runs
  exact h.staged (hd ▸ hj) running (.inr (.inl opcode))

theorem listed : k.atStage n ∈ d.cmds := hd ▸ mem_putCmd_self h.runs.1 h.number

theorem noLaunch {j : Cmd} (hj : j ∈ d.cmds) : d.runningOp p 0x71 j = false := by
  refine Bool.eq_false_iff.mpr fun runs => ?_
  obtain ⟨running, opcode, -⟩ := (runningOp_iff _ _ _ _).mp runs
  have own := h.staged (hd ▸ hj) running (.inr (.inr opcode))
  have seal_ : k.opcode = 0x21 := h.runs.2.1
  exact absurd (seal_.symm.trans ((congrArg Cmd.opcode own).symm.trans opcode)) (by decide)

/-- The seal waits for nothing that began before it (R216). -/
theorem free : d.sealFree p k = true := by
  rw [Chip.sealFree, Bool.not_eq_true', List.any_eq_false]
  intro j hj held
  simp only [Bool.and_eq_true, Bool.or_eq_true, decide_eq_true_eq, runningOp_iff] at held
  obtain ⟨early, ⟨running, opcode, -⟩ | ⟨⟨running, opcode, -⟩, -⟩⟩ := held
  · exact absurd (congrArg Cmd.startAt (h.staged (n := n) (hd ▸ hj) running (.inl opcode))) (Nat.ne_of_lt early)
  · exact absurd (congrArg Cmd.startAt (h.staged (n := n) (hd ▸ hj) running (.inr (.inr opcode)))) (Nat.ne_of_lt early)

theorem waits (hp : d.parts = c.parts) : d.sealsWait p = d.putCmd (k.atStage 2) := by
  refine foldl_constant (f := fun c k => c.putCmd (k.atStage 2)) (a := k.atStage n) (fun j hj => ?_) (List.mem_filter.mpr ⟨h.listed hd, ?_⟩)
    (fun b => putCmd_putCmd b rfl) d
  · obtain ⟨mem, runs⟩ := List.mem_filter.mp hj
    exact h.seals hd mem runs
  · rw [runningOp_parts hp]
    exact h.runningOp n

/-- With nothing else to end, the resolution ends the seal. -/
theorem ends (hp : d.parts = c.parts) (stage : n = 2) : (d.sealsEnd p).launchesEnd p = d.endCmd (k.atStage 2) 0 0 := by
  subst stage
  have waits : (d.runningOp p 0x21 (k.atStage 2) && (k.atStage 2).stage = 2) = true := by
    rw [runningOp_parts hp, h.runningOp 2]
    rfl
  rw [sealsEnd_one (h.listed hd) waits fun j hj runs => h.seals hd hj runs]
  refine launchesEnd_none fun j hj => ?_
  rcases mem_putCmd hj with rfl | ⟨mem, -⟩
  · rfl
  · exact h.noLaunch hd mem

/-- The resolution of the step ends the seal with SUCCESS. -/
theorem resolves (hp : d.parts = c.parts) (stage : n = 2) (reducing : (d.gate p).state = .reducing) (s : Scalar) :
    ∃ e, d.resolveGate p s = e.endCmd (k.atStage 2) 0 0 ∧ (d.putGate p ((d.gate p).resolvedBy s)).Sends e := by
  have fired := resolutionFires_sends (d.putGate p ((d.gate p).resolvedBy s)) p (resolveStep s (d.gate p).ls (d.gate p).maxNorm).1
  refine ⟨_, ?_, fired⟩
  rw [resolveGate_reducing reducing]
  exact h.ends ((fired.same Chip.cmds fun _ _ => rfl).trans hd) ((fired.same Chip.parts fun _ _ => rfl).trans hp) stage

end Chip.SealsAlone

/-- A gate with its flags at the seal, whose timer has begun (R216, R218). -/
def Gate.flagged (g : Gate) (now : Nat) (loc : Scalar) : Gate := { g with sealAt := some (g.sealAt.getD now), loc := loc }

/-- The flags of a gate at its seal: a DIRTY buffer of the partition's cells sets ABANDON (R216). -/
def Chip.sealLoc (c : Chip) (p : Nat) (pt : Part) : Scalar :=
  { (c.gate p).loc with
    abandon := (c.gate p).loc.abandon || pt.cells.any (fun n => (tabGet (false, false) c.tiers.gradStat n).1) }

/-- The chip whose gate waits for the result of a seal. -/
def Chip.reducing (c : Chip) (p : Nat) (k : Cmd) (loc : Scalar) : Chip :=
  (c.putGate p ((c.gate p).flagged c.time loc).entered).putCmd (k.atStage 2)

theorem gate_reducing (c : Chip) (p : Nat) (k : Cmd) (loc : Scalar) : (c.reducing p k loc).gate p = ((c.gate p).flagged c.time loc).entered :=
  (Chip.gate_putGate _ _ _ _).trans (if_pos rfl)

section

variable {c : Chip} {id p : Nat} {k : Cmd} {pt : Part} (h : c.SealsAlone id p k) (stage : k.stage = 0) (part : c.part? p = some pt)
  (collecting : (c.gate p).state = .collecting) (none : (c.gate p).result = none)
include h stage part collecting none

/-- A seal of a COLLECTING gate that waits for nothing enters REDUCING. -/
theorem gateSeal_enters : c.gateSeal k = (c.reducing p k (c.sealLoc p pt)).trySendUp p := by
  have own : (c.cmdPart k).getD 16 = p := by rw [h.acts]; rfl
  have begun (g : Gate) : ((c.putGate p g).putCmd (k.atStage 1)).gate p = g := (Chip.gate_putGate _ _ _ _).trans (if_pos rfl)
  have begins : c.gateSeal k = ((c.putGate p ((c.gate p).flagged c.time (c.sealLoc p pt))).putCmd (k.atStage 1)).enterReducing p := by
    have free := h.free (n := 1) (d := (c.putGate p ((c.gate p).flagged c.time (c.sealLoc p pt))).putCmd (k.atStage 1)) rfl
    unfold Chip.gateSeal
    dsimp only
    rw [own, if_neg (by omega), if_neg (not_not_intro collecting), part, if_pos stage]
    exact if_pos free
  rw [begins, enterReducing_waits (by rw [begun]; exact none), begun]
  rw [Chip.reducing]
  generalize (c.gate p).flagged c.time (c.sealLoc p pt) = g
  have order : (((c.putGate p g).putCmd (k.atStage 1)).putGate p g.entered) = ((c.putGate p g).putGate p g.entered).putCmd (k.atStage 1) := rfl
  rw [order, putGate_putGate, h.waits (d := (c.putGate p g.entered).putCmd (k.atStage 1)) rfl rfl, putCmd_putCmd _ (i := k.atStage 1) (j := k.atStage 2) rfl]

/-- In no group the step is resolved by the gate's own flags and sum, and the seal ends (R214, R216). -/
theorem gateSeal_resolves (alone : c.gateGroup p = Option.none) (kids : (c.gate p).kids = []) (unsent : (c.gate p).sent = false)
    (unexpired : (c.gate p).expired = false) :
    ∃ (g : Gate) (d : Chip), c.gateSeal k = d.endCmd (k.atStage 2) 0 0 ∧
      ((c.putGate p (g.resolvedBy (c.sealLoc p pt))).putCmd (k.atStage 2)).Sends d ∧
      g.step = (c.gate p).step ∧ g.ls = (c.gate p).ls ∧ g.maxNorm = (c.gate p).maxNorm := by
  have gate := gate_reducing c p k (c.sealLoc p pt)
  have apart : (c.reducing p k (c.sealLoc p pt)).gateGroup p = Option.none := by
    rw [Chip.gateGroup, gate]
    exact alone
  have record : ((c.gate p).flagged c.time (c.sealLoc p pt)).entered.record = c.sealLoc p pt := Gate.record_childless kids unexpired
  have resolves := trySendUp_alone (by rw [gate]; rfl) (by rw [gate]; exact unsent)
    (.inr fun j hj => h.noLaunch (d := c.reducing p k (c.sealLoc p pt)) (n := 2) rfl hj) apart
  rw [gate, record] at resolves
  rw [gateSeal_enters h stage part collecting none, resolves]
  generalize hg : ((c.gate p).flagged c.time (c.sealLoc p pt)).entered = g
  have sent : (((c.reducing p k (c.sealLoc p pt)).putGate p { g with sent := true }).gate p) = { g with sent := true } :=
    (Chip.gate_putGate _ _ _ _).trans (if_pos rfl)
  obtain ⟨d, ends, fired⟩ := h.resolves (d := (c.reducing p k (c.sealLoc p pt)).putGate p { g with sent := true }) (n := 2) rfl rfl rfl
    (by rw [sent, ← hg]; rfl) (c.sealLoc p pt)
  rw [sent, putGate_putGate] at fired
  have merged (v : Gate) : (c.reducing p k (c.sealLoc p pt)).putGate p v = (c.putGate p v).putCmd (k.atStage 2) :=
    congrArg (fun b : Chip => b.putCmd (k.atStage 2)) (putGate_putGate c p _ v)
  rw [merged] at fired
  exact ⟨_, d, ends, fired, by rw [← hg]; rfl, by rw [← hg]; rfl, by rw [← hg]; rfl⟩

end

/-! ### GATE_CLOSE (R217) -/

/-- Stage slots set on both sides. -/
theorem Chip.Sends.setStages {c d : Chip} (h : c.Sends d) (l : Tab Stage) :
    Chip.Sends { c with coll.stages := l } { d with coll.stages := l } where
  reports := by
    obtain ⟨m, same, headers, fns⟩ := h.reports
    exact ⟨m, congrArg (fun b : Chip => { b with coll.stages := l }) same, headers, fns⟩
  staged := h.staged
  raised := h.raised

/-- The stage slots of a partition's groups emptied (R271). -/
theorem clearStages_sends {c d : Chip} (h : c.Sends d) (p : Nat) : ∃ l, Chip.Sends { c with coll.stages := l } (d.clearStages p) :=
  ⟨_, (h.setStages _).trans (.count _ _ _ _)⟩

/-- The clean count reaches GROWTH with this step (R217). -/
def Gate.grows (g : Gate) : Bool := g.growth ≠ 0 && g.growth ≤ g.clean + 1

/-- A READY gate that closes (R217). -/
def Gate.closedReady (g : Gate) : Gate :=
  { g with
    state := .idle, last := 1, step := (g.step + 1) % 2 ^ 32, ls := if g.grows then min (g.ls + 1) g.lsMax else g.ls
    clean := if g.grows then 0 else min (g.clean + 1) 0xFFFF, readyNorm := some g.norm, sealAt := none }

/-- A SKIPPED gate that closes (R217). -/
def Gate.closedSkipped (g : Gate) : Gate := { g with state := .idle, last := 2, ls := max (g.ls - 1) g.lsMin, clean := 0, sealAt := none }

/-- An ABANDONED gate that closes (R217). -/
def Gate.closedAbandoned (g : Gate) : Gate := { g with state := .idle, last := 3, sealAt := none }

/-- The gate that the close makes of a gate, by its state. -/
def Gate.closed (g : Gate) : Gate :=
  match g.state with
  | .ready => g.closedReady
  | .skipped => g.closedSkipped
  | .abandoned => g.closedAbandoned
  | _ => g

/-- A gate in one of the states that a step resolves to (R210). -/
abbrev Gate.settled (g : Gate) : Prop := g.state = .ready ∨ g.state = .skipped ∨ g.state = .abandoned

theorem Gate.closed_idle {g : Gate} (h : g.settled) : g.closed.state = .idle := by
  unfold Gate.closed
  rcases h with h | h | h <;> rw [h] <;> rfl

/-- The close replaces a resolved gate; stage slots and reports aside the chip stands. -/
theorem closeRule_closes {c : Chip} {p : Nat} (h : (c.gate p).settled) :
    ∃ l, Chip.Sends { c.putGate p (c.gate p).closed with coll.stages := l } (c.closeRule p) := by
  have counted (g : Gate) (n : Nat) : (c.putGate p g).Sends ((c.putGate p g).count (gateFrame p) n 1) := .count _ _ _ _
  unfold Chip.closeRule Gate.closed
  dsimp only
  rcases h with ready | skipped | abandoned
  · rw [ready]
    refine ⟨c.coll.stages, (counted (c.gate p).closedReady 0).trans ?_⟩
    dsimp only
    split
    · exact .count _ _ _ _
    · exact .refl _
  · rw [skipped]
    dsimp only
    split
    · exact clearStages_sends ((counted (c.gate p).closedSkipped 1).trans (.fire _ _ _)) p
    · exact clearStages_sends (counted (c.gate p).closedSkipped 1) p
  · rw [abandoned]
    exact clearStages_sends (counted (c.gate p).closedAbandoned 2) p

/-- GATE_CLOSE of a resolved gate without ratio slots, while no OPT_UPDATE runs, is the rule of R217. -/
theorem gateClose_closes {c : Chip} {k : Cmd} (x : Ctx) (env : Env) (slots : (c.gate (c.own k)).slotAddr = 0)
    (waiting : ∀ j ∈ c.cmds, j.opcode = 0x1E → j.phase = .waiting)
    (h : (c.gate (c.own k)).settled) :
    Chip.gateClose x env c k = (c.closeRule (c.own k)).endCmd k 0 0 := by
  have idle : c.cmds.any (fun j => j.phase ≠ .waiting && j.tclass = 0 && j.opcode = 0x1E && c.cmdPart j = some (c.own k)) = false := by
    refine List.any_eq_false.mpr fun j hj updates => ?_
    simp only [Bool.and_eq_true, decide_eq_true_eq] at updates
    obtain ⟨⟨⟨started, -⟩, opcode⟩, -⟩ := updates
    exact started (waiting j hj opcode)
  have resolved : (!((c.gate (c.own k)).state = .ready || (c.gate (c.own k)).state = .skipped || (c.gate (c.own k)).state = .abandoned)) = false := by
    rcases h with h | h | h <;> simp [h]
  unfold Chip.gateClose
  dsimp only
  rw [show (c.cmdPart k).getD 16 = c.own k from rfl, idle, resolved, slots, if_neg Bool.false_ne_true, if_neg Bool.false_ne_true,
    if_neg (by simp)]

/-! ### The statement -/

/-- A seal of a partition in no group, as the statement has it. -/
theorem gateSeal_step {s : State} (h : s.sound) {id p : Nat} {k : Cmd} {g : Gate} {loc : Scalar} {d : Chip} (alone : s.chip.SealsAlone id p k)
    (ends : s.chip.gateSeal k = d.endCmd (k.atStage 2) 0 0) (sent : ((s.chip.putGate p (g.resolvedBy loc)).putCmd (k.atStage 2)).Sends d) :
    nextWith (exec (.gateSeal id) s) (fun t =>
      t.mem = s.mem ∧ t.fuse = s.fuse ∧ s.chip.settles t.chip id 0 0 ∧ t.chip.gate p = g.resolvedBy loc ∧
        ∀ q, q ≠ p → t.chip.gate q = s.chip.gate q) := by
  have number := alone.number
  have running : ((s.chip.putGate p (g.resolvedBy loc)).putCmd (k.atStage 2)).cmd? id = some (k.atStage 2) :=
    Chip.cmd?_putCmd (c := s.chip.putGate p (g.resolvedBy loc)) alone.runs.1 number
  obtain ⟨ended, others, rest⟩ := sent.settles (j := k.atStage 2) running number 0 0
  have untouched : ((s.chip.putGate p (g.resolvedBy loc)).putCmd (k.atStage 2)).cmds.filter (fun j => j.id ≠ id) =
      s.chip.cmds.filter (fun j => j.id ≠ id) := by
    rw [← number]
    exact Chip.putCmd_others (s.chip.putGate p (g.resolvedBy loc)) (k.atStage 2)
  refine (onOp_idle h alone.runs (body := fun _ => Chip.gateSeal) (by rw [ends]; exact sent.staged.trans (State.sound_unstaged h)) _).mpr ?_
  rw [ends]
  refine ⟨rfl, rfl, ⟨ended, others.trans untouched, rest⟩, ?_, fun q hq => ?_⟩
  · exact (sent.gate p).trans ((Chip.gate_putGate _ _ _ _).trans (if_pos rfl))
  · exact (sent.gate q).trans ((Chip.gate_putGate _ _ _ _).trans (if_neg hq.symm))

/-- Settles O29: with no command to wait for, the seal resolves the step at once and ends; the close replaces the gate by the rule of its state. -/
theorem gateSealAndClose : Obligations.GateSealAndClose := by
  refine ⟨fun s id p k pt h hk stage acts part collecting apart kids unsent unexpired none only => ?_,
    fun s id env k h hk => ?_⟩
  · intro dirty loc
    have alone : s.chip.SealsAlone id p k := ⟨hk, acts, only⟩
    obtain ⟨v, d, ends, sent, step, ls, bound⟩ := gateSeal_resolves alone stage part collecting none apart kids unsent unexpired
    obtain ⟨t, stepped, mem, fuse, settled, gate, others⟩ := gateSeal_step h alone ends sent
    obtain ⟨n, c, frame⟩ := v.resolvedBy_frame loc
    refine ⟨t, stepped, mem, fuse, settled, gate ▸ Gate.resolvedBy_resolves ls bound loc, ?_, ?_, others⟩
    · exact (congrArg Gate.step (gate.trans frame)).trans step
    · exact (congrArg Gate.ls (gate.trans frame)).trans ls
  · intro p g slots waiting resolved
    obtain ⟨l, sent⟩ := closeRule_closes resolved
    have closes := gateClose_closes s.ctx env slots waiting resolved
    have gate : (s.chip.closeRule p).gate p = g.closed := (sent.gate p).trans ((Chip.gate_putGate _ _ _ _).trans (if_pos rfl))
    refine (onOp_idle h hk (body := fun x => Chip.gateClose x env) (by rw [closes]; exact sent.staged.trans (State.sound_unstaged h)) _).mpr ?_
    rw [closes]
    refine ⟨rfl, rfl, sent.settles (c := { s.chip.putGate p g.closed with coll.stages := l }) hk.1 (Chip.cmd?_id hk.1) 0 0, ?_,
      fun q hq => (sent.gate q).trans ((Chip.gate_putGate _ _ _ _).trans (if_neg hq.symm)), fun ready => ?_, fun skipped => ?_,
      fun abandoned => ?_, sent.same Chip.bridge fun _ _ => rfl, sent.same Chip.regs fun _ _ => rfl⟩
    · exact (congrArg Gate.state gate).trans (Gate.closed_idle resolved)
    · have ready : (s.chip.closeRule p).gate p = g.closedReady := gate.trans (by rw [Gate.closed, ready])
      have rises : g.grows = true ↔ g.growth ≠ 0 ∧ g.growth ≤ g.clean + 1 := by simp [Gate.grows]
      refine ⟨congrArg Gate.step ready, fun grown => ⟨(congrArg Gate.ls ready).trans ?_, (congrArg Gate.clean ready).trans ?_⟩,
        fun grown => ⟨(congrArg Gate.ls ready).trans ?_, (congrArg Gate.clean ready).trans ?_⟩⟩
      · exact if_pos (rises.mpr grown)
      · exact if_pos (rises.mpr grown)
      · exact if_neg fun rose => grown (rises.mp rose)
      · exact if_neg fun rose => grown (rises.mp rose)
    · have skipped : (s.chip.closeRule p).gate p = g.closedSkipped := gate.trans (by rw [Gate.closed, skipped])
      exact ⟨(congrArg Gate.step skipped :), congrArg Gate.ls skipped, congrArg Gate.clean skipped⟩
    · have abandoned : (s.chip.closeRule p).gate p = g.closedAbandoned := gate.trans (by rw [Gate.closed, abandoned])
      exact ⟨(congrArg Gate.step abandoned :), (congrArg Gate.ls abandoned :), (congrArg Gate.clean abandoned :)⟩

end Sys2Proof.Machine
end

section
/-! SUPPORT. GRAD_SUMSQ and OPT_UPDATE (R205-R209, R212, R215, R217): what they stage, leave open and make of the gate, and the statement
about them. -/

namespace Sys2Proof.Machine

/-! ### Writing beside the gate -/

/-- The chip without what a training command changes beside what it writes: keep buffers, partitions, GRADBUF_STAT, step gates and the counter
of free values. -/
def Chip.drill (c : Chip) : Chip := { c.core with gates := [], free := 0 }

/-- `d` is `c` with writes staged, but for these and what writing and reporting change. -/
structure Chip.Trained (c d : Chip) (ss : List Store) : Prop where
  alike : c.drill.Alike d.drill
  staged : d.staged = c.staged ++ ss

namespace Chip.Trained

variable {c d e : Chip} {ss more : List Store}

theorem of_outputs {fz : Fuses} {outs : List (Nat × List Byte)} (h : Chip.Outputs fz c d outs) : c.Trained d (c.stagedOf fz outs) :=
  ⟨⟨(congrArg Chip.drill h.bare :), h.kept⟩, h.staged⟩

/-- What changes only what `drill` leaves out stages nothing. -/
theorem of_drill (h : d.drill = c.drill) (hs : d.staged = c.staged) : c.Trained d [] where
  alike := h ▸ .refl _
  staged := hs.trans (List.append_nil _).symm

theorem trans (h : c.Trained d ss) (k : d.Trained e more) : c.Trained e (ss ++ more) where
  alike := h.alike.trans k.alike
  staged := by rw [k.staged, h.staged, List.append_assoc]

theorem then_quiet (h : c.Trained d ss) (k : d.Trained e []) : c.Trained e ss := by simpa using h.trans k

theorem stagedOf (h : c.Trained d ss) (fz : Fuses) (outs : List (Nat × List Byte)) : d.stagedOf fz outs = c.stagedOf fz outs :=
  h.alike.stagedOf fz outs

/-- Outputs written beside. -/
theorem outputs (h : c.Trained d ss) {fz : Fuses} {outs : List (Nat × List Byte)} (k : Chip.Outputs fz d e outs) :
    c.Trained e (ss ++ c.stagedOf fz outs) := by simpa only [h.stagedOf fz outs] using h.trans (of_outputs k)

theorem putGate (c : Chip) (p : Nat) (g : Gate) : c.Trained (c.putGate p g) [] := of_drill rfl rfl

theorem count (c : Chip) (f n k : Nat) : c.Trained (c.count f n k) [] := of_outputs (.count (fz := {}) c f n k)

theorem dramCharge (c : Chip) (p : Nat) (runs : List (Nat × Nat)) : c.Trained (c.dramCharge p runs) [] := of_drill rfl rfl

theorem tierWrites (c : Chip) (runs : List (Nat × Nat)) : c.Trained (c.tierWrites runs) [] := of_outputs (tierWrites_outputs {} c runs)

/-- Traffic through a cell's DMA port is counted and charged (R163, R319). -/
theorem portTraffic (c : Chip) (p cell : Nat) (reads writes : List (Nat × Nat)) : c.Trained (c.portTraffic p cell reads writes) [] :=
  (((count c _ _ _).trans (count _ _ _ _)).trans (tierWrites _ _)).trans ((dramCharge _ _ _).trans (dramCharge _ _ _))

end Chip.Trained

/-- Traffic changes no gate. -/
theorem portTraffic_gates (c : Chip) (p cell : Nat) (reads writes : List (Nat × Nat)) : (c.portTraffic p cell reads writes).gates = c.gates := by
  have charged (d : Chip) (rs : List (Nat × Nat)) : (d.dramCharge p rs).gates = d.gates := rfl
  have counted (d : Chip) (f n k : Nat) : (d.count f n k).gates = d.gates := Chip.reports_same (count_reports d f n k) Chip.gates fun _ => rfl
  have written (d : Chip) : (d.tierWrites writes).gates = d.gates := (tierWrites_outputs {} d writes).toAlike.same Chip.gates fun _ => rfl
  rw [Chip.portTraffic, charged, charged, written, counted, counted]

/-- A running command that has staged its writes ends with SUCCESS and they are committed. -/
theorem onOp_trained {s : State} (h : s.sound) (hc : s.calm) {id op : Nat} {k : Cmd} (hk : s.chip.runs id op k)
    {body : Ctx → Chip → Cmd → Chip} {d : Chip} {a : Acct} {ss : List Store} (ended : body s.ctx s.chip k = d.endCmd { k with acct := a } 0 0)
    (trained : s.chip.Trained d ss) :
    nextWith (onOp id op body s) (fun t => t.mem = s.mem.commit ss ∧ t.fuse = s.fuse ∧ s.chip.settles t.chip id 0 0 ∧ t.chip.gates = d.gates) := by
  have number : k.id = id := Chip.cmd?_id hk.1
  refine (onOp_calm h hc hk _).mpr ?_
  rw [ended]
  refine ⟨?_, rfl, trained.alike.settles (c := s.chip.drill) hk.1 (j := { k with acct := a }) number 0 0, rfl⟩
  exact congrArg s.mem.commit (trained.staged.trans (congrArg (· ++ _) (State.sound_unstaged h)))

/-! ### A range left open (R39) -/

/-- A staged write leaves a piece of a run of addresses unspecified. -/
def Store.opens (c : Chip) (fz : Fuses) (a n : Nat) (st : Store) : Prop :=
  ∃ pc ∈ pieces (n / 4096 + 2) a n, ∃ seed, st = .unspecified (c.key fz pc.1) pc.2 seed

/-- A range left unspecified stages that of its pieces; residency entries and the counter of free values change besides. -/
theorem wrUnspecified_opens (c : Chip) (x : Ctx) (a n : Nat) :
    ∃ r f ss, c.wrUnspecified x a n = { c with tiers.resid := r, free := f, staged := c.staged ++ ss } ∧ ∀ st ∈ ss, st.opens c x.fuse a n := by
  obtain ⟨r, dropped⟩ := Chip.dropResid_chip c a n
  have fold (l : List (Nat × Nat)) (e : Chip) (he : ∀ b, e.key x.fuse b = c.key x.fuse b) :
      ∃ f ss, l.foldl (fun c pc => (c.stage (.unspecified (c.key x.fuse pc.1) pc.2 c.free)).draw pc.2) e =
        { e with free := f, staged := e.staged ++ ss } ∧ ∀ st ∈ ss, ∃ pc ∈ l, ∃ seed, st = .unspecified (c.key x.fuse pc.1) pc.2 seed := by
    induction l generalizing e with
    | nil => exact ⟨e.free, [], by simp, nofun⟩
    | cons pc l ih =>
      obtain ⟨f, ss, folded, opens⟩ := ih ((e.stage (.unspecified (e.key x.fuse pc.1) pc.2 e.free)).draw pc.2) he
      refine ⟨f, .unspecified (e.key x.fuse pc.1) pc.2 e.free :: ss, ?_, fun st hst => ?_⟩
      · rw [List.foldl_cons, folded]
        simp [Chip.stage, Chip.draw]
      · rcases List.mem_cons.mp hst with rfl | hst
        · exact ⟨pc, List.mem_cons_self, e.free, by rw [he]⟩
        · obtain ⟨q, hq, open_⟩ := opens st hst
          exact ⟨q, List.mem_cons_of_mem _ hq, open_⟩
  unfold Chip.wrUnspecified
  rw [dropped]
  obtain ⟨f, ss, folded, opens⟩ := fold (pieces (n / 4096 + 2) a n) { c with tiers.resid := r } fun _ => rfl
  exact ⟨r, f, ss, folded, opens⟩

theorem wrUnspecified_trained (c : Chip) (x : Ctx) (a n : Nat) :
    ∃ ss, c.Trained (c.wrUnspecified x a n) ss ∧ (c.wrUnspecified x a n).gates = c.gates ∧ ∀ st ∈ ss, st.opens c x.fuse a n := by
  obtain ⟨r, f, ss, frame, opens⟩ := wrUnspecified_opens c x a n
  rw [frame]
  exact ⟨ss, ⟨⟨rfl, fun _ => rfl⟩, rfl⟩, rfl, opens⟩

/-- Bytes outside an open range stand. -/
theorem commit_opens {c : Chip} {fz : Fuses} {a n j : Nat} (mapped : ∀ i < n, mapped (a + i)) (outside : ∀ i < n, c.key fz (a + i) ≠ j)
    {ss : List Store} (opens : ∀ st ∈ ss, st.opens c fz a n) {m : Memory} (hw : m.wf = true) : (m.commit ss).byte j = m.byte j := by
  induction ss generalizing m with
  | nil => rfl
  | cons st ss ih =>
    refine (ih (fun st h => opens st (List.mem_cons_of_mem _ h)) (Store.wf_apply hw st)).trans ?_
    obtain ⟨pc, hpc, seed, rfl⟩ := opens st List.mem_cons_self
    obtain ⟨lo, hi, page, pos, -⟩ := pieces_spec hpc
    show (((m.clearLines (c.key fz pc.1) pc.2).setBytes (c.key fz pc.1) ((List.range pc.2).map fun i => Config.freeByte (seed + i)))).byte j = _
    rw [Memory.byte_setBytes (Memory.wf_clearLines hw _ _), Memory.byte_clearLines, List.length_map, List.length_range, if_neg]
    rintro ⟨first, last⟩
    have start : Sys2Proof.Machine.mapped pc.1 := by
      have := mapped (pc.1 - a) (by omega)
      rwa [Nat.add_sub_cancel' lo] at this
    have step := Chip.key_page c fz start (Nat.le_add_right pc.1 (j - c.key fz pc.1)) (by omega)
    exact outside (pc.1 + (j - c.key fz pc.1) - a) (by omega) (by rw [Nat.add_sub_cancel' (by omega), step]; omega)

/-- Memory in which an open range and then a step's staged runs have been committed is memory with these runs stored and the range left open. -/
theorem State.stores_open {s t : State} (h : s.sound) {a n : Nat} {ss : List Store} {outs : List (Nat × List Byte)}
    (opens : ∀ st ∈ ss, st.opens s.chip s.fuse a n) (hm : t.mem = s.mem.commit (ss ++ s.chip.stagedOf s.fuse outs)) :
    s.stores t outs [(a, n)] := by
  intro stored
  have whole : ∀ i < n, mapped (a + i) := fun i hi => stored_mapped (stored (a, n) List.mem_cons_self (Nat.zero_lt_of_lt hi)) hi
  have written : ∀ o ∈ outs, ∀ i < o.2.length, mapped (o.1 + i) := fun o ho i hi =>
    stored_mapped (stored (o.1, o.2.length) (List.mem_cons_of_mem _ (List.mem_map.mpr ⟨o, ho, rfl⟩)) (by omega)) hi
  have wf : (s.mem.commit ss).wf = true := Memory.wf_commit h.1 ss
  rw [hm, Memory.commit_append]
  refine ⟨fun j hj => ?_, fun separate => ?_⟩
  · refine (commit_stagedOf_kept wf written fun o ho i hi e => hj ?_).trans (commit_opens whole (fun i hi e => hj ?_) opens h.1)
    · exact ⟨(o.1, o.2.length), List.mem_append_left _ (List.mem_map.mpr ⟨o, ho, rfl⟩), i, hi, e⟩
    · exact ⟨(a, n), List.mem_append_right _ List.mem_cons_self, i, hi, e⟩
  · obtain ⟨apart, inner⟩ := separate
    exact commit_stagedOf_read wf written ⟨(List.pairwise_cons.mp apart).2, fun r hr => inner r (List.mem_cons_of_mem _ hr)⟩

/-! ### GRAD_SUMSQ (R212, R215) -/

/-- A block reaches a partition's gate: of its own flags and sum, R212's; other gates stand. -/
theorem gateBlock_adds (c : Chip) (p : Nat) (gs : List Nat) :
    c.Trained (c.gateBlock p gs) [] ∧ (c.gateBlock p gs).gates = (c.putGate p { c.gate p with loc := gateAddBlock (c.gate p).loc gs }).gates := by
  have put (g : Gate) : c.Trained (c.putGate p g) [] := .putGate c p g
  unfold Chip.gateBlock gateAddBlock
  dsimp only
  split_ifs
  · exact ⟨put _, rfl⟩
  · exact ⟨put _, rfl⟩
  · exact ⟨(put _).trans (.count _ _ _ _), Chip.reports_same (count_reports _ _ _ _) Chip.gates fun _ => rfl⟩

/-- Blocks reach the gate one after another. -/
theorem gateBlocks_add (p : Nat) (bs : List (List Nat)) (c : Chip) :
    c.Trained (bs.foldl (fun c b => c.gateBlock p b) c) [] ∧
      (bs.foldl (fun c b => c.gateBlock p b) c).gate p = { c.gate p with loc := bs.foldl gateAddBlock (c.gate p).loc } ∧
      ∀ q, q ≠ p → (bs.foldl (fun c b => c.gateBlock p b) c).gate q = c.gate q := by
  induction bs generalizing c with
  | nil => exact ⟨.of_drill rfl rfl, rfl, fun _ _ => rfl⟩
  | cons b bs ih =>
    obtain ⟨trained, gates⟩ := gateBlock_adds c p b
    have gate (q : Nat) : (c.gateBlock p b).gate q = if p = q then { c.gate p with loc := gateAddBlock (c.gate p).loc b } else c.gate q :=
      (congrArg (fun t : Tab Gate => tabGet ({} : Gate) t q) gates :).trans (Chip.gate_putGate c p q _)
    obtain ⟨later, own, others⟩ := ih (c.gateBlock p b)
    refine ⟨trained.trans later, own.trans ?_, fun q hq => (others q hq).trans ((gate q).trans (if_neg hq.symm))⟩
    rw [gate, if_pos rfl]
    rfl

/-- The words that a GRAD_SUMSQ reads. -/
def Chip.sumWords (c : Chip) (x : Ctx) (k : Cmd) : List Nat := (List.range (k.fld 24 4)).map (fun i => c.rdNat x (k.fld 32 8 + 4 * i) 4)

/-- Where nothing of the outside world interferes, GRAD_SUMSQ feeds its blocks to the gate and ends. -/
theorem gradSumsq_sums {c : Chip} {x : Ctx} (hl : x.mem.lines = []) (he : x.ecc = []) {env : Env} (hn : env.upsets = []) {k : Cmd}
    (lets : c.dramLets (c.own k) [(k.fld 32 8, 4 * k.fld 24 4)] = true) :
    ∃ d a, Chip.gradSumsq x env c k = d.endCmd { k with acct := a } 0 0 ∧ c.Trained d [] ∧
      d.gate (c.own k) = { c.gate (c.own k) with
        loc := (chunks 65536 (k.fld 24 4 + 1) (c.sumWords x k)).foldl gateAddBlock (c.gate (c.own k)).loc } ∧
      ∀ q, q ≠ c.own k → d.gate q = c.gate q := by
  have found : Chip.Outputs x.fuse c ((c.meets x env k).tierReads [(k.fld 32 8, 4 * k.fld 24 4)]) [] :=
    (Chip.Outputs.meets c x hn k).then_quiet (.tierReads _ _)
  have read (d : Chip) (hd : c.Alike d) : d.gates = c.gates ∧ d.sumWords x k = c.sumWords x k :=
    ⟨hd.same Chip.gates fun _ => rfl, hd.same (fun b => b.sumWords x k) fun _ => rfl⟩
  obtain ⟨gates, words⟩ := read _ found.toAlike
  have gate (q : Nat) : ((c.meets x env k).tierReads [(k.fld 32 8, 4 * k.fld 24 4)]).gate q = c.gate q :=
    (congrArg (fun t : Tab Gate => tabGet ({} : Gate) t q) gates :)
  unfold Chip.gradSumsq
  dsimp only
  rw [← Chip.own, lets, Bool.not_true, if_neg Bool.false_ne_true, hn, upset_none, afterReads_good _ _ _ _ _ _ hl he]
  generalize (c.meets x env k).tierReads [(k.fld 32 8, 4 * k.fld 24 4)] = d at found words gate ⊢
  obtain ⟨added, fed, others⟩ := gateBlocks_add (c.own k) (chunks 65536 (k.fld 24 4 + 1) (d.sumWords x k)) d
  have after (q : Nat) (e : Chip) : (e.portTraffic (c.own k) k.inst [(k.fld 32 8, 4 * k.fld 24 4)] []).gate q = e.gate q :=
    (congrArg (fun t : Tab Gate => tabGet ({} : Gate) t q) (portTraffic_gates e _ _ _ _) :)
  refine ⟨_, _, rfl, ((Chip.Trained.of_outputs found).then_quiet added).then_quiet (.portTraffic _ _ _ _ _), ?_, fun q hq => ?_⟩
  · exact (after _ _).trans (fed.trans (by rw [words, gate]))
  · exact (after _ _).trans ((others q hq).trans (gate q))

/-! ### OPT_UPDATE (R205-R209, R217) -/

/-- A write made or left out. -/
theorem Chip.Outputs.wrIf (b : Prop) [Decidable b] (c : Chip) (x : Ctx) (a : Nat) (d : List Byte) :
    Chip.Outputs x.fuse c (if b then c.wr x a d else c) (if b then [(a, d)] else []) := by
  split
  · exact .wr c x a d
  · exact .refl _ c

/-- What an update of a READY step writes with an image (R208, R209): masters, tails, states and the working copy, each with its address. -/
def Chip.optOuts (c : Chip) (x : Ctx) (k : Cmd) (im : Image) : List (Nat × List Byte) :=
  let p := c.own k
  let t := TensorCtx.ofBytes k.ctx
  let off := k.fld 24 4
  let wcf := c.fmt k p (t.wcFmt % 16)
  let st := optStates im
  let wide := t.masterFmt = 0xC
  let es := c.optElements x p k im t
  let enc := encodeRow wcf (es.map (fun o => Val.scale t.tWc o.val))
  let words (n : Nat) (f : OptOut → Nat) : List Byte := (es.map (fun o => leBytes n (f o))).flatten
  [(t.master + 4 * off, words 4 (fun o => if wide then o.bits / 2 ^ 16 else o.bits))] ++
    (if wide then [(t.tail + 2 * off, words 2 (fun o => o.bits))] else []) ++
    (if 1 ≤ st then [(t.m + 4 * off, words 4 (fun o => o.m))] else []) ++
    (if st = 2 then [(t.v + 4 * off, words 4 (fun o => o.v))] else []) ++ [(t.wc + wcf.rowBytes off, enc.1)] ++
    (if wcf.isMx then [(t.wcScale + off / 32, enc.2.1)] else [])

/-- An update in a step that the gate resolved against ends at once, and says so (R217). -/
theorem optUpdate_refused (x : Ctx) (env : Env) (c : Chip) (k : Cmd) :
    ((c.gate (c.own k)).state = .skipped → Chip.optUpdate x env c k = (c.meets x env k).endCmd k 0x0F 0) ∧
      ((c.gate (c.own k)).state = .abandoned → Chip.optUpdate x env c k = (c.meets x env k).endCmd k 0x10 0) := by
  unfold Chip.optUpdate
  refine ⟨fun h => if_pos h, fun h => ?_⟩
  dsimp only
  rw [← Chip.own, h, if_neg (by decide), if_pos rfl]

/-- An update that ends without a write leaves memory. -/
theorem optUpdate_stops {s : State} (h : s.sound) (hc : s.calm) {env : Env} (hn : env.upsets = []) {id : Nat} {k : Cmd}
    (hk : s.chip.runs id 0x1E k) {status : Nat} (ends : Chip.optUpdate s.ctx env s.chip k = (s.chip.meets s.ctx env k).endCmd k status 0) :
    nextWith (exec (.optUpdate id env) s) (fun u => u.mem = s.mem ∧ s.chip.settles u.chip id status 0) := by
  have met := Chip.Outputs.meets (fz := s.fuse) s.chip s.ctx hn k
  have number : k.id = id := Chip.cmd?_id hk.1
  refine (onOp_calm (body := fun x => Chip.optUpdate x env) h hc hk _).mpr ?_
  rw [ends]
  exact ⟨congrArg s.mem.commit (met.staged.trans (congrArg (· ++ _) (State.sound_unstaged h))), met.toAlike.settles hk.1 number status 0⟩

/-- A gate's slot sums replaced or left. -/
theorem putSlots_trained (b : Prop) [Decidable b] (c : Chip) (p : Nat) (sums : Tab SlotSum) :
    c.Trained (if b then c.putGate p { c.gate p with slots := sums } else c) [] ∧
      ∀ q, { (if b then c.putGate p { c.gate p with slots := sums } else c).gate q with slots := [] } = { c.gate q with slots := [] } ∧
        (q ≠ p → (if b then c.putGate p { c.gate p with slots := sums } else c).gate q = c.gate q) := by
  split
  · refine ⟨.putGate _ _ _, fun q => ⟨?_, fun hq => ?_⟩⟩
    · rw [Chip.gate_putGate]
      split <;> simp_all
    · rw [Chip.gate_putGate, if_neg hq.symm]
  · exact ⟨.of_drill rfl rfl, fun q => ⟨rfl, fun _ => rfl⟩⟩

/-- An update of a READY step, where nothing of the outside world interferes, stages its outputs and leaves its working range open; of the
gates it changes slot sums of its own only. -/
theorem optUpdate_updates {c : Chip} (unarmed : c.idlePages) {x : Ctx} (hl : x.mem.lines = []) (he : x.ecc = []) {env : Env} (hn : env.upsets = [])
    {k : Cmd} (ready : (c.gate (c.own k)).state = .ready) {im : Image}
    (found : c.imageFor k (tableKey 4 (c.own k) (k.fld 16 1 % 16)) = some im)
    (lets : ∀ rs, (∀ r ∈ rs, r ∈ ((TensorCtx.ofBytes k.ctx).runs (c.fmt k (c.own k) ((TensorCtx.ofBytes k.ctx).wcFmt % 16)) (optStates im)
      (k.fld 24 4) (k.fld 28 4)).map Prod.snd) → c.dramLets (c.own k) rs = true) :
    ∃ d a ss, Chip.optUpdate x env c k = d.endCmd { k with acct := a } 0 0 ∧ c.Trained d (ss ++ c.stagedOf x.fuse (c.optOuts x k im)) ∧
      (∀ st ∈ ss, st.opens c x.fuse (scratchAddr k.inst (k.fld 56 4)) (64 * ceilDiv (17 * k.fld 28 4) 64)) ∧
      { d.gate (c.own k) with slots := [] } = { c.gate (c.own k) with slots := [] } ∧ ∀ q, q ≠ c.own k → d.gate q = c.gate q := by
  have met := meets_alike c x hn k
  unfold Chip.optUpdate
  dsimp only
  have unskipped : (c.gate (c.own k)).state ≠ .skipped := by simp [ready]
  have kept : (c.gate (c.own k)).state ≠ .abandoned := by simp [ready]
  rw [← Chip.own, if_neg unskipped, if_neg kept, met.fmt]
  rw [met.same (fun b => b.imageFor k (tableKey 4 (c.own k) (k.fld 16 1 % 16))) fun _ => rfl, found]
  dsimp only
  rw [if_neg, hn, upset_none, afterIo_good _ _ _ _ _ _ _ hl he]
  · have looks (rs : List (Nat × Nat)) : Chip.Outputs x.fuse c ((c.meets x env k).tierReads rs) [] :=
      (Chip.Outputs.meets c x hn k).then_quiet (.tierReads _ rs)
    generalize reading : Chip.tierReads _ _ = d
    have seen : Chip.Outputs x.fuse c d [] := reading ▸ looks _
    have same := seen.toAlike
    rw [nfInject_off (same.idlePages unarmed), same.same (fun b => b.optElements x (c.own k) k im (TensorCtx.ofBytes k.ctx)) fun _ => rfl]
    dsimp only [injectAt, Chip.nfDone, Option.isSome_none]
    obtain ⟨ss, left, leftGates, opens⟩ := wrUnspecified_trained d x (scratchAddr k.inst (k.fld 56 4)) (64 * ceilDiv (17 * k.fld 28 4) 64)
    generalize writing : ite (Fmt.isMx _ = true) (Chip.wr _ _ _ _) _ = w
    have wrote : Chip.Outputs x.fuse (d.wrUnspecified x (scratchAddr k.inst (k.fld 56 4)) (64 * ceilDiv (17 * k.fld 28 4) 64)) w (c.optOuts x k im) := by
      rw [← writing]
      exact (((((Chip.Outputs.wr _ x _ _).trans (.wrIf _ _ x _ _)).trans (.wrIf _ _ x _ _)).trans (.wrIf _ _ x _ _)).trans (.wr _ x _ _)).trans
        (.wrIf _ _ x _ _)
    have gates : w.gates = c.gates := by
      rw [wrote.toAlike.same Chip.gates fun _ => rfl, leftGates, same.same Chip.gates fun _ => rfl]
    have gate (q : Nat) : w.gate q = c.gate q := (congrArg (fun t : Tab Gate => tabGet ({} : Gate) t q) gates :)
    have after (q : Nat) (e : Chip) (cell : Nat) (rs ws : List (Nat × Nat)) : (e.portTraffic (c.own k) cell rs ws).gate q = e.gate q :=
      (congrArg (fun t : Tab Gate => tabGet ({} : Gate) t q) (portTraffic_gates e _ _ _ _) :)
    have summed (sums : Tab SlotSum) := putSlots_trained (bitAt (k.fld 17 1) 0 = true) w (c.own k) sums
    refine ⟨_, _, ss, rfl, ?_, fun st hst => ?_, ?_, fun q hq => ?_⟩
    · exact ((((Chip.Trained.of_outputs seen).trans left).outputs wrote).then_quiet (summed _).1).then_quiet (.portTraffic _ _ _ _ _)
    · simpa only [Store.opens, same.key] using opens st hst
    · exact (congrArg (fun g : Gate => { g with slots := [] }) (after _ _ _ _ _) :).trans
        (((summed _).2 (c.own k)).1.trans (congrArg (fun g : Gate => { g with slots := [] }) (gate _)))
    · rw [after, ((summed _).2 q).2 hq, gate]
  · rw [Bool.not_eq_true', Bool.not_eq_false, Bool.and_eq_true]
    exact ⟨lets _ fun r hr => List.mem_of_mem_filter hr, lets _ fun r hr => by grind⟩

/-- Settles O27: a GRAD_SUMSQ stages nothing and hands its blocks to the gate; an OPT_UPDATE ends at once where the gate resolved
against the step, and else stages its outputs beside its open working range. -/
theorem gradientsAndOptimiser : Obligations.GradientsAndOptimiser := by
  unfold Obligations.GradientsAndOptimiser
  refine ⟨fun s id env k h hc hn hk => ?_, fun s id env k im h hc hn hk => ?_⟩
  · dsimp only
    intro lets
    obtain ⟨d, a, ended, trained, fed, others⟩ := gradSumsq_sums (x := s.ctx) hc.1 (State.calm_ecc hc) hn lets
    obtain ⟨t, stepped, mem, fuse, settles, gates⟩ := onOp_trained (body := fun x => Chip.gradSumsq x env) h hc hk ended trained
    have gate (q : Nat) : t.chip.gate q = d.gate q := (congrArg (fun t : Tab Gate => tabGet ({} : Gate) t q) gates :)
    refine ⟨t, stepped, mem, fuse, settles, ?_, ?_, fun q hq => (gate q).trans (others q hq)⟩
    · rw [gate, fed]
      rfl
    · rw [gate, fed]
  · obtain ⟨skipped, abandoned⟩ := optUpdate_refused s.ctx env s.chip k
    refine ⟨fun state => ?_, fun state => ?_, fun ready found lets => ?_⟩
    · exact optUpdate_stops h hc hn hk (skipped state)
    · exact optUpdate_stops h hc hn hk (abandoned state)
    · obtain ⟨d, a, ss, ended, trained, opens, own, others⟩ :=
        optUpdate_updates (Chip.unarmed_hdr hc.2) (x := s.ctx) hc.1 (State.calm_ecc hc) hn ready found lets
      obtain ⟨t, stepped, mem, fuse, settles, gates⟩ := onOp_trained (body := fun x => Chip.optUpdate x env) h hc hk ended trained
      have gate (q : Nat) : t.chip.gate q = d.gate q := (congrArg (fun t : Tab Gate => tabGet ({} : Gate) t q) gates :)
      refine ⟨t, stepped, fuse, settles, ?_, ?_, fun q hq => (gate q).trans (others q hq)⟩
      · simp only [beq_iff_eq]
        exact State.stores_open h opens mem
      · rw [gate, own]

end Sys2Proof.Machine
end

section
/-! SUPPORT. The gate's timers (R218, R269, R271), the buckets and token vectors (R304, R307) and the regulators (R319): what each does at its
time. -/

namespace Sys2Proof.Machine

/-! ### The gate's timers (R218, R269, R271) -/

/-- A gate with the step's abandonment in its own record. -/
def Gate.flaggedLate (g : Gate) : Gate := { g with expired := true, loc := { g.loc with abandon := true } }

/-- Before TIMEOUT_MS the seal's timer does nothing. -/
theorem sealTimeout_early {c : Chip} {p t : Nat} (sealed : (c.gate p).sealAt = some t) (early : c.time < t + 1000000 * (c.gate p).timeoutMs) :
    c.sealTimeout p = c := by
  simp [Chip.sealTimeout, sealed, early]

/-- At TIMEOUT_MS a step that is not resolved enters REDUCING with ABANDON (R218, R269). -/
theorem sealTimeout_due {c : Chip} {p t : Nat} (sealed : (c.gate p).sealAt = some t) (due : t + 1000000 * (c.gate p).timeoutMs ≤ c.time)
    (unsent : (c.gate p).sent = false) (unresolved : (c.gate p).state = .collecting ∨ (c.gate p).state = .reducing) :
    c.sealTimeout p = (c.putGate p (c.gate p).flaggedLate).enterReducing p := by
  have late : ¬ c.time < t + 1000000 * (c.gate p).timeoutMs := by omega
  rcases unresolved with state | state
  · simp [Chip.sealTimeout, sealed, late, unsent, state, Gate.flaggedLate]
  · simp [Chip.sealTimeout, sealed, late, unsent, state, Gate.flaggedLate]

/-- Before four times TIMEOUT_MS the result's timer does nothing. -/
theorem resultTimeout_early {c : Chip} {p t : Nat} (sealed : (c.gate p).sealAt = some t) (early : c.time < t + 4000000 * (c.gate p).timeoutMs) :
    c.resultTimeout p = c := by
  simp [Chip.resultTimeout, sealed, early]

/-- At four times TIMEOUT_MS a sent record without a result abandons the step locally and fires (R271). -/
theorem resultTimeout_due {c : Chip} {p t : Nat} (sealed : (c.gate p).sealAt = some t) (due : t + 4000000 * (c.gate p).timeoutMs ≤ c.time)
    (sent : (c.gate p).sent = true) (reducing : (c.gate p).state = .reducing) :
    c.resultTimeout p = (c.resolveGate p { (c.gate p).loc with abandon := true }).fire collFrame 5 := by
  have late : ¬ c.time < t + 4000000 * (c.gate p).timeoutMs := by omega
  simp [Chip.resultTimeout, sealed, late, sent, reducing]

/-- Entering REDUCING with no result there is a part of the scalar reduction. -/
theorem enterReducing_reduces {c : Chip} {p : Nat} (none : (c.gate p).result = none) : Chip.Reduces p c (c.enterReducing p) := by
  rw [enterReducing_waits none]
  obtain ⟨ks, frame, ids⟩ := sealsWait_frame (c.putGate p (c.gate p).entered) p
  rw [frame]
  have entered : Chip.Reduces p c (c.putGate p (c.gate p).entered) := .putGate c rfl rfl
  exact (entered.trans (.cmds _ ids fun _ => id)).trans (trySendUp_reduces _ p)

/-- A partition in no group whose time is up abandons its step as it enters REDUCING. -/
theorem enterReducing_abandons {c : Chip} {p : Nat} (none : (c.gate p).result = none) (unsent : (c.gate p).sent = false)
    (expired : (c.gate p).expired = true) (alone : c.gateGroup p = Option.none) : ((c.enterReducing p).gate p).state = .abandoned := by
  rw [enterReducing_waits none]
  obtain ⟨ks, frame, -⟩ := sealsWait_frame (c.putGate p (c.gate p).entered) p
  rw [frame]
  have gate : Chip.gate { c.putGate p (c.gate p).entered with cmds := ks } p = (c.gate p).entered :=
    (Chip.gate_putGate c p p _).trans (if_pos rfl)
  have group : Chip.gateGroup { c.putGate p (c.gate p).entered with cmds := ks } p = Option.none :=
    (Chip.Reduces.putGate c (g := (c.gate p).entered) rfl rfl).alone alone
  rw [trySendUp_alone (by rw [gate]; rfl) (by rw [gate]; exact unsent) (.inl (by rw [gate]; exact expired)) group, gate]
  generalize ({ c.putGate p (c.gate p).entered with cmds := ks } : Chip) = d
  have sent : (d.putGate p { (c.gate p).entered with sent := true }).gate p = { (c.gate p).entered with sent := true } :=
    (Chip.gate_putGate d p p _).trans (if_pos rfl)
  rw [(resolveGate_resolves (by rw [sent]; rfl) _).1]
  exact Gate.resolvedBy_abandoned _ (Gate.record_expired expired)

/-- The gate's timers, as the statement has them. -/
theorem gateTimers_hold {s : State} {p t : Nat} (h : s.sound) (sealed : (s.chip.gate p).sealAt = some t) :
    (s.chip.time < t + 1000000 * (s.chip.gate p).timeoutMs → becomesJust (.sealTimeout p) s s.chip) ∧
    (t + 1000000 * (s.chip.gate p).timeoutMs ≤ s.chip.time → (s.chip.gate p).sent = false →
      (s.chip.gate p).state = .collecting ∨ (s.chip.gate p).state = .reducing → s.chip.gateGroup p = none → (s.chip.gate p).result = none →
      nextWith (exec (.sealTimeout p) s) (fun u =>
        u.mem = s.mem ∧ u.fuse = s.fuse ∧ (u.chip.gate p).state = .abandoned ∧ ∀ q, q ≠ p → u.chip.gate q = s.chip.gate q)) ∧
    (s.chip.time < t + 4000000 * (s.chip.gate p).timeoutMs → becomesJust (.resultTimeout p) s s.chip) ∧
    (t + 4000000 * (s.chip.gate p).timeoutMs ≤ s.chip.time → (s.chip.gate p).sent = true → (s.chip.gate p).state = .reducing →
      nextWith (exec (.resultTimeout p) s) (fun u =>
        u.mem = s.mem ∧ u.fuse = s.fuse ∧ (u.chip.gate p).state = .abandoned ∧ (u.chip.hdr 0x009).irqRaw.getLsbD 5 = true ∧
          ∀ q, q ≠ p → u.chip.gate q = s.chip.gate q)) := by
  refine ⟨fun early => onChip_just (f := fun _ c => c.sealTimeout p) h (sealTimeout_early sealed early) rfl, fun due unsent unresolved alone none => ?_,
    fun early => onChip_just (f := fun _ c => c.resultTimeout p) h (resultTimeout_early sealed early) rfl, fun due sent reducing => ?_⟩
  · have gate : (s.chip.putGate p (s.chip.gate p).flaggedLate).gate p = (s.chip.gate p).flaggedLate :=
      (Chip.gate_putGate s.chip p p _).trans (if_pos rfl)
    have reduces : Chip.Reduces p (s.chip.putGate p (s.chip.gate p).flaggedLate) (s.chip.sealTimeout p) := by
      rw [sealTimeout_due sealed due unsent unresolved]
      exact enterReducing_reduces (by rw [gate]; exact none)
    refine ⟨_, onChip_just (f := fun _ c => c.sealTimeout p) h rfl (by rw [reduces.staged]; rfl), rfl, rfl, ?_, fun q hq => ?_⟩
    · show ((s.chip.sealTimeout p).gate p).state = _
      rw [sealTimeout_due sealed due unsent unresolved]
      refine enterReducing_abandons (by rw [gate]; exact none) (by rw [gate]; exact unsent) (by rw [gate]; rfl) ?_
      rw [Chip.gateGroup, gate]
      exact alone
    · exact (reduces.others q hq).trans ((Chip.gate_putGate _ _ _ _).trans (if_neg hq.symm))
  · obtain ⟨gate, reduces⟩ := resolveGate_resolves reducing { (s.chip.gate p).loc with abandon := true }
    have fires := Chip.Sends.fire (s.chip.resolveGate p { (s.chip.gate p).loc with abandon := true }) collFrame 5
    refine ⟨_, onChip_just (f := fun _ c => c.resultTimeout p) h (resultTimeout_due sealed due sent reducing)
      (fires.staged.trans reduces.staged), rfl, rfl, ?_, fire_raises _ collFrame (by decide), fun q hq => (fires.gate q).trans (reduces.others q hq)⟩
    have own := (fires.gate p).trans gate
    exact (congrArg Gate.state own).trans (Gate.resolvedBy_abandoned _ rfl)

/-! ### Buckets and token vectors (R304, R307) -/

/-- Before its 16 µs no bucket is filled. -/
theorem bucketRefill_early {c : Chip} (early : c.time < c.serve.refillAt + 16000) : c.bucketRefill = c := if_pos early

theorem bucketRefill_due {c : Chip} (due : c.serve.refillAt + 16000 ≤ c.time) :
    c.bucketRefill = { c with
      serve.refillAt := c.serve.refillAt + 16000
      serve.buckets := c.serve.buckets.map (fun (b : Nat × Int) =>
        let e := weightEntry (c.active (tableKey 8 16 0)) b.1
        (b.1, max b.2 (min (b.2 + (ctxFld e 4 2 : Nat)) (2 ^ ctxFld e 6 1 : Nat)))) } := if_neg (by omega)

/-- Vectors raised one after another only report. -/
theorem raises_reports {α : Type} (fn : Nat) (v : α → Nat) (l : List α) (c : Chip) : Chip.reports c (l.foldl (fun c e => c.vector fn (v e)) c) :=
  reports_foldl _ (fun c e => vector_reports c fn (v e)) l c

theorem raises_staged {α : Type} (fn : Nat) (v : α → Nat) (l : List α) (c : Chip) : (l.foldl (fun c e => c.vector fn (v e)) c).staged = c.staged :=
  foldl_staged _ (fun c e => notice_staged _ (.vector fn (v e)) c) l c

/-- Raising more vectors keeps what is sent. -/
theorem raises_grows {α : Type} (fn : Nat) (v : α → Nat) (l : List α) (c : Chip) : c.Grows (l.foldl (fun c e => c.vector fn (v e)) c) := by
  induction l generalizing c with
  | nil => exact .refl c
  | cons e l ih => exact (vector_grows c fn (v e)).trans (ih _)

/-- The serving state set on both sides. -/
theorem Chip.reports_putServe {c d : Chip} (h : Chip.reports c d) (p : Nat) (sv : Serve) : Chip.reports (c.putServe p sv) (d.putServe p sv) := by
  have serve : d.serve = c.serve := Chip.reports_same h Chip.serve fun _ => rfl
  unfold Chip.putServe
  rw [serve]
  exact ⟨congrArg (fun b : Chip => { b with serve := { c.serve with parts := tabSet c.serve.parts p sv } }) h.1, h.2.1, h.2.2⟩

/-- The pending records of a vector whose oldest has waited COAL_US (R307). -/
def Serve.dueOf (sv : Serve) (now v : Nat) (e : Nat × Nat × Nat × Bool) : Bool := e.1 = v && e.2.2.1 + 1000 * sv.f 58 2 ≤ now

/-- The timer raises the vector, once for each count that is due, and clears these. -/
theorem tokenTimer_raises {c : Chip} {p : Nat} {sv : Serve} {pt : Part} (serves : c.serveOf p = some sv) (part : c.part? p = some pt) (v : Nat) :
    c.tokenTimer p v = ((sv.vecs.filter (sv.dueOf c.time v)).foldl (fun c e => c.vector pt.fn e.1) c).putServe p
      { sv with vecs := sv.vecs.filter (fun e => !sv.dueOf c.time v e) } := by
  rw [Chip.tokenTimer, serves, part]
  rfl

/-- A vector that is raised and can be sent is sent. -/
theorem raises_sends {c : Chip} {fn v : Nat} (up : (c.port (fn / 32)).linkUp = true) (size : v < msixSize fn)
    (open_ : (c.fnRegs fn).unmasked.contains v = true) {l : List (Nat × Nat × Nat × Bool)} (some : l ≠ []) (all : ∀ e ∈ l, e.1 = v) :
    (c.fnRegs fn).message fn v ∈ (l.foldl (fun c e => c.vector fn e.1) c).outbox := by
  cases l with
  | nil => exact absurd rfl some
  | cons e l =>
    refine (raises_grows fn (fun e : Nat × Nat × Nat × Bool => e.1) l _).outs _ ?_
    show _ ∈ (c.vector fn e.1).outbox
    rw [all e List.mem_cons_self]
    exact vector_of_open up size open_

/-- The token vectors' timer, as the statement has it. -/
theorem tokenTimer_holds {s : State} {p : Nat} (v : Nat) {sv : Serve} {pt : Part} (h : s.sound) (serves : s.chip.serveOf p = some sv)
    (part : s.chip.part? p = some pt) :
    becomes (.tokenVectorTimer p v) s (s.chip.putServe p { sv with vecs := sv.vecs.filter (fun e => !sv.dueOf s.chip.time v e) }) ∧
      ((∃ e ∈ sv.vecs, sv.dueOf s.chip.time v e = true) → (s.chip.port (pt.fn / 32)).linkUp = true → v < msixSize pt.fn →
        (s.chip.fnRegs pt.fn).unmasked.contains v = true →
        nextWith (exec (.tokenVectorTimer p v) s) (fun t => (s.chip.fnRegs pt.fn).message pt.fn v ∈ t.chip.outbox)) := by
  have stepped := onChip_just (f := fun _ c => c.tokenTimer p v) h (tokenTimer_raises serves part v) (raises_staged pt.fn (fun e : Nat × Nat × Nat × Bool => e.1) _ _)
  refine ⟨⟨_, stepped, rfl, rfl, rfl, ?_⟩, fun ⟨e, he, due⟩ up size open_ => ⟨_, stepped, ?_⟩⟩
  · exact Chip.reports_putServe (raises_reports pt.fn _ _ s.chip) p _
  · refine raises_sends up size open_ (List.ne_nil_of_mem (List.mem_filter.mpr ⟨he, due⟩)) fun a ha => ?_
    have late := (List.mem_filter.mp ha).2
    simp only [Serve.dueOf, Bool.and_eq_true, decide_eq_true_eq] at late
    exact late.1

/-! ### The regulators (R319) -/

/-- A regulator's level after some 64 ns (R319). -/
def regLevel (n : Nat) (l : Int) (r : Nat × Nat) : Int := if r.1 = 0 then l else min (regCap r) (l + (r.1 * n : Nat))

/-- A partition's regulators after some 64 ns. -/
def Part.refilled (n : Nat) (pt : Part) : Part := { pt with levels := List.zipWith (regLevel n) pt.levels pt.regs }

theorem tabFind_mapValues {α β : Type} (f : α → β) (t : Tab α) (i : Nat) : tabFind (t.map fun e => (e.1, f e.2)) i = (tabFind t i).map f := by
  induction t with
  | nil => rfl
  | cons e t ih =>
    simp only [List.map_cons, tabFind, ih]
    split
    · rfl
    · rfl

/-- Each partition is refilled for the whole 64 ns that have passed. -/
theorem part?_refill {c : Chip} {p : Nat} {pt : Part} (part : c.part? p = some pt) :
    c.refill.part? p = some (pt.refilled ((c.time - c.regAt) / 64)) :=
  (tabFind_mapValues (Part.refilled ((c.time - c.regAt) / 64)) c.parts p).trans (congrArg (Option.map _) part)

theorem regulatorRefill_holds {s : State} (h : s.sound) (n : Nat) (now : n = (s.chip.time - s.chip.regAt) / 64) :
    nextWith (exec .regulatorRefill s) (fun t =>
       t.mem = s.mem ∧ t.fuse = s.fuse ∧ t.pending = s.pending ∧ t.chip.regAt = s.chip.regAt + 64 * n ∧
       { t.chip with parts := [], regAt := 0 } = { s.chip with parts := [], regAt := 0 } ∧
       ∀ p pt, s.chip.part? p = some pt → pt.levels.length = pt.regs.length → ∃ u, t.chip.part? p = some u ∧
         { u with levels := pt.levels } = pt ∧ u.levels.length = pt.levels.length ∧
         ∀ (i : Nat) (r : Nat × Nat) (l : Int), pt.regs[i]? = some r → pt.levels[i]? = some l →
           u.levels[i]? = some (if r.1 = 0 then l else min (16 * r.2 : Int) (l + (r.1 * n : Nat)))) := by
  subst now
  refine ⟨_, onChip_just (f := fun _ c => c.refill) h rfl rfl, rfl, rfl, rfl, rfl, ?_, fun p pt part whole => ?_⟩
  · show ({ s.chip.between with parts := [], regAt := 0 } : Chip) = _
    rw [State.sound_staged h]
  · refine ⟨_, part?_refill part, rfl, ?_, fun i r l reg level => ?_⟩
    · simp [Part.refilled, whole]
    · simp [Part.refilled, List.getElem?_zipWith, reg, level, regLevel, regCap]

end Sys2Proof.Machine
end

section
/-! SUPPORT. What the end of a command spares (R38-R41, R332): gates, launches and the interrupt requests that are set. -/

namespace Sys2Proof.Machine

/-- Gates stand, no launch appears, and no bit of IRQ_RAW is lost. -/
structure Chip.Spares (c d : Chip) : Prop where
  gates : d.gates = c.gates
  launches : ∀ i, tabFind c.coll.launches i = none → tabFind d.coll.launches i = none
  raised : ∀ f i, Chip.StaysRaised f i c d

namespace Chip.Spares

variable {c d e : Chip}

/-- A change of other fields alone. -/
theorem of_fields (gates : d.gates = c.gates) (coll : d.coll = c.coll) (headers : d.headers = c.headers) : c.Spares d where
  gates := gates
  launches i h := by rw [coll, h]
  raised f i h := by rwa [Chip.hdr, headers]

theorem refl (c : Chip) : c.Spares c := of_fields rfl rfl rfl

theorem trans (h : c.Spares d) (k : d.Spares e) : c.Spares e where
  gates := k.gates.trans h.gates
  launches i none := k.launches i (h.launches i none)
  raised f i up := k.raised f i (h.raised f i up)

theorem notice (fuel : Nat) (e : Notice) (c : Chip) : c.Spares (notice fuel e c) where
  gates := Chip.reports_same (notice_reports fuel e c) Chip.gates fun _ => rfl
  launches i none := by rw [Chip.reports_same (notice_reports fuel e c) Chip.coll fun _ => rfl, none]
  raised f i := notice_staysRaised f i fuel e c

theorem count (c : Chip) (f n k : Nat) : c.Spares (c.count f n k) := notice _ _ c

theorem fire (c : Chip) (f src : Nat) : c.Spares (c.fire f src) := notice _ _ c

theorem vector (c : Chip) (fn v : Nat) : c.Spares (c.vector fn v) := notice _ _ c

theorem log (c : Chip) (f : Nat) (r : LogReq) : c.Spares (c.log f r) := by
  have put (h : Header) (same : h.irqRaw = (c.hdr f).irqRaw) : c.Spares (c.putHdr f h) :=
    ⟨rfl, fun _ => id, fun _ _ => putHdr_staysRaised c fun up => same ▸ up⟩
  unfold Chip.log
  dsimp only
  split
  · refine trans ?_ (.fire _ f 0)
    exact put _ rfl
  · exact put _ rfl

theorem noteAll (c : Chip) (x : Ctx) : c.Spares (c.noteAll x) := by
  obtain ⟨r, v, n, frame⟩ := noteAll_frame c x
  exact frame ▸ of_fields rfl rfl rfl

theorem chargePart (c : Chip) (k : Cmd) (status : Nat) : c.Spares (c.chargePart k status) := by
  have timed (d : Chip) (p : Nat) : d.Spares (match k.engine with
      | some e =>
        if k.share = 0 || k.isHead then d
        else { d with vtime := tabSet d.vtime (16 * e + p) (d.vt e p + k.acct.beats * 256 / k.share) }
      | none => d) := by
    split
    · split
      · exact .refl d
      · exact of_fields rfl rfl rfl
    · exact .refl d
  have faulted (d : Chip) (p : Nat) : d.Spares (match d.part? p with
      | some pt =>
        if pt.stopOnFault && !pt.fault && (status = 12 || status = 7 || status = 8) then
          (d.modPart p (fun q => { q with fault := true })).fire (0x020 + p) 5
        else d
      | none => d) := by
    split
    · split
      · refine trans ?_ (.fire _ _ _)
        exact of_fields rfl rfl rfl
      · exact .refl d
    · exact .refl d
  have charged (d : Chip) (p pj : Nat) : d.Spares (d.chargePj p pj) := by
    refine trans ?_ (.count _ _ _ _)
    exact of_fields rfl rfl rfl
  unfold Chip.chargePart
  split
  · exact .refl c
  next p _ => exact ((((count c _ _ _).trans (.count _ _ _ _)).trans (.count _ _ _ _)).trans (charged _ _ _)).trans ((timed _ p).trans (faulted _ p))

theorem gone (c : Chip) (k : Cmd) (status : Nat) : c.Spares (c.gone k status) := by
  have charged (d : Chip) : d.Spares (d.chargeRun k) := by
    unfold Chip.chargeRun
    split
    · exact .refl d
    · exact of_fields rfl rfl rfl
  have used (d : Chip) : d.Spares (if k.tclass = 2 && !k.isRound && k.phase ≠ .waiting then d.noteUse (48 + k.inst) else d) := by
    split
    · exact of_fields rfl rfl rfl
    · exact .refl d
  have dropped (d : Chip) (b : Bool) (i : Nat) : d.Spares (d.dropWaiter b i k.id) := by
    obtain ⟨l, frame⟩ := dropWaiter_frame d b i k.id
    exact frame ▸ of_fields rfl rfl rfl
  have left : c.Spares { c.dropCmd k.id with readied := tabDel c.readied k.id } := of_fields rfl rfl rfl
  have drained (d : Chip) : d.Spares d.drainShadows := of_fields rfl rfl rfl
  exact (((left.trans (charged _)).trans (used _)).trans ((dropped _ _ _).trans (dropped _ _ _))).trans ((chargePart _ k status).trans (drained _))

theorem cqVector (c : Chip) (key : Nat) : c.Spares (c.cqVector key) := by
  have put (d : Chip) (q : CQ) : d.Spares (d.putCq key q) := of_fields rfl rfl rfl
  unfold Chip.cqVector
  split
  · exact (put c _).trans (.vector _ _ _)
  · exact put c _

theorem recordCharged (c : Chip) (fn : Nat) : c.Spares (c.recordCharged fn) := by
  unfold Chip.recordCharged
  split
  · refine trans ?_ (.count _ _ _ _)
    exact of_fields rfl rfl rfl
  · exact .refl c

theorem emitRecord (c : Chip) (key : Nat) (r : Record) : c.Spares (c.emitRecord key r) := by
  have written (d : Chip) (q : CQ) (o : Out) : d.Spares ((d.putCq key q).send o) := of_fields rfl rfl rfl
  have charged := ((written c { c.cq key with written := (c.cq key).written + 1 } (c.slotRecord key r)).trans
    (.count _ (0x010 + key / 256 / 32) 2 1)).trans (.recordCharged _ (key / 256))
  rw [emitRecord_eq]
  dsimp only
  split
  · exact charged.trans (.cqVector _ key)
  · exact charged

theorem putRecord (c : Chip) (k : Cmd) (r : Record) : c.Spares (c.putRecord k r) := by
  unfold Chip.putRecord
  dsimp only
  split
  · exact .refl c
  · split
    · exact of_fields rfl rfl rfl
    · exact emitRecord c _ r

theorem queueDone (c : Chip) (k : Cmd) (status : Nat) : c.Spares (c.queueDone k status) := by
  obtain ⟨l, frame, -⟩ := queueDone_frame c k status
  exact frame ▸ of_fields rfl rfl rfl

theorem retire (c : Chip) (k : Cmd) (status detail : Nat) (record : Bool) : c.Spares (c.retire k status detail record) := by
  have recorded (d : Chip) : d.Spares (if record then d.putRecord k (k.record status detail) else d) := by
    split
    · exact putRecord d k _
    · exact .refl d
  rw [retire_eq]
  exact ((gone c k status).trans (recorded _)).trans (.queueDone _ k status)

end Chip.Spares

/-- A command that has started and fails, with no waiter on its signal entry: it leaves with its record, and the entry is poisoned (R40). -/
theorem finish_fails {c : Chip} {x : Ctx} {k : Cmd} (started : k.phase ≠ .waiting)
    (quiet : k.flag 3 = true → (c.event (k.fld 10 2)).waiters = []) {status : Nat} (fails : status ≠ 0) (detail : Nat) :
    c.Left (c.finish x k status detail true) k status detail true ∧
      (k.flag 3 = true → ((c.finish x k status detail true).event (k.fld 10 2)).poisoned = true) ∧
      c.Spares (c.finish x k status detail true) := by
  obtain ⟨left, events⟩ := retire_frame (c.noteAll x) k status detail true
  have ended := left.after_keeps (.noteAll c x)
  have spares := (Chip.Spares.noteAll c x).trans (.retire (c.noteAll x) k status detail true)
  have behind : (if k.flag 2 && k.phase = .waiting then [k.fld 8 2] else []) = [] := if_neg (by simp [started])
  unfold Chip.finish
  dsimp only
  rw [behind]
  cases signals : k.flag 3 with
  | false =>
    rw [if_pos (by rfl), settle_idle _ _ _ _ (fun _ h => absurd h List.not_mem_nil)]
    exact ⟨ended, nofun, spares⟩
  | true =>
    have same := Chip.event_congr (Chip.Keeps.noteAll c x).events (k.fld 10 2)
    have none : (((c.noteAll x).retire k status detail true).event (k.fld 10 2)).waiters = [] := by
      have before := (congrArg Event.waiters same).trans (quiet signals)
      rw [events, Event.without_of_nil before, ite_self, before]
    rw [if_neg (by simp), if_neg fails]
    generalize (c.noteAll x).retire k status detail true = r at *
    have own : (r.putEvent (k.fld 10 2) { r.event (k.fld 10 2) with poisoned := true }).event (k.fld 10 2) =
        { r.event (k.fld 10 2) with poisoned := true } := by rw [Chip.event_putEvent, if_pos rfl]
    rw [settle_idle _ _ _ _ (fun i hi => by rw [List.mem_singleton.mp hi, own]; exact none)]
    refine ⟨⟨ended.staged, ended.cmds, ended.inFlight, ended.others, ended.out, ended.kept⟩, fun _ => by rw [own],
      spares.trans (.of_fields rfl rfl rfl)⟩

end Sys2Proof.Machine
end

section
/-! SUPPORT. The command watchdog (R330, R267): what a kill leaves of the chip, and the statement about the timers. -/

namespace Sys2Proof.Machine

/-! ### What a kill leaves before the command's end (R99, R100) -/

/-- The chip without what reporting changes and what a killed command's own unit changes: tiers, the bridge, tables, launches and the counter of
free values. -/
def Chip.halting (c : Chip) : Chip := { c.quiet with free := 0, tiers := {}, bridge := {}, tables := [], coll.launches := [] }

/-- `d` is `c` but for that; where nothing of a move is spoilt, with nothing more staged. -/
structure Chip.Halts (still : Prop) (c d : Chip) : Prop extends Chip.Spares c d where
  halting : d.halting = c.halting
  staged : still → d.staged = c.staged

namespace Chip.Halts

variable {still : Prop} {c d e : Chip}

theorem refl (c : Chip) : Chip.Halts still c c := ⟨.refl c, rfl, fun _ => rfl⟩

theorem trans (h : Chip.Halts still c d) (k : Chip.Halts still d e) : Chip.Halts still c e :=
  ⟨h.toSpares.trans k.toSpares, k.halting.trans h.halting, fun s => (k.staged s).trans (h.staged s)⟩

/-- What `halting` keeps is the same. -/
theorem same {α : Type} (h : Chip.Halts still c d) (f : Chip → α) (hf : ∀ b, f b.halting = f b) : f d = f c := by rw [← hf d, h.halting, hf c]

theorem notice (fuel : Nat) (e : Notice) (c : Chip) : Chip.Halts still c (notice fuel e c) where
  toSpares := .notice fuel e c
  halting := (congrArg Chip.halting (notice_reports fuel e c).1 :)
  staged _ := notice_staged fuel e c

theorem count (c : Chip) (f n k : Nat) : Chip.Halts still c (c.count f n k) := notice _ _ c

theorem fire (c : Chip) (f src : Nat) : Chip.Halts still c (c.fire f src) := notice _ _ c

theorem draw (c : Chip) (n : Nat) : Chip.Halts still c (c.draw n) := ⟨.of_fields rfl rfl rfl, rfl, fun _ => rfl⟩

theorem log (c : Chip) (f : Nat) (r : LogReq) : Chip.Halts still c (c.log f r) where
  toSpares := .log c f r
  halting := (congrArg Chip.halting (log_logs c f r).1 :)
  staged _ := by
    unfold Chip.log
    dsimp only
    split
    · exact fire_staged _ f 0
    · rfl

/-- Steps that each halt halt together. -/
theorem foldl {α : Type} {g : Chip → α → Chip} (hg : ∀ c a, Chip.Halts still c (g c a)) (l : List α) (c : Chip) :
    Chip.Halts still c (l.foldl g c) := by
  induction l generalizing c with
  | nil => exact refl c
  | cons a l ih => exact (hg c a).trans (ih _)

theorem broken (c : Chip) (k : Cmd) (env : Env) : Chip.Halts still c (c.broken k env) := by
  have counts (d : Chip) (f n₀ n₁ n₂ n₃ n₄ n₅ : Nat) : Chip.Halts still d
      ((((((d.count f 0 n₀).count f 1 n₁).count f 2 n₂).count f 3 n₃).count f 4 n₄).count f 5 n₅) :=
    (((count d f 0 n₀).trans (count _ f 1 n₁)).trans ((count _ f 2 n₂).trans (count _ f 3 n₃))).trans ((count _ f 4 n₄).trans (count _ f 5 n₅))
  unfold Chip.broken
  dsimp only
  split
  · exact ((foldl (fun d i => counts d _ _ _ _ _ _ _) _ c).trans (count _ _ _ _)).trans (draw _ _)
  · exact (foldl (fun d i => counts d _ _ _ _ _ _ _) _ c).trans (draw _ _)

/-- A write stages, and drops residency entries. -/
theorem wr (c : Chip) (x : Ctx) (a : Nat) (d : List Byte) : Chip.Halts False c (c.wr x a d) := by
  obtain ⟨r, dropped⟩ := Chip.dropResid_chip c a d.length
  have frame := Chip.wr_chip c x a d
  rw [dropped] at frame
  exact ⟨.of_fields (congrArg Chip.gates frame :) (congrArg Chip.coll frame :) (congrArg Chip.headers frame :), (congrArg Chip.halting frame :), nofun⟩

theorem wrUnspecified (c : Chip) (x : Ctx) (a n : Nat) : Chip.Halts False c (c.wrUnspecified x a n) := by
  obtain ⟨r, f, ss, frame, -⟩ := wrUnspecified_opens c x a n
  exact frame ▸ ⟨.of_fields rfl rfl rfl, rfl, nofun⟩

theorem zeroRead (c : Chip) (x : Ctx) (k : Cmd) : Chip.Halts False c (c.zeroRead x k) := by
  have zero (d : Chip) (a : Nat) : Chip.Halts False d ((if Config.freeNat d.free % 2 = 1 then d.wr x a (leBytes 4 0) else d).draw 1) := by
    refine trans ?_ (draw _ 1)
    split
    · exact wr d x a _
    · exact refl d
  unfold Chip.zeroRead
  split
  · exact foldl zero _ c
  · exact refl c

theorem spoilMove (c : Chip) (x : Ctx) (k : Cmd) : Chip.Halts False c (c.spoilMove x k) := by
  have spoilt := foldl (fun d (r : Nat × Nat) => wrUnspecified d x r.1 r.2) (c.destOf k).runs c
  have dirty (d : Chip) (t : Tab (Bool × Bool)) : Chip.Halts False d { d with tiers.gradStat := t } := ⟨.of_fields rfl rfl rfl, rfl, nofun⟩
  unfold Chip.spoilMove
  dsimp only
  split_ifs
  · exact refl c
  · exact spoilt.trans (dirty _ _)
  · exact (spoilt.trans (dirty _ _)).trans (fire _ _ _)
  · exact spoilt

end Chip.Halts

/-- A killed command's own unit reacts: of a command that is no move, nothing is staged (R39, R99, R189). -/
theorem killUnit_halts (c : Chip) (x : Ctx) (k : Cmd) : Chip.Halts (k.opcode ≠ 0x40) c (c.killUnit x k) := by
  have unit (d : Chip) (f : Nat) : Chip.Halts (k.opcode ≠ 0x40) d
      (if k.half ≠ 0 then (((d.count f 6 1).fire f 4).count f 7 1).fire f 2 else (d.count f 6 1).fire f 4) := by
    split
    · exact ((Chip.Halts.count _ _ _ _).trans (.fire _ _ _)).trans ((Chip.Halts.count _ _ _ _).trans (.fire _ _ _))
    · exact (Chip.Halts.count _ _ _ _).trans (.fire _ _ _)
  have counted (us : List Nat) : Chip.Halts (k.opcode ≠ 0x40) c (if k.phase = .running then
      us.foldl (fun d u => if k.half ≠ 0 then (((d.count (unitPage u).frame 6 1).fire (unitPage u).frame 4).count (unitPage u).frame 7 1).fire
        (unitPage u).frame 2 else (d.count (unitPage u).frame 6 1).fire (unitPage u).frame 4)
        ((c.draw (2 * (c.unitsOf k).length)).broken k (c.freezes (c.unitsOf k).length)) else c) := by
    split
    · exact ((Chip.Halts.draw c _).trans (.broken _ k _)).trans (.foldl (fun d u => unit d _) _ _)
    · exact .refl c
  have held (d : Chip) : Chip.Halts (k.opcode ≠ 0x40) d
      (if d.bridge.rings.any (fun e => e.2.held = some k.id) then (d.count 0x008 6 (Config.freeNat d.free)).draw 1 else d) := by
    split
    · exact (Chip.Halts.count _ _ _ _).trans (.draw _ 1)
    · exact .refl d
  have spoilt (d : Chip) : Chip.Halts (k.opcode ≠ 0x40) d
      (if k.opcode = 0x40 && k.phase = .running then (d.zeroRead x k).spoilMove x k else d) := by
    split
    next move =>
      have all := (Chip.Halts.zeroRead d x k).trans (.spoilMove _ x k)
      exact ⟨all.toSpares, all.halting, fun other => absurd (by simp_all) other⟩
    next => exact .refl d
  have gone (d : Chip) (rs : Tab Ring) : Chip.Halts (k.opcode ≠ 0x40) d { d with bridge.rings := rs, coll.launches := tabDel d.coll.launches k.id } := by
    refine ⟨⟨rfl, fun i none => ?_, fun _ _ => id⟩, rfl, fun _ => rfl⟩
    show tabFind (tabDel d.coll.launches k.id) i = _
    rw [tabFind_tabDel, none, ite_self]
  have loads (d : Chip) (ts : Tab Table) : Chip.Halts (k.opcode ≠ 0x40) d (if k.opcode = 0x80 && k.phase = .running then { d with tables := ts } else d) := by
    split
    · exact ⟨.of_fields rfl rfl rfl, rfl, fun _ => rfl⟩
    · exact .refl d
  exact (((counted _).trans (held _)).trans (spoilt _)).trans ((gone _ _).trans (loads _ _))

/-- The launch of a killed command is gone. -/
theorem killUnit_unlaunched (c : Chip) (x : Ctx) (k : Cmd) : tabFind (c.killUnit x k).coll.launches k.id = none := by
  have gone (t : Tab Launch) : tabFind (tabDel t k.id) k.id = none := by rw [tabFind_tabDel, if_pos rfl]
  unfold Chip.killUnit
  dsimp only
  split
  · exact gone _
  · exact gone _

/-- A command that has left a halted chip has left the chip before. -/
theorem Chip.Halts.ended {still : Prop} {c n d : Chip} (h : Chip.Halts still c n) {k : Cmd} {status detail : Nat}
    (left : n.ended d k status detail) : c.ended d k status detail := by
  have sqs := h.same Chip.sqs fun _ => rfl
  have cqs := h.same Chip.cqs fun _ => rfl
  have paces := h.same (fun b => b.parts.map Part.pace) fun _ => rfl
  obtain ⟨cmds, inFlight, others, out⟩ := left
  rw [Chip.cqOpen_congr sqs cqs paces, Chip.recordOut_congr sqs cqs] at out
  exact ⟨cmds.trans (by rw [h.same Chip.cmds fun _ => rfl]), inFlight.trans (by rw [Chip.sq_congr sqs]),
    fun q hq => (others q hq).trans (Chip.sq_congr sqs q), out⟩

/-- `d` is `c` after a running command has been killed: its record is out where its completion queue takes it, its signal entry poisoned. -/
structure Chip.Killed (c d : Chip) (k : Cmd) (status : Nat) : Prop extends Chip.Spares c d where
  staged : k.opcode ≠ 0x40 → d.staged = c.staged
  poisons : k.flag 3 = true → (d.event (k.fld 10 2)).poisoned = true
  unlaunched : tabFind d.coll.launches k.id = none
  ended : ∃ beats bytes, c.ended d
    (c.accounted { c.seenNf k with acct := (c.seenNf k).acct.plus { beats := beats, bytes64 := bytes } }) status 0

/-- A running command killed, with no waiter on its signal entry. -/
theorem kill_kills {c : Chip} (x : Ctx) {id : Nat} {k : Cmd} (found : c.cmd? id = some k) (running : k.phase = .running)
    (quiet : k.flag 3 = true → (c.event (k.fld 10 2)).waiters = []) {status : Nat} (fails : status ≠ 0) :
    c.Killed (c.kill x id status true) k status := by
  have halts : Chip.Halts (k.opcode ≠ 0x40) c (c.killUnit x (c.seenNf k)) := killUnit_halts c x (c.seenNf k)
  have gone : tabFind (c.killUnit x (c.seenNf k)).coll.launches k.id = none := killUnit_unlaunched c x (c.seenNf k)
  have killed : c.kill x id status true =
      ((c.killUnit x (c.seenNf k)).draw 2).finish x ((c.killUnit x (c.seenNf k)).stopped (c.seenNf k)) status 0 true := by
    rw [Chip.kill, found]
    dsimp only
    rw [running]
  rw [killed]
  generalize c.killUnit x (c.seenNf k) = n at *
  have drawn := halts.trans (.draw n 2)
  obtain ⟨left, poisons, spares⟩ := finish_fails (c := n.draw 2) (x := x) (k := n.stopped (c.seenNf k)) (status := status)
    (fun waits => nomatch running.symm.trans waits) (fun signals => (congrArg Event.waiters (drawn.same (fun b => b.event (k.fld 10 2)) fun _ => rfl)).trans
      (quiet signals)) fails 0
  refine ⟨drawn.toSpares.trans spares, fun other => left.staged.trans (drawn.staged other), poisons, spares.launches _ gone,
    Config.freeNat n.free, Config.freeNat (n.free + 1), ?_⟩
  rw [← halts.same (fun b => b.accounted _) fun _ => rfl]
  exact drawn.ended ⟨left.cmds, left.inFlight, left.others, left.out rfl⟩

/-! ### The watchdog (R330, R267) -/

/-- The log of an expiry on the page of its target (R411). -/
def Chip.expiryLogged (c : Chip) (k : Cmd) : Chip :=
  match (c.pagesOf k).head? with
  | some pg => c.log pg.frame { cls := 4, sev := 1, status := 0x0C, part := c.cmdPart k, opcode := k.opcode, target := k.target }
  | none => c

theorem expiryLogged_halts (c : Chip) (k : Cmd) : Chip.Halts True c (c.expiryLogged k) := by
  unfold Chip.expiryLogged
  split
  · exact .log c _ _
  · exact .refl c

/-- A launch that fails: its partition's step is abandoned, and COLL says so (R267). -/
def Chip.launchFails (c : Chip) (p : Nat) : Chip := (c.gateAbandon p).fire collFrame 2

section

variable {c : Chip} {id p : Nat} {k : Cmd} {pt : Part} (found : c.cmd? id = some k) (running : k.phase = .running) (acts : c.cmdPart k = some p)
  (part : c.part? p = some pt)

include found acts part in
/-- Up to its time a command goes on. -/
theorem watchdog_early (x : Ctx) (early : c.time ≤ k.startNs + k.untimed + 1000 * k.watchdogUs) : Chip.watchdog x c id = c := by
  simp [Chip.watchdog, found, acts, part, early]

include found running acts part

/-- Past its time a command is logged and killed; a launch fails with it, and its partition's record may go up (R267). -/
theorem watchdog_expires (x : Ctx) (late : k.startNs + k.untimed + 1000 * k.watchdogUs < c.time) :
    Chip.watchdog x c id = if k.tclass = 6 && k.opcode = 0x71 then
      (((c.expiryLogged k).launchFails p).kill x id 0x0C true).trySendUp p else (c.expiryLogged k).kill x id 0x0C true := by
  have bound : (c.cmdPart k).bind c.part? = some pt := by rw [acts, Option.bind_some, part]
  have past : (k.phase ≠ .running || c.time ≤ k.startNs + k.untimed + 1000 * k.watchdogUs) = false := by simp [running, late]
  have own : ((c.expiryLogged k).cmdPart k).getD 16 = p := by
    rw [(expiryLogged_halts c k).same (fun b => b.cmdPart k) fun _ => rfl, acts, Option.getD_some]
  unfold Chip.watchdog
  rw [found]
  dsimp only
  rw [bound]
  dsimp only
  rw [if_neg (ne_true_of_eq_false past)]
  exact (congrArg (fun q => if k.tclass = 6 && k.opcode = 0x71 then
    (((c.expiryLogged k).launchFails q).kill x id 0x0C true).trySendUp q else (c.expiryLogged k).kill x id 0x0C true) own :)

/-- A command that runs past its time ends TIMEOUT with its record. -/
theorem watchdog_killed (x : Ctx) (late : k.startNs + k.untimed + 1000 * k.watchdogUs < c.time) (other : k.opcode ≠ 0x71)
    (unlaunched : tabFind c.coll.launches id = none) (quiet : k.flag 3 = true → (c.event (k.fld 10 2)).waiters = []) :
    (k.opcode ≠ 0x40 → (Chip.watchdog x c id).staged = c.staged) ∧
      (k.flag 3 = true → ((Chip.watchdog x c id).event (k.fld 10 2)).poisoned = true) ∧
      ∃ beats bytes, c.ended (Chip.watchdog x c id)
        (c.accounted { k with acct := k.acct.plus { beats := beats, bytes64 := bytes } }) 0x0C 0 := by
  have logged := expiryLogged_halts c k
  have number : k.id = id := Chip.cmd?_id found
  rw [watchdog_expires found running acts part x late, if_neg (by simp [other])]
  obtain ⟨spares, staged, poisons, gone, beats, bytes, ended⟩ := kill_kills x ((logged.same (fun b => b.cmd? id) fun _ => rfl).trans found) running
    (fun signals => (congrArg Event.waiters (logged.same (fun b => b.event (k.fld 10 2)) fun _ => rfl)).trans (quiet signals)) (status := 0x0C) (by decide)
  refine ⟨fun move => (staged move).trans (logged.staged trivial), poisons, beats, bytes, ?_⟩
  have tiles : (c.expiryLogged k).seenNf k = k := by
    rw [Chip.seenNf, logged.launches k.id (number ▸ unlaunched), Bool.or_false]
  rw [tiles, logged.same (fun b => b.accounted _) fun _ => rfl] at ended
  exact logged.ended ended

/-- A launch that runs past its time ends, and its step is abandoned. -/
theorem watchdog_failed (x : Ctx) (late : k.startNs + k.untimed + 1000 * k.watchdogUs < c.time) (tclass : k.tclass = 6) (op : k.opcode = 0x71)
    (quiet : k.flag 3 = true → (c.event (k.fld 10 2)).waiters = []) :
    (Chip.watchdog x c id).staged = c.staged ∧ (Chip.watchdog x c id).cmd? id = none ∧
      tabFind (Chip.watchdog x c id).coll.launches id = none ∧ ((Chip.watchdog x c id).gate p).loc.abandon = true ∧
      ((Chip.watchdog x c id).hdr collFrame).irqRaw.getLsbD 2 = true ∧
      (k.flag 3 = true → ((Chip.watchdog x c id).event (k.fld 10 2)).poisoned = true) := by
  have logged := expiryLogged_halts c k
  have number : k.id = id := Chip.cmd?_id found
  have fired := fire_reports ((c.expiryLogged k).gateAbandon p) collFrame 2
  rw [watchdog_expires found running acts part x late, if_pos (by simp [tclass, op])]
  obtain ⟨spares, staged, poisons, gone, beats, bytes, ended⟩ := kill_kills (c := (c.expiryLogged k).launchFails p) x
    ((Chip.reports_same fired (fun b => b.cmd? id) fun _ => rfl).trans ((logged.same (fun b => b.cmd? id) fun _ => rfl).trans found)) running
    (fun signals => (congrArg Event.waiters ((Chip.reports_same fired (fun b => b.event (k.fld 10 2)) fun _ => rfl).trans
      (logged.same (fun b => b.event (k.fld 10 2)) fun _ => rfl))).trans (quiet signals)) (status := 0x0C) (by decide)
  obtain ⟨cmds, -⟩ := ended
  have abandoned : (((c.expiryLogged k).launchFails p).gate p).loc.abandon = true := by
    rw [Chip.launchFails, Chip.reports_same fired (fun b => b.gate p) fun _ => rfl, Chip.gateAbandon, Chip.gate_putGate, if_pos rfl]
  have fires : ((((c.expiryLogged k).launchFails p).hdr collFrame).irqRaw.getLsbD 2) = true := fire_raises _ collFrame (by decide)
  have before : ((c.expiryLogged k).launchFails p).staged = c.staged := (fire_staged _ collFrame 2).trans (logged.staged trivial)
  generalize ((c.expiryLogged k).launchFails p).kill x id 0x0C true = d at *
  have others : d.cmds = ((c.expiryLogged k).launchFails p).cmds.filter (fun j => j.id ≠ k.id) := cmds
  obtain ⟨unstaged, events, -, loc, -, ids, launches, raised⟩ := trySendUp_reduces d p
  refine ⟨(unstaged.trans (staged (by simp [op]))).trans before, ?_, launches id (number ▸ gone), ?_, raised _ 2 (spares.raised _ 2 fires),
    fun signals => (congrArg Event.poisoned (Chip.event_congr events _)).trans (poisons signals)⟩
  · have absent : id ∉ (d.trySendUp p).cmds.map Cmd.id := by
      rw [ids, others, ← number]
      simp
    exact List.find?_eq_none.mpr fun j hj same => absent (List.mem_map.mpr ⟨j, hj, by simpa using same⟩)
  · rw [loc, Chip.gate, spares.gates]
    exact abandoned

end

/-- Injections met in storing stage more and change headers (R417). -/
theorem eccStored_frame (c : Chip) (x : Ctx) (q : Option Nat) : ∃ hs ss, c.eccStored x q = { c with headers := hs, staged := ss } := by
  have line (d : Chip) (l : Nat) : ∃ hs ss, Chip.eccLine x q d l = { d with headers := hs, staged := ss } := by
    unfold Chip.eccLine
    split
    · exact ⟨d.headers, d.staged, rfl⟩
    · split
      · exact ⟨d.headers, d.staged, rfl⟩
      · dsimp only
        split
        · exact ⟨_, d.staged, rfl⟩
        · exact ⟨_, _, rfl⟩
  have lines (ls : List Nat) (d : Chip) : ∃ hs ss, ls.foldl (Chip.eccLine x q) d = { d with headers := hs, staged := ss } := by
    induction ls generalizing d with
    | nil => exact ⟨d.headers, d.staged, rfl⟩
    | cons l ls ih =>
      obtain ⟨hs, ss, first⟩ := line d l
      obtain ⟨hs', ss', rest⟩ := ih (Chip.eccLine x q d l)
      exact ⟨hs', ss', by rw [List.foldl_cons, rest, first]⟩
  unfold Chip.eccStored
  split
  · exact ⟨c.headers, c.staged, rfl⟩
  · exact lines _ c

/-- The watchdog, as the statement has it. -/
theorem watchdog_holds {s : State} {id p : Nat} {k : Cmd} {pt : Part} (h : s.sound) (found : s.chip.cmd? id = some k)
    (running : k.phase = .running) (acts : s.chip.cmdPart k = some p) (part : s.chip.part? p = some pt) :
    (s.chip.time ≤ k.startNs + k.untimed + 1000 * k.watchdogUs → becomesJust (.commandWatchdogExpire id) s s.chip) ∧
     (k.startNs + k.untimed + 1000 * k.watchdogUs < s.chip.time → k.tclass = 6 → k.opcode = 0x71 →
       (k.flag 3 = true → (s.chip.event (k.fld 10 2)).waiters = []) →
       nextWith (exec (.commandWatchdogExpire id) s) (fun t =>
         t.mem = s.mem ∧ t.fuse = s.fuse ∧ t.chip.cmd? id = none ∧ tabFind t.chip.coll.launches id = none ∧
         (t.chip.gate p).loc.abandon = true ∧ (t.chip.hdr 0x009).irqRaw.getLsbD 2 = true ∧
         (k.flag 3 = true → (t.chip.event (k.fld 10 2)).poisoned = true))) ∧
     (k.startNs + k.untimed + 1000 * k.watchdogUs < s.chip.time → k.opcode ≠ 0x71 → tabFind s.chip.coll.launches id = none →
       (k.flag 3 = true → (s.chip.event (k.fld 10 2)).waiters = []) →
       nextWith (exec (.commandWatchdogExpire id) s) (fun t =>
         (k.opcode ≠ 0x40 → t.mem = s.mem) ∧ t.fuse = s.fuse ∧ (k.flag 3 = true → (t.chip.event (k.fld 10 2)).poisoned = true) ∧
         ∃ beats bytes, s.chip.ended t.chip (s.chip.accounted { k with acct := k.acct.plus { beats := beats, bytes64 := bytes } }) 0x0C 0)) := by
  refine ⟨fun early => onChip_just (f := fun x c => Chip.watchdog x c id) h (watchdog_early found acts part s.ctx early) rfl,
    fun late tclass op quiet => ?_, fun late other unlaunched quiet => ?_⟩
  · obtain ⟨staged, gone, unlaunched, abandoned, raised, poisoned⟩ := watchdog_failed found running acts part s.ctx late tclass op quiet
    exact ⟨_, onChip_just (f := fun x c => Chip.watchdog x c id) h rfl staged, rfl, rfl, gone, unlaunched, abandoned, raised, poisoned⟩
  · obtain ⟨staged, poisoned, beats, bytes, ended⟩ := watchdog_killed found running acts part s.ctx late other unlaunched quiet
    show nextWith (onStep (fun _ => none) (fun x c => Chip.watchdog x c id) s) _
    rw [onStep_next, State.sound_staged h]
    generalize Chip.watchdog s.ctx s.chip id = d at *
    refine ⟨fun move => ?_, rfl, ?_, beats, bytes, ?_⟩
    · have empty := (staged move).trans (State.sound_unstaged h)
      rw [eccStored_idle empty, empty, Memory.commit_nil]
    · obtain ⟨hs, ss, frame⟩ := eccStored_frame d s.ctx none
      rw [frame]
      exact poisoned
    · obtain ⟨hs, ss, frame⟩ := eccStored_frame d s.ctx none
      rw [frame]
      exact ended

/-- Settles O30: each timer's step by the time it finds, the gate's through the scalar reduction, the watchdog's through the kill of its
command. -/
theorem timers : Obligations.Timers := by
  unfold Obligations.Timers
  refine ⟨fun s p t h sealed => gateTimers_hold h sealed, ⟨fun s h => ⟨fun early => ?_, fun due => ?_⟩, fun s p v sv pt h serves part => ?_⟩,
    fun s id p k pt h found running acts part => watchdog_holds h found running acts part, fun s h => regulatorRefill_holds h _ rfl⟩
  · exact onChip_just (f := fun _ c => c.bucketRefill) h (bucketRefill_early early) rfl
  · exact onChip_just (f := fun _ c => c.bucketRefill) h (bucketRefill_due due) rfl
  · exact tokenTimer_holds v h serves part

end Sys2Proof.Machine
end

section
/-! SUPPORT. Writes of port, DEVICE_ID and segment-owner registers that take effect (R250, R251, R309), and the statement about them. -/

namespace Sys2Proof.Machine

/-! ### DEVICE_ID (R251) -/

/-- A DEVICE_ID whose reserved bits are 0 is written whole. -/
theorem deviceId_whole {v : Nat} (reserved : v &&& 0x7FFFF000 = 0) (hv : v < 2 ^ 32) : v &&& 0x80000FFF = v :=
  calc v &&& 0x80000FFF = (v &&& 0x7FFFF000) ||| (v &&& 0x80000FFF) := by rw [reserved, Nat.zero_or]
    _ = v &&& (2 ^ 32 - 1) := (Nat.and_or_distrib_left v _ _).symm
    _ = v := by rw [Nat.and_two_pow_sub_one_eq_mod, Nat.mod_eq_of_lt hv]

/-- The management controller writes DEVICE_ID, or is refused while a port has LINK_UP. -/
theorem deviceIdWrite_mgmt {c : Chip} {v : Nat} (reserved : v &&& 0x7FFFF000 = 0) (hv : v < 2 ^ 32) :
    (c.rsvd vetchFabPage v (allBits - 0x80000FFF)).deviceIdWrite .mgmt (v &&& 0x80000FFF) =
      if (List.range 24).any c.linkUp then c.deny vetchFabPage else { c with links.deviceId := v } := by
  have unmarked : c.rsvd vetchFabPage v (allBits - 0x80000FFF) = c := if_pos reserved
  rw [unmarked, deviceId_whole reserved hv, Chip.deviceIdWrite]
  rfl

/-! ### Segment owners (R279, R309) -/

/-- Where no command runs, no segment is in use. -/
theorem segInUse_waiting {c : Chip} (waiting : ∀ k ∈ c.cmds, k.phase = .waiting) (s j : Nat) : c.segInUse s j = false := by
  rw [Chip.segInUse, List.any_eq_false]
  intro k hk
  simp [waiting k hk]

/-- A write of segment owners then takes effect. -/
theorem segWrite_waiting {c : Chip} (waiting : ∀ k ∈ c.cmds, k.phase = .waiting) (e off v : Nat) :
    c.segWrite e off v = (c.setReg (0x080 + e) off v).noteUse (48 + e) := by
  rw [Chip.segWrite, if_neg]
  simp [segInUse_waiting waiting]

/-- SEG_OWNER_WRITE where no command runs: the register reads as written, and every other stands. -/
theorem exec_segOwnerWrite {s : State} (h : s.sound) {r : Requester} {e off v : Nat} (reached : s.reached r { blk := .cowslip, inst := e })
    (may : s.chip.mayWrite r { blk := .cowslip, inst := e } off = true) (lo : 0x130 ≤ off) (hi : off ≤ 0x154) (aligned : off % 4 = 0)
    (hv : v < 2 ^ 32) (waiting : ∀ k ∈ s.chip.cmds, k.phase = .waiting) :
    nextWith (exec (.segOwnerWrite r e off v) s) (fun t =>
      t.mem = s.mem ∧ t.fuse = s.fuse ∧ t.pending = s.pending ∧ t.chip.reg (0x080 + e) off 0 = v ∧
      (∀ f q d, regKey f q ≠ regKey (0x080 + e) off → t.chip.reg f q d = s.chip.reg f q d) ∧
      { t.chip with regs := [], power.domains := [] } = { s.chip with regs := [], power.domains := [] }) := by
  have written : (if 0x130 ≤ off && off ≤ 0x154 && off % 4 = 0 then s.chip.segWrite e off (v % 2 ^ 32) else s.chip) =
      (s.chip.setReg (0x080 + e) off v).noteUse (48 + e) := by
    rw [if_pos (by simp [lo, hi, aligned]), Nat.mod_eq_of_lt hv, segWrite_waiting waiting]
  refine ⟨_, onChip_permitted h reached may
    (fun _ c => if 0x130 ≤ off && off ≤ 0x154 && off % 4 = 0 then c.segWrite e off (v % 2 ^ 32) else c) written rfl, rfl, rfl, rfl, ?_, ?_, ?_⟩
  · refine (Chip.reg_setReg s.chip (0x080 + e) (0x080 + e) off off v 0).trans ?_
    rw [if_pos rfl, Nat.mod_eq_of_lt hv]
  · exact fun f q d other => (Chip.reg_setReg s.chip (0x080 + e) f off q v d).trans (if_neg (Ne.symm other))
  · exact congrArg (fun c : Chip => { c with regs := [], power.domains := [] }) (State.sound_staged h)

/-! ### The statement -/

/-- Settles O10: each row is a permitted write of its page, which takes effect or, of DEVICE_ID under LINK_UP, is refused. -/
theorem linkAndSegmentWrites : Obligations.LinkAndSegmentWrites := by
  refine ⟨fun s r n h reached may => ⟨fun on => ?_, ?_⟩, fun s v h reached reserved hv => ?_,
    fun s r e off v h reached may lo hi aligned hv waiting => exec_segOwnerWrite h reached may lo hi aligned hv waiting⟩
  · refine onChip_permitted h reached may (fun _ c => c.portCtrl n on false) ?_ rfl
    rw [Chip.portCtrl, Bool.or_false]
  · refine onChip_permitted h reached may (fun _ c => c.portCtrl n (c.link n).enable true) ?_ rfl
    rw [Chip.portCtrl, Bool.or_true]
  · have write {d : Chip} (hd : (s.chip.rsvd vetchFabPage v (allBits - 0x80000FFF)).deviceIdWrite .mgmt (v &&& 0x80000FFF) = d)
        (hs : d.staged = s.chip.staged) : becomesJust (.deviceIdWrite .mgmt v) s d :=
      onChip_permitted h reached (by simp [Chip.mayWrite, Chip.mayWriteBase])
        (fun _ c => (c.rsvd vetchFabPage v (allBits - 0x80000FFF)).deviceIdWrite .mgmt (v &&& 0x80000FFF)) hd hs
    rw [deviceIdWrite_mgmt reserved hv] at write
    refine ⟨fun down => write (if_neg ?_) rfl, fun ⟨n, hn, up⟩ => write (if_pos ?_) rfl⟩
    · simpa using down
    · exact List.any_eq_true.mpr ⟨n, List.mem_range.mpr hn, up⟩

end Sys2Proof.Machine
end

section
/-! SUPPORT. Packets consumed and answered (R236, R243, R244), responses and time-outs of requests (R247, R276), and the statement about
them. -/

namespace Sys2Proof.Machine

/-! ### Packets consumed and answered (R236, R243, R248) -/

/-- A packet that no request before it holds back is delivered. -/
theorem Chip.holdsPacket.delivered {c : Chip} {i type : Nat} {p : Packet} (h : c.holdsPacket i type p) : c.delivered i type = some p := by
  obtain ⟨place, typed, first⟩ := h
  have free : (c.links.inbox.take i).any (fun q => q.before p) = false := List.any_eq_false.mpr fun q hq => by simp [first q hq]
  simp only [Chip.delivered, place, Option.filter_some, typed, free, decide_true, Bool.not_false, Bool.and_self, if_true]

/-- Consumed, it leaves the links free of it. -/
theorem Chip.holdsPacket.consumed {c : Chip} {i type : Nat} {p : Packet} (h : c.holdsPacket i type p) :
    c.consume i = { c with links := c.freeing i p } := by
  rw [Chip.consume, h.1, Option.bind_some, Chip.freeing]
  cases p.origin <;> rfl

/-- The receive buffer alone changes, beside the inbox. -/
theorem freeing_frame (c : Chip) (i : Nat) (p : Packet) :
    ∃ ports, c.freeing i p = { c.links with ports := ports, inbox := c.links.inbox.eraseIdx i } := by
  unfold Chip.freeing
  split
  · exact ⟨c.links.ports, rfl⟩
  · exact ⟨_, rfl⟩

theorem freeing_tags (c : Chip) (i : Nat) (p : Packet) : (c.freeing i p).tags = c.links.tags := by
  obtain ⟨ports, frame⟩ := freeing_frame c i p
  rw [frame]

/-! ### Counters of VETCH_FAB -/

/-- VETCH_FAB is no page of a port of PCIe. -/
theorem fabFrame_apart : ∀ fn < 64, 0x010 + fn / 32 ≠ fabFrame := by
  unfold fabFrame
  omega

/-- A raised counter of VETCH_FAB has risen so far and no further: what else is reported with it counts elsewhere. -/
theorem count_counted (c : Chip) (n k : Nat) : c.counted (c.count fabFrame n k) fabFrame n k := count_value fabFrame_apart c k

/-! ### Responses and time-outs (R247, R276) -/

/-- A settled outcome stands when the step ends. -/
theorem Chip.settles.between {c d : Chip} {id status detail : Nat} (h : c.settles d id status detail) : c.settles d.between id status detail := h

/-- A gather's piece that failed ends the command: none of its takes stands. -/
theorem answered_gather {c d : Chip} (h : c.Sends d) {id : Nat} {k : Cmd} (runs : c.runs id 0x72 k) (stage : k.stage = 1)
    (none : (c.event (k.fld 18 2)).waiters.contains id = false) {st : Nat} (failed : st ≠ 0) (x : Ctx) (tag dt : Nat) :
    Chip.answered x d tag (.gather id) st dt = d.endCmd k st dt := by
  obtain ⟨found, -, running⟩ := runs
  have cmd : d.cmd? id = some k := (h.same (fun b => b.cmd? id) fun _ _ => rfl).trans found
  have event : d.event (k.fld 18 2) = c.event (k.fld 18 2) := h.same (fun b => b.event (k.fld 18 2)) fun _ _ => rfl
  have unheld : d.leaveWaiters (k.fld 18 2) k.id = d := by
    rw [Chip.leaveWaiters, event, Chip.cmd?_id found, none]
    rfl
  simp only [Chip.answered, cmd, running, stage, ne_eq, not_true, decide_false, Bool.or_self, Bool.false_eq_true, if_false, failed, not_false_eq_true,
    if_true, Chip.endGather, unheld]

/-- The chip once a delivered packet has been consumed. -/
abbrev Chip.used (c : Chip) (i : Nat) (r : Packet) : Chip := { c with links := c.freeing i r }

section

variable {s : State} {i : Nat} {r : Packet} (h : s.sound) (held : s.chip.holdsPacket i 8 r)

include held

/-- A response to no outstanding request is late. -/
theorem response_late (late : tabFind s.chip.links.tags r.tag = none) (x : Ctx) :
    Chip.response x s.chip i = (s.chip.used i r).count fabFrame 4 1 := by
  simp only [Chip.response, held.delivered, held.consumed, freeing_tags, late]

/-- A response to an outstanding request answers it. -/
theorem response_answers {o : Outstanding} (issued : tabFind s.chip.links.tags r.tag = some o) (x : Ctx) :
    Chip.response x s.chip i =
      Chip.answered x { s.chip.used i r with links.tags := tabDel s.chip.links.tags r.tag } r.tag o.issuer (r.fld 7 1) (r.count % 256) := by
  simp only [Chip.response, held.delivered, held.consumed, freeing_tags, issued]

include h

/-- A RESPONSE by what its tag names. -/
theorem exec_response :
    (tabFind s.chip.links.tags r.tag = none → becomes (.response i) s (s.chip.used i r) ∧
      nextWith (exec (.response i) s) (fun t => s.chip.counted t.chip 0x00A 4 1)) ∧
    (∀ o, tabFind s.chip.links.tags r.tag = some o → o.issuer = .scalar →
      becomes (.response i) s { s.chip.used i r with links.tags := tabDel s.chip.links.tags r.tag }) ∧
    ∀ o id k, tabFind s.chip.links.tags r.tag = some o → o.issuer = .gather id → s.chip.runs id 0x72 k → k.stage = 1 → r.fld 7 1 ≠ 0 →
      (s.chip.event (k.fld 18 2)).waiters.contains id = false →
      nextWith (exec (.response i) s) (fun t => t.mem = s.mem ∧ s.chip.settles t.chip id (r.fld 7 1) (r.count % 256)) := by
  refine ⟨fun late => ?_, fun o issued scalar => ?_, fun o id k issued gather runs stage failed none => ?_⟩
  · have counts := response_late held late s.ctx
    refine ⟨becomes_reports h (f := fun x c => Chip.response x c i) rfl (counts ▸ count_reports _ _ _ _) ?_,
      ⟨_, onChip_just h (f := fun x c => Chip.response x c i) counts (count_staged _ _ _ _), count_counted (s.chip.used i r) 4 1⟩⟩
    rw [counts, count_staged]
    exact State.sound_unstaged h
  · have answers := response_answers held issued s.ctx
    rw [scalar] at answers
    refine becomes_reports h (f := fun x c => Chip.response x c i) rfl ?_ ?_ <;> rw [answers]
    · exact Chip.reports_refl _
    · exact State.sound_unstaged h
  · have sends : s.chip.Sends { s.chip.used i r with links.tags := tabDel s.chip.links.tags r.tag } := .links _ _
    have answers := response_answers held issued s.ctx
    rw [gather, answered_gather sends runs stage none failed] at answers
    exact ⟨_, onChip_just h (f := fun x c => Chip.response x c i) answers rfl, rfl, (sends.settles runs.1 (Chip.cmd?_id runs.1) _ _).between⟩

end

section

variable {s : State} {tag : Nat} {o : Outstanding} (h : s.sound) (issued : tabFind s.chip.links.tags tag = some o)

/-- The chip once a request has timed out: counted, and source 2 of VETCH_FAB fired. -/
def Chip.timedOut (c : Chip) (tag : Nat) : Chip :=
  (({ c with links.tags := tabDel c.links.tags tag } : Chip).count fabFrame 1 1).fire fabFrame 2

theorem timedOut_reports (c : Chip) (tag : Nat) : Chip.reports { c with links.tags := tabDel c.links.tags tag } (c.timedOut tag) :=
  Chip.reports_trans (count_reports _ _ _ _) (fire_reports _ _ _)

theorem timedOut_sends (c : Chip) (tag : Nat) : c.Sends (c.timedOut tag) :=
  ((Chip.Sends.links c _).trans (.count _ _ _ _)).trans (.fire _ _ _)

theorem timedOut_counted (c : Chip) (tag : Nat) : c.counted (c.timedOut tag) fabFrame 1 1 := by
  intro hn
  have fired := notice_sameCtr fabFrame_apart (n := 1) noticeDepth (e := .fire fabFrame 2) trivial
    (({ c with links.tags := tabDel c.links.tags tag } : Chip).count fabFrame 1 1)
  rw [Chip.timedOut, Chip.fire, fired.value]
  exact count_counted { c with links.tags := tabDel c.links.tags tag } 1 1 hn

theorem timedOut_raises (c : Chip) (tag : Nat) : ((c.timedOut tag).hdr fabFrame).irqRaw.getLsbD 2 = true := by
  rw [Chip.timedOut]
  exact fire_raises _ fabFrame (by decide)

include issued

theorem txnTimeout_early (early : s.chip.time < o.issuedAt + 1000 * max 1 s.chip.links.txnTimeout) (x : Ctx) :
    Chip.txnTimeout x s.chip tag = s.chip := by
  simp only [Chip.txnTimeout, issued, if_pos early]

theorem txnTimeout_due (due : o.issuedAt + 1000 * max 1 s.chip.links.txnTimeout ≤ s.chip.time) (x : Ctx) :
    Chip.txnTimeout x s.chip tag = Chip.answered x (s.chip.timedOut tag) tag o.issuer 0x12 1 := by
  simp only [Chip.txnTimeout, issued, if_neg (Nat.not_lt.mpr due), Chip.timedOut]

include h

/-- A TXN_TIMEOUT by its time and what issued the request. -/
theorem exec_txnTimeout :
    (s.chip.time < o.issuedAt + 1000 * max 1 s.chip.links.txnTimeout → becomesJust (.txnTimeout tag) s s.chip) ∧
    (o.issuedAt + 1000 * max 1 s.chip.links.txnTimeout ≤ s.chip.time → o.issuer = .scalar →
      becomes (.txnTimeout tag) s { s.chip with links.tags := tabDel s.chip.links.tags tag } ∧
      nextWith (exec (.txnTimeout tag) s) (fun t => (t.chip.hdr 0x00A).irqRaw.getLsbD 2 = true ∧ s.chip.counted t.chip 0x00A 1 1)) ∧
    ∀ id k, o.issuedAt + 1000 * max 1 s.chip.links.txnTimeout ≤ s.chip.time → o.issuer = .gather id → s.chip.runs id 0x72 k → k.stage = 1 →
      (s.chip.event (k.fld 18 2)).waiters.contains id = false →
      nextWith (exec (.txnTimeout tag) s) (fun t => t.mem = s.mem ∧ s.chip.settles t.chip id 0x12 1) := by
  have staged : (s.chip.timedOut tag).staged = s.chip.staged := (timedOut_sends s.chip tag).staged
  refine ⟨fun early => onChip_just h (f := fun x c => Chip.txnTimeout x c tag) (txnTimeout_early issued early s.ctx) rfl,
    fun due scalar => ?_, fun id k due gather runs stage none => ?_⟩
  · have ends := txnTimeout_due issued due s.ctx
    rw [scalar] at ends
    refine ⟨becomes_reports h (f := fun x c => Chip.txnTimeout x c tag) rfl (ends ▸ timedOut_reports s.chip tag)
        (ends ▸ staged.trans (State.sound_unstaged h)),
      ⟨_, onChip_just h (f := fun x c => Chip.txnTimeout x c tag) ends staged, timedOut_raises s.chip tag, timedOut_counted s.chip tag⟩⟩
  · have ends := txnTimeout_due issued due s.ctx
    rw [gather, answered_gather (timedOut_sends s.chip tag) runs stage none (by decide)] at ends
    exact ⟨_, onChip_just h (f := fun x c => Chip.txnTimeout x c tag) ends staged, rfl,
      ((timedOut_sends s.chip tag).settles runs.1 (Chip.cmd?_id runs.1) 0x12 1).between⟩

end

/-! ### The statement -/

/-- Settles O42: a response or a time-out answers the request of its tag, and a gather's failed piece ends the command. -/
theorem requestsEnd : Obligations.RequestsEnd :=
  ⟨fun _ _ _ h held => exec_response h held, fun _ _ _ h issued => exec_txnTimeout h issued⟩

end Sys2Proof.Machine
end

section
/-! SUPPORT. Requests of the fabric (R244-R246): WRITE, READ, ATOMIC and EVENT_SIGNAL, and the statement about them. -/

namespace Sys2Proof.Machine

/-! ### Answers (R243, R244) -/

/-- A consumed request is answered by its RESPONSE. -/
theorem respond_replies {c d : Chip} {i : Nat} {p : Packet} (used : d.links = c.freeing i p) (status : Nat) (data : List Byte) :
    d.respond p status 0 data = { d with links := c.reply i p status 0 data } := by
  obtain ⟨ports, frame⟩ := freeing_frame c i p
  have me : d.myId = c.myId := by rw [Chip.myId, used, frame, Chip.myId]
  simp only [Chip.respond, Chip.enqueuePacket, me, used, Chip.reply, Nat.zero_mod]
  rw [frame]

/-- A request whose work stages writes and is answered. -/
theorem onChip_replies {s : State} (h : s.sound) (calm : s.calm) {ins : Instr} {f : Ctx → Chip → Chip} (does : exec ins s = onChip f s)
    {i status : Nat} {p : Packet} {data : List Byte} {d : Chip} {ss : List Store} (answers : f s.ctx s.chip = d.respond p status 0 data)
    (work : (s.chip.used i p).Trained d ss) :
    nextWith (exec ins s) (fun t => t.mem = s.mem.commit ss ∧ t.fuse = s.fuse ∧ t.pending = s.pending ∧
      t.chip.links = s.chip.reply i p status 0 data ∧ t.chip.cmds = s.chip.cmds ∧ t.chip.events = s.chip.events) := by
  have links : d.links = s.chip.freeing i p := work.alike.same Chip.links fun _ => rfl
  have replied := answers.trans (respond_replies links status data)
  rw [does]
  refine (onChip_next f s _ (State.calm_ecc calm)).mpr ?_
  rw [State.sound_staged h, replied]
  exact ⟨congrArg s.mem.commit (work.staged.trans (congrArg (· ++ ss) (State.sound_unstaged h))), rfl, rfl, rfl,
    work.alike.same Chip.cmds fun _ => rfl, work.alike.same Chip.events fun _ => rfl⟩

/-! ### Poisoned lines (R246) -/

/-- The writes that poison lines. -/
def Chip.poisons (c : Chip) (fz : Fuses) (ls : List Nat) : List Store := ls.map (fun l => .health (c.key fz l / 64) .poison)

theorem poisons_trained (x : Ctx) (ls : List Nat) (c : Chip) :
    c.Trained (ls.foldl (fun c l => c.stage (.health (c.key x.fuse l / 64) .poison)) c) (c.poisons x.fuse ls) := by
  induction ls generalizing c with
  | nil => exact .of_drill rfl rfl
  | cons l ls ih =>
    have first : c.Trained (c.stage (.health (c.key x.fuse l / 64) .poison)) [.health (c.key x.fuse l / 64) .poison] := ⟨⟨rfl, fun _ => rfl⟩, rfl⟩
    exact first.trans (ih _)

/-- Poisoning lines changes no byte. -/
theorem commit_poisons_byte (c : Chip) (fz : Fuses) (ls : List Nat) (m : Memory) (j : Nat) : (m.commit (c.poisons fz ls)).byte j = m.byte j := by
  induction ls generalizing m with
  | nil => rfl
  | cons l ls ih => exact ih _

/-- The lines are poisoned. -/
theorem commit_poisons_health (c : Chip) (fz : Fuses) (ls : List Nat) {m : Memory} (hw : m.wf = true) (j : Nat)
    (bad : m.health j = .poison ∨ ∃ l ∈ ls, c.key fz l / 64 = j) : (m.commit (c.poisons fz ls)).health j = .poison := by
  induction ls generalizing m with
  | nil => exact bad.resolve_right fun ⟨_, hl, _⟩ => List.not_mem_nil hl
  | cons l ls ih =>
    refine ih (m := m.setHealth (c.key fz l / 64) .poison) (Memory.wf_setHealth hw _ _) ?_
    rw [Memory.health_setHealth hw]
    by_cases here : c.key fz l / 64 = j
    · exact .inl (if_pos here)
    · rw [if_neg here]
      exact bad.imp_right fun ⟨k, hk, hj⟩ => ⟨k, (List.mem_cons.mp hk).resolve_left fun e => here (e ▸ hj), hj⟩

/-! ### WRITE, READ and ATOMIC (R244) -/

section

variable {c : Chip} {x : Ctx} {env : Env} {i q : Nat} {p : Packet} (hl : x.mem.lines = []) (he : x.ecc = []) (hn : env.upsets = [])

/-- The writes of a WRITE: its data, and the poison of its lines where the packet is poisoned. -/
def Chip.writeStores (c : Chip) (fz : Fuses) (p : Packet) : List Store :=
  c.stagedOf fz [(p.addr, p.data)] ++ if p.poison then c.poisons fz (linesOf p.addr p.len) else []

/-- A WRITE is well formed (R243, R244). -/
abbrev Packet.writeOk (p : Packet) : Prop := (0 < p.len ∧ p.len ≤ 4096 ∧ p.rsvdBad false false = false) ∧ p.data.length = p.len

theorem Packet.writeOk.passes (ok : p.writeOk) : ¬ (p.len = 0 || 4096 < p.len || p.data.length ≠ p.len || p.rsvdBad false false) = true := by
  obtain ⟨⟨some, few, unreserved⟩, size⟩ := ok
  simp [unreserved, size, Nat.pos_iff_ne_zero.mp some, few]

include hl he hn

theorem reqWrite_writes (held : c.holdsPacket i 1 p) (ok : p.writeOk) (judged : c.judge p p.len true false = .inl q)
    (lets : c.dramLets q [(p.addr, p.len)] = true) :
    ∃ d, Chip.reqWrite x env c i = d.respond p 0 0 [] ∧ (c.used i p).Trained d (c.writeStores x.fuse p) := by
  unfold Chip.reqWrite
  simp only [held.delivered, if_neg ok.passes, judged, lets, Bool.not_true, Bool.false_eq_true, if_false, hn, Chip.upset_nil, held.consumed,
    upset_none, readLines_good x _ _ _ hl he]
  refine ⟨_, rfl, ?_⟩
  set opened := (partialLines p.addr p.len).foldl (fun c a => c.tierLine a false) (c.used i p)
  have opens : (c.used i p).Trained opened [] := .of_outputs (fz := x.fuse) (.quiets (fun c a => .tierLine c a false) _ _)
  have written : (c.used i p).Trained (opened.wr x p.addr p.data) (c.stagedOf x.fuse [(p.addr, p.data)]) := opens.outputs (.wr _ _ _ _)
  have poisoned : (c.used i p).Trained
      (if p.poison = true then
        (linesOf p.addr p.len).foldl (fun c l => c.stage (.health (c.key x.fuse l / 64) .poison)) (opened.wr x p.addr p.data)
        else opened.wr x p.addr p.data) (c.writeStores x.fuse p) := by
    unfold Chip.writeStores
    split
    · have keys : (opened.wr x p.addr p.data).poisons x.fuse (linesOf p.addr p.len) = c.poisons x.fuse (linesOf p.addr p.len) := by
        have same (a : Nat) : (opened.wr x p.addr p.data).key x.fuse a = c.key x.fuse a := written.alike.key x.fuse a
        simp only [Chip.poisons, same]
      exact written.trans (keys ▸ poisons_trained x _ _)
    · exact (List.append_nil (c.stagedOf x.fuse [(p.addr, p.data)])).symm ▸ written
  exact (poisoned.then_quiet (.tierWrites _ _)).then_quiet (.dramCharge _ _ _)

theorem reqRead_reads (held : c.holdsPacket i 2 p) (ok : 0 < p.len ∧ p.len ≤ 4096 ∧ p.rsvdBad false false = false)
    (judged : c.judge p p.len false false = .inl q) (lets : c.dramLets q [(p.addr, p.len)] = true) :
    ∃ d, Chip.reqRead x env c i = d.respond p 0 0 (c.rdBytes x p.addr p.len) ∧ (c.used i p).Trained d [] := by
  obtain ⟨some, few, unreserved⟩ := ok
  have passes : ¬ (p.len = 0 || 4096 < p.len || p.rsvdBad false false) = true := by simp [unreserved, Nat.pos_iff_ne_zero.mp some, few]
  unfold Chip.reqRead
  simp only [held.delivered, if_neg passes, judged, lets, Bool.not_true, Bool.false_eq_true, if_false, hn, Chip.upset_nil, held.consumed, upset_none,
    readRuns_good x _ _ _ hl he]
  refine ⟨_, rfl, ?_⟩
  exact (Chip.Trained.of_outputs (fz := x.fuse) (.tierReads _ _)).then_quiet (.dramCharge _ _ _)

theorem reqAtomic_swaps (held : c.holdsPacket i 3 p) (long : p.len = 16) (size : p.data.length = 16) (op : p.fld 7 1 < 4) (aligned : p.addr % 8 = 0)
    (unreserved : p.rsvdBad false false = false) (judged : c.judge p 8 true true = .inl q) (lets : c.dramLets q [(p.addr, 8)] = true) :
    let old := c.rdNat x p.addr 8
    ∃ d, Chip.reqAtomic x env c i = d.respond p 0 0 (leBytes 8 old) ∧ (c.used i p).Trained d (c.stagedOf x.fuse
      [(p.addr, leBytes 8 (atomicWord (p.fld 7 1) old (leNat (p.data.take 8)) (leNat (p.data.drop 8))))]) := by
  have passes : ¬ (p.len ≠ 16 || p.data.length ≠ 16 || 4 ≤ p.fld 7 1 || p.addr % 8 ≠ 0 || p.rsvdBad false false) = true := by
    simp [long, size, unreserved, op, aligned]
  unfold Chip.reqAtomic
  simp only [held.delivered, if_neg passes, judged, lets, Bool.not_true, Bool.false_eq_true, if_false, hn, Chip.upset_nil, held.consumed, upset_none,
    readRuns_good x _ _ _ hl he]
  refine ⟨_, rfl, ?_⟩
  have opens : (c.used i p).Trained ((c.used i p).tierReads [(p.addr, 8)]) [] := .of_outputs (fz := x.fuse) (.tierReads _ _)
  have written := opens.outputs (Chip.Outputs.wr _ x p.addr
    (leBytes 8 (atomicWord (p.fld 7 1) (c.rdNat x p.addr 8) (leNat (p.data.take 8)) (leNat (p.data.drop 8)))))
  exact (written.then_quiet (.tierWrites _ _)).then_quiet (.dramCharge _ _ _)

end

/-- The new word of an ATOMIC, by its operation (R244). -/
theorem atomicWord_cases (op old operand cmp : Nat) : atomicWord op old operand cmp =
    if op = 0 then (old + operand) % 2 ^ 64 else if op = 1 then operand else if op = 2 then (if old = cmp then operand else old)
    else max old operand := by
  match op with
  | 0 | 1 | 2 | _ + 3 => rfl

/-- What a WRITE stores reads as its data, and its lines are poisoned where the packet is. -/
theorem writeStores_stored {s t : State} (h : s.sound) {p : Packet} (hm : t.mem = s.mem.commit (s.chip.writeStores s.fuse p)) :
    s.stores t [(p.addr, p.data)] [] ∧
      (p.poison = true → ∀ l ∈ linesOf p.addr p.len, t.mem.health (s.chip.key s.fuse l / 64) = .poison) := by
  set m := s.mem.commit (s.chip.stagedOf s.fuse [(p.addr, p.data)])
  have memory : t.mem = m.commit (if p.poison then s.chip.poisons s.fuse (linesOf p.addr p.len) else []) := by
    rw [hm, Chip.writeStores, Memory.commit_append]
  constructor
  · have bytes (j : Nat) : t.mem.byte j = m.byte j := by
      rw [memory]
      split
      · exact commit_poisons_byte s.chip s.fuse _ m j
      · rfl
    have stored : s.stores { t with mem := m } [(p.addr, p.data)] [] := State.stores_commit h rfl
    simpa only [State.stores, bytes] using stored
  · intro poisoned l hl
    rw [memory, if_pos poisoned]
    exact commit_poisons_health s.chip s.fuse _ (Memory.wf_commit h.1 _) _ (.inr ⟨l, hl, rfl⟩)

/-! ### Refusals (R245) -/

/-- What judges a request refuses it as an address that nothing is at, or as one it may not use. -/
theorem judge_refuses {c : Chip} {p : Packet} {n : Nat} {write dramOnly : Bool} {why : Nat × Bool} (judged : c.judge p n write dramOnly = .inr why) :
    (c.region p.addr n = none → why = (1, false)) ∧ (c.region p.addr n ≠ none → why.1 = 2) := by
  unfold Chip.judge at judged
  split at judged
  next absent =>
    cases judged
    exact ⟨fun _ => rfl, fun there => absurd absent there⟩
  next k there =>
    refine ⟨fun absent => absurd (absent.symm.trans there) nofun, fun _ => ?_⟩
    dsimp only at judged
    split_ifs at judged
    · cases judged; rfl
    · split at judged <;> cases judged
      rfl

/-- A refused request is answered by its status. -/
theorem refuseReq_responds {c : Chip} {p : Packet} {n : Nat} {write dramOnly : Bool} {why : Nat × Bool}
    (judged : c.judge p n write dramOnly = .inr why) (d : Chip) :
    ∃ e, Chip.reports d e ∧ e.staged = d.staged ∧ d.refuseReq p why = e.respond p why.1 0 [] := by
  obtain ⟨absent, there⟩ := judge_refuses judged
  unfold Chip.refuseReq
  split
  next domain =>
    have status : why.1 = 2 := there fun none => by simp [absent none] at domain
    exact ⟨_, count_reports d fabFrame 5 1, count_staged d fabFrame 5 1, by rw [status, Chip.domainRefuse]⟩
  · exact ⟨d, Chip.reports_refl d, rfl, rfl⟩

theorem reqWrite_refused {c : Chip} {x : Ctx} {env : Env} {i : Nat} {p : Packet} {why : Nat × Bool} (held : c.holdsPacket i 1 p) (ok : p.writeOk)
    (judged : c.judge p p.len true false = .inr why) : Chip.reqWrite x env c i = (c.used i p).refuseReq p why := by
  simp only [Chip.reqWrite, held.delivered, if_neg ok.passes, judged, held.consumed]

/-! ### EVENT_SIGNAL (R244-R246) -/

/-- A signal that moves no waiter changes its entry alone. -/
theorem signal_alone {c : Chip} {x : Ctx} {i n : Nat} (clean : x.mem.lines = [])
    (hb : (c.putEvent i ((c.event i).signalled n)).blocked i) :
    let d := (c.signal x i n).1
    d.staged = c.staged ∧ d.cmds = c.cmds ∧ d.links = c.links ∧ d.events = (c.putEvent i ((c.event i).signalled n)).events := by
  have bumped : (c.signal x i n).1 = (c.bumpEvent i n).1.looked x i :=
    signal_blocked (by simp [clean]) hb
  obtain ⟨r, v, k, looks⟩ := looked_frame (c.bumpEvent i n).1 x i
  obtain ⟨keeps, -⟩ := bumpEvent_keeps c i n
  have links : (c.bumpEvent i n).1.links = c.links := Chip.reports_same (bumpEvent_reports c i n) Chip.links fun _ => rfl
  simp only [bumped, looks]
  exact ⟨keeps.staged, keeps.cmds, links, keeps.events⟩

section

variable {c : Chip} {i q : Nat} {p : Packet} {pt : Part} (held : c.holdsPacket i 5 p) (inside : p.addr < 2 ^ 16) (some : p.count ≠ 0)
  (empty : p.len = 0) (unreserved : p.rsvdBad true false = false) (owner : (c.event p.addr).owner = .some q) (part : c.part? q = .some pt)
  (given : p.domain ≠ 0) (domain : pt.domain = p.domain) (fabric : (c.event p.addr).fabric = true)

include held inside some empty unreserved owner part given domain fabric

theorem reqSignal_signals (x : Ctx) : Chip.reqSignal x c i = ((c.used i p).signal x p.addr p.count).1.respond p 0 0 [] := by
  have entry : p.addr % 2 ^ 16 = p.addr := Nat.mod_eq_of_lt inside
  have passes : ¬ (2 ^ 16 ≤ p.addr || p.count = 0 || p.len ≠ 0 || p.rsvdBad true false) = true := by
    simp [some, empty, unreserved]
    exact inside
  have event : (c.used i p).event p.addr = c.event p.addr := rfl
  have found : (c.used i p).part? q = .some pt := part
  simp only [Chip.reqSignal, held.delivered, held.consumed, entry, if_neg passes, event, owner, found, fabric, given, domain, ne_eq,
    not_false_eq_true, decide_true, Bool.and_self, Bool.not_true, Bool.false_eq_true, if_false]

end

/-! ### The statement -/

/-- Settles O40: each request is consumed, does its work on memory or on its entry, and is answered. -/
theorem fabricRequests : Obligations.FabricRequests := by
  unfold Obligations.FabricRequests
  intro s i env p h calm upsets
  refine ⟨?write, ?read, ?atomic, ?signal, ?refused⟩
  case write =>
    intro q held ok size judged lets
    obtain ⟨d, answers, work⟩ := reqWrite_writes calm.1 (State.calm_ecc calm) upsets held ⟨ok, size⟩ judged lets
    refine (onChip_replies h calm (f := fun x c => Chip.reqWrite x env c i) rfl answers work).imp
      fun t ⟨next, memory, fuse, pending, links, cmds, events⟩ => ⟨next, ?_⟩
    obtain ⟨stores, poison⟩ := writeStores_stored h memory
    exact ⟨fuse, pending, links, stores, cmds, events, poison⟩
  case read =>
    intro q held ok judged lets
    obtain ⟨d, answers, work⟩ := reqRead_reads calm.1 (State.calm_ecc calm) upsets held ok judged lets
    exact (onChip_replies h calm (f := fun x c => Chip.reqRead x env c i) rfl answers work).imp fun t ⟨next, memory, fuse, _, links, cmds, events⟩ =>
      ⟨next, memory, fuse, links, cmds, events⟩
  case atomic =>
    intro q held long size op aligned unreserved judged lets
    obtain ⟨d, answers, work⟩ := reqAtomic_swaps calm.1 (State.calm_ecc calm) upsets held long size op aligned unreserved judged lets
    refine (onChip_replies h calm (f := fun x c => Chip.reqAtomic x env c i) rfl answers work).imp
      fun t ⟨next, memory, fuse, _, links, cmds, events⟩ => ⟨next, ?_⟩
    rw [atomicWord_cases] at memory
    exact ⟨fuse, links, State.stores_commit h memory, cmds, events⟩
  case signal =>
    intro q pt held inside some empty unreserved owner part given domain fabric e v e' blocked
    have still : ((s.chip.used i p).putEvent p.addr (((s.chip.used i p).event p.addr).signalled p.count)).blocked p.addr :=
      (Chip.blocked_congr rfl rfl).mpr blocked
    obtain ⟨staged, cmds, links, events⟩ := signal_alone (x := s.ctx) calm.1 still
    have answers := (reqSignal_signals held inside some empty unreserved owner part given domain fabric s.ctx).trans
      (respond_replies (c := s.chip) links 0 [])
    have entries (j : Nat) := (Chip.event_congr events j).trans (Chip.event_putEvent _ p.addr j _)
    refine ⟨_, onChip_just h (f := fun x c => Chip.reqSignal x c i) answers staged, rfl, rfl, rfl, ?_, ?_, cmds⟩
    · exact (entries p.addr).trans (if_pos rfl)
    · exact fun j other => (entries j).trans (if_neg (Ne.symm other))
  case refused =>
    intro why held ok size judged
    obtain ⟨absent, there⟩ := judge_refuses judged
    obtain ⟨e, reports, staged, refuses⟩ := refuseReq_responds judged (s.chip.used i p)
    have links : e.links = s.chip.freeing i p := Chip.reports_same reports Chip.links fun _ => rfl
    have answers := ((reqWrite_refused (x := s.ctx) (env := env) held ⟨ok, size⟩ judged).trans refuses).trans (respond_replies links why.1 [])
    exact ⟨_, onChip_just h (f := fun x c => Chip.reqWrite x env c i) answers staged, rfl, rfl, fun none => congrArg Prod.fst (absent none), there⟩

end Sys2Proof.Machine
end

section
/-! SUPPORT. What the operations of one port change (R225-R228, R249), and the statement about training. -/

namespace Sys2Proof.Machine

/-! ### What a port's operations leave -/

/-- What a map of a table's values leaves of them, it leaves of each. -/
theorem tabGet_map_same {α β : Type} {f : Nat × α → Nat × α} {g : α → β} {i : Nat} (key : ∀ e, (f e).1 = e.1)
    (same : ∀ e : Nat × α, e.1 = i → g (f e).2 = g e.2) (d : α) (t : Tab α) : g (tabGet d (t.map f) i) = g (tabGet d t i) := by
  induction t with
  | nil => rfl
  | cons e t ih =>
    simp only [List.map_cons, tabGet, key]
    split
    next here => exact same e here
    · exact ih

/-- A port without the packets it has to send and the credit it has given. -/
def LinkPort.trunk (p : LinkPort) : LinkPort := { p with txQueue := [], crTotal := [] }

/-- `d` is `c` but for reports, a port, the shadows of the tables, and the packets and credit that the discards at the port change elsewhere;
a table error stands. -/
structure Chip.Shifts (n : Nat) (c d : Chip) : Prop where
  staged : d.staged = c.staged
  cmds : d.cmds = c.cmds
  time : d.time = c.time
  active : ∀ key, d.active key = c.active key
  others : ∀ m, m ≠ n → (d.link m).trunk = (c.link m).trunk
  err : (c.link n).tableErr = true → (d.link n).tableErr = true

namespace Chip.Shifts

variable {n : Nat}

theorem refl (c : Chip) : Chip.Shifts n c c := ⟨rfl, rfl, rfl, fun _ => rfl, fun _ _ => rfl, id⟩

theorem trans {a b c : Chip} (h : Chip.Shifts n a b) (k : Chip.Shifts n b c) : Chip.Shifts n a c :=
  ⟨k.staged.trans h.staged, k.cmds.trans h.cmds, k.time.trans h.time, fun key => (k.active key).trans (h.active key),
    fun m other => (k.others m other).trans (h.others m other), k.err ∘ h.err⟩

theorem foldl {α : Type} {g : Chip → α → Chip} (each : ∀ c a, Chip.Shifts n c (g c a)) (l : List α) (c : Chip) : Chip.Shifts n c (l.foldl g c) := by
  induction l generalizing c with
  | nil => exact refl c
  | cons a l ih => exact (each c a).trans (ih _)

/-- A port's operation may be done or not. -/
theorem ite {c d e : Chip} {b : Prop} [Decidable b] (h : Chip.Shifts n c d) (k : Chip.Shifts n c e) : Chip.Shifts n c (if b then d else e) := by
  split
  · exact h
  · exact k

/-- Reports and log entries. -/
theorem of_quiet {c d : Chip} (h : d.quiet = c.quiet) (staged : d.staged = c.staged) : Chip.Shifts n c d where
  staged := staged
  cmds := (congrArg Chip.cmds h :)
  time := (congrArg Chip.time h :)
  active key := (congrArg (fun b => Chip.active b key) h :)
  others m _ := (congrArg (fun b => (Chip.link b m).trunk) h :)
  err := (congrArg (fun b => (Chip.link b n).tableErr) h :).trans

theorem count (c : Chip) (f k j : Nat) : Chip.Shifts n c (c.count f k j) := of_quiet (count_reports c f k j).1 (count_staged c f k j)

theorem fire (c : Chip) (f src : Nat) : Chip.Shifts n c (c.fire f src) := of_quiet (fire_reports c f src).1 (fire_staged c f src)

theorem log (c : Chip) (f : Nat) (r : LogReq) : Chip.Shifts n c (c.log f r) := of_quiet (log_logs c f r).1 (log_fields c f r).2.1

/-- The port itself. -/
theorem put (c : Chip) {p : LinkPort} (err : (c.link n).tableErr = true → p.tableErr = true) : Chip.Shifts n c (c.putLink n p) where
  staged := rfl
  cmds := rfl
  time := rfl
  active _ := rfl
  others m other := by rw [Chip.link_putLink, if_neg (Ne.symm other)]
  err := by rw [Chip.link_putLink, if_pos rfl]; exact err

/-- Packets and credit of any port. -/
theorem flow (c : Chip) (m : Nat) (qs : Tab (List TxPacket)) (cr : List Nat) :
    Chip.Shifts n c (c.putLink m { c.link m with txQueue := qs, crTotal := cr }) where
  staged := rfl
  cmds := rfl
  time := rfl
  active _ := rfl
  others j _ := by
    rw [Chip.link_putLink]
    split
    next same => cases same; rfl
    · rfl
  err err := by
    rw [Chip.link_putLink]
    split
    next same => cases same; exact err
    · exact err

theorem freeFlits (c : Chip) (m vc k : Nat) : Chip.Shifts n c (c.freeFlits m vc k) := flow c m _ _

theorem freeFrom (c : Chip) (o : Option (Nat × Nat)) (k : Nat) : Chip.Shifts n c (c.freeFrom o k) :=
  match o with
  | none => refl c
  | some (m, vc) => freeFlits c m vc k

theorem dropArriving (c : Chip) (vc : Nat) : Chip.Shifts n c (c.dropArriving n vc) := by
  unfold Chip.dropArriving
  dsimp only
  split
  next m _ =>
    refine .trans (.trans (.trans ?_ (flow _ _ _ _)) (freeFlits _ _ _ _)) (count _ _ _ _)
    exact put c id
  · split
    · refine .trans (.trans ?_ (freeFlits _ _ _ _)) (count _ _ _ _)
      exact put c id
    · exact refl c

theorem forgetOrigins (c : Chip) : Chip.Shifts n c (c.forgetOrigins n) where
  staged := rfl
  cmds := rfl
  time := rfl
  active _ := rfl
  others m other := by
    unfold Chip.forgetOrigins Chip.link
    dsimp only
    refine tabGet_map_same (g := LinkPort.trunk) ?key ?same _ _
    case key => exact fun _ => rfl
    case same =>
      intro e here
      rw [if_neg (here ▸ other)]
      rfl
  err := by
    unfold Chip.forgetOrigins Chip.link
    dsimp only
    refine Eq.trans (tabGet_map_same (g := LinkPort.tableErr) ?key ?same _ _)
    case key => exact fun _ => rfl
    case same => exact fun _ _ => rfl

theorem discardPort (c : Chip) : Chip.Shifts n c (c.discardPort n) := by
  have drops : Chip.Shifts n c ((List.range 8).foldl (fun c v => c.dropArriving n v) c) := foldl (fun c v => dropArriving c v) _ c
  have frees (d : Chip) (l : List TxPacket) : Chip.Shifts n d (l.foldl (fun c q => c.freeFrom q.origin q.flits.length) d) :=
    foldl (fun c q => freeFrom c q.origin q.flits.length) l d
  unfold Chip.discardPort
  extract_lets d started e p
  have before : Chip.Shifts n c e := drops.trans (frees d started)
  clear_value e
  refine .trans ?_ (count _ _ _ _)
  refine .trans ?_ (forgetOrigins _)
  exact before.trans (put e id)

theorem tableErr (c : Chip) : Chip.Shifts n c (c.tableErr n) := by
  refine .trans ?_ (log _ _ _)
  exact put c fun _ => rfl

theorem beginReplay (c : Chip) (a : Nat) : Chip.Shifts n c (c.beginReplay n a) := by
  refine ite (refl c) (.trans (.trans ?_ (count _ _ _ _)) (log _ _ _))
  exact put c id

theorem leaveExchange (c : Chip) : Chip.Shifts n c (c.leaveExchange n) := by
  unfold Chip.leaveExchange
  dsimp only
  split
  · exact refl c
  · refine ite (.trans ?_ (beginReplay _ _)) (.trans (discardPort c) ?_)
    · exact put c id
    · refine put _ ?_
      dsimp only
      exact id

end Chip.Shifts

/-- `d` is `c` but for reports, shadows and what OVERCOMMIT says: no link changes. -/
structure Chip.Follows (c d : Chip) : Prop where
  shifts : ∀ n, Chip.Shifts n c d
  links : d.links = c.links

namespace Chip.Follows

theorem link {c d : Chip} (h : Chip.Follows c d) (m : Nat) : d.link m = c.link m := by
  rw [Chip.link, h.links, Chip.link]

theorem refl (c : Chip) : Chip.Follows c c := ⟨fun _ => .refl c, rfl⟩

theorem trans {a b c : Chip} (h : Chip.Follows a b) (k : Chip.Follows b c) : Chip.Follows a c :=
  ⟨fun n => (h.shifts n).trans (k.shifts n), k.links.trans h.links⟩

theorem ite {c d : Chip} {b : Prop} [Decidable b] (h : Chip.Follows c d) : Chip.Follows c (if b then d else c) := by
  split
  · exact h
  · exact refl c

theorem count (c : Chip) (f n k : Nat) : Chip.Follows c (c.count f n k) :=
  ⟨fun _ => .count c f n k, (congrArg Chip.links (count_reports c f n k).1 :)⟩

theorem fire (c : Chip) (f src : Nat) : Chip.Follows c (c.fire f src) := ⟨fun _ => .fire c f src, (congrArg Chip.links (fire_reports c f src).1 :)⟩

theorem log (c : Chip) (f : Nat) (r : LogReq) : Chip.Follows c (c.log f r) := ⟨fun _ => .log c f r, (congrArg Chip.links (log_logs c f r).1 :)⟩

/-- A shadow that drains leaves the active image. -/
theorem drainShadows (c : Chip) : Chip.Follows c c.drainShadows := by
  refine ⟨fun n => ⟨rfl, rfl, rfl, fun key => ?_, fun _ _ => rfl, id⟩, rfl⟩
  refine tabGet_map_same (g := Table.active) (fun e => ?_) (fun e _ => ?_) _ _ <;> split <;> rfl

theorem modPart (c : Chip) (p : Nat) (f : Part → Part) : Chip.Follows c (c.modPart p f) :=
  ⟨fun _ => ⟨rfl, rfl, rfl, fun _ => rfl, fun _ _ => rfl, id⟩, rfl⟩

theorem noteOvercommit (c : Chip) : Chip.Follows c c.noteOvercommit := by
  unfold Chip.noteOvercommit
  generalize c.overcommitted = isOver
  refine foldl_invariant (fun _ d => Chip.Follows c d) (refl c) (fun _ e d before => before.trans ?_) c.parts
  exact (modPart d e.1 _).trans (ite (fire _ _ _))

end Chip.Follows

/-! ### Entering a state (R225, R226) -/

/-- The entry of a state in the active bank of the state table. -/
def Chip.stateEntry (c : Chip) (i : Nat) : List Byte :=
  match c.active (tableKey 6 16 0) with
  | some im => im.entry 32 i
  | none => List.replicate 32 0

/-- A port enters a state, or state 0 where its entry has a reserved value; its timer restarts, and the other ports stand. -/
structure Chip.Enters (n i : Nat) (c d : Chip) : Prop where
  shifts : Chip.Shifts n c d
  state : (d.link n).state = if entryBad (c.stateEntry i) then 0 else i
  since : (d.link n).enteredAt = c.time

/-- What is done before changes neither the entry nor the time. -/
theorem Chip.Enters.after {n i : Nat} {b c d : Chip} (h : Chip.Enters n i c d) (before : Chip.Shifts n b c) : Chip.Enters n i b d := by
  refine ⟨before.trans h.shifts, h.state.trans ?_, h.since.trans before.time⟩
  rw [Chip.stateEntry, before.active, Chip.stateEntry]

/-- A port put, and what follows it. -/
theorem enters_of_put {n i : Nat} {c b d : Chip} {p : LinkPort} (before : Chip.Shifts n c b) (follows : Chip.Follows (b.putLink n p) d)
    (state : p.state = if entryBad (c.stateEntry i) then 0 else i) (since : p.enteredAt = b.time)
    (err : (b.link n).tableErr = true → p.tableErr = true) : Chip.Enters n i c d := by
  have put : d.link n = p := by rw [Chip.link, follows.links, ← Chip.link, Chip.link_putLink, if_pos rfl]
  exact ⟨(before.trans (.put b err)).trans (follows.shifts n), put ▸ state, put ▸ since.trans before.time⟩

theorem enterState_enters (c : Chip) (n i : Nat) : Chip.Enters n i c (c.enterState n i) := by
  unfold Chip.enterState
  dsimp only
  refine enters_of_put (b := ?b) (p := ?p) ?before ?follows ?state ?since ?err
  case follows =>
    refine .trans ?_ (.noteOvercommit _)
    refine .trans ?_ (.ite (.trans (.log _ _ _) (.fire _ _ _)))
    refine .trans ?_ (.ite (.trans (.log _ _ _) (.fire _ _ _)))
    refine .trans ?_ (.ite (.fire _ _ _))
    refine .trans ?_ (.ite (.trans (.count _ _ _ _) (.fire _ _ _)))
    exact .drainShadows _
  case before => exact .trans (.ite (.tableErr c) (.refl c)) (.ite (.discardPort _) (.refl _))
  case state => rfl
  case since => rfl
  case err => exact id

/-! ### One evaluation of a state, and its timeout (R225, R226) -/

/-- What a port sees of its lanes leaves its state, its entry, its timer and its errors. -/
theorem LinkPort.seen_frame (p : LinkPort) (act : Nat) (w : LaneView) :
    (p.seen act w).state = p.state ∧ (p.seen act w).entry = p.entry ∧ (p.seen act w).enteredAt = p.enteredAt ∧
      (p.seen act w).tableErr = p.tableErr := by
  unfold LinkPort.seen
  dsimp only
  split_ifs <;> exact ⟨rfl, rfl, rfl, rfl⟩

/-- Its entry is the one it acts by (R226). -/
theorem portRaw_seen (c : Chip) (p : LinkPort) (act : Nat) (w : LaneView) : c.portRaw (p.seen act w) = c.portRaw p := by
  obtain ⟨state, entry, -, -⟩ := p.seen_frame act w
  unfold Chip.portRaw
  rw [state, entry]

/-- What a port sees, with the width that an alignment state chooses (R227). -/
theorem LinkPort.seen_eq (p : LinkPort) (act : Nat) (w : LaneView) : p.seen act w =
    let lanes := w.locked % 256
    let u : LinkPort := { p with signalLost := w.signal &&& p.usedLanes ≠ p.usedLanes, lanes := if act = 0 then 0 else lanes }
    if act = 3 then { u with width := if lanes = 0xFF then 8 else 0, reversed := w.reversed }
    else if act ≠ 4 then u
    else if lanes % 16 = 0xF then { u with half := 0x0F, width := 4, reversed := w.reversed }
    else if lanes / 16 = 0xF then { u with half := 0xF0, width := 4, reversed := w.reversed }
    else { u with width := 0 } := by
  unfold LinkPort.seen
  by_cases align : act = 4 <;> simp [align]

/-- A port as it sees its lanes in its state. -/
def Chip.looking (c : Chip) (n : Nat) (v : LaneView) : LinkPort := (c.link n).seen (c.portAction (c.link n)) (c.laneView v)

theorem looking_shifts (c : Chip) (n : Nat) (v : LaneView) : Chip.Shifts n c (c.putLink n (c.looking n v)) := by
  obtain ⟨-, -, -, err⟩ := (c.link n).seen_frame (c.portAction (c.link n)) (c.laneView v)
  exact .put c err.trans

section

variable {c : Chip} {n : Nat} (v : LaneView) (port : n < 24)

/-- The port leaves its state: a bad entry for state 0 with the error kept, a good one for the state named. -/
theorem Chip.Enters.of_bad : Chip.Enters n 0 c (((c.putLink n (c.looking n v)).tableErr n).enterState n 0) ∧
    ((((c.putLink n (c.looking n v)).tableErr n).enterState n 0).link n).tableErr = true := by
  have enters := enterState_enters ((c.putLink n (c.looking n v)).tableErr n) n 0
  have erred : (((c.putLink n (c.looking n v)).tableErr n).link n).tableErr = true := by
    have put : (((c.putLink n (c.looking n v)).tableErr n).link n).tableErr =
        ((((c.putLink n (c.looking n v)).putLink n { (c.putLink n (c.looking n v)).link n with tableErr := true }).link n).tableErr) :=
      (congrArg (fun b => (Chip.link b n).tableErr) (log_logs _ _ _).1 :)
    rw [put, Chip.link_putLink, if_pos rfl]
  exact ⟨enters.after ((looking_shifts c n v).trans (.tableErr _)), enters.shifts.err erred⟩

/-- A port whose EXCHANGE has agreed leaves it before it enters the next state (R228). -/
theorem Chip.Enters.of_next (b : Bool) (i : Nat) : Chip.Enters n i c
    ((if b then (c.putLink n (c.looking n v)).leaveExchange n else c.putLink n (c.looking n v)).enterState n i) :=
  (enterState_enters _ n i).after ((looking_shifts c n v).trans (.ite (.leaveExchange _) (.refl _)))

include port

theorem evalPort_bad (bad : entryBad (c.portRaw (c.link n)) = true) :
    c.evalPort n v = ((c.putLink n (c.looking n v)).tableErr n).enterState n 0 := by
  have raw : entryBad ((c.putLink n (c.looking n v)).portRaw (c.looking n v)) = true := (congrArg entryBad (portRaw_seen c _ _ _)).trans bad
  exact (if_neg (Nat.not_le.mpr port)).trans (if_pos raw)

theorem evalPort_good (good : entryBad (c.portRaw (c.link n)) = false) : c.evalPort n v =
    match (c.looking n v).next (c.portEntry (c.link n)) c.time (c.laneView v) with
    | none => c.putLink n (c.looking n v)
    | some (_, i) => (if c.portAction (c.link n) = 5 && (c.looking n v).agreed then (c.putLink n (c.looking n v)).leaveExchange n
        else c.putLink n (c.looking n v)).enterState n i := by
  have raw : ¬ entryBad ((c.putLink n (c.looking n v)).portRaw (c.looking n v)) = true := by
    rw [show (c.putLink n (c.looking n v)).portRaw (c.looking n v) = c.portRaw (c.link n) from portRaw_seen c _ _ _, good]
    exact Bool.false_ne_true
  exact (if_neg (Nat.not_le.mpr port)).trans (if_neg raw)

theorem portTimeout_bad (bad : entryBad (c.portRaw (c.link n)) = true) :
    c.portTimeout n v = ((c.putLink n (c.looking n v)).tableErr n).enterState n 0 := by
  have raw : (decide (n < 24) && entryBad (c.portRaw (c.looking n v))) = true := by
    rw [show c.portRaw (c.looking n v) = c.portRaw (c.link n) from portRaw_seen c _ _ _, bad, decide_eq_true port]
    rfl
  exact if_pos raw

theorem portTimeout_good (good : entryBad (c.portRaw (c.link n)) = false) : c.portTimeout n v =
    if entryFld (c.portEntry (c.link n)) 4 4 = 0 ∨ c.time < (c.link n).enteredAt + 1000 * entryFld (c.portEntry (c.link n)) 4 4 ∨
      (c.looking n v).next (c.portEntry (c.link n)) c.time (c.laneView v) ≠ none then c
    else (if c.portAction (c.link n) = 5 && (c.looking n v).agreed then (c.putLink n (c.looking n v)).leaveExchange n
        else c.putLink n (c.looking n v)).enterState n (entryFld (c.portEntry (c.link n)) 8 1) := by
  have raw : ¬ (decide (n < 24) && entryBad (c.portRaw (c.looking n v))) = true := by
    rw [show c.portRaw (c.looking n v) = c.portRaw (c.link n) from portRaw_seen c _ _ _, good, Bool.and_false]
    exact Bool.false_ne_true
  have since : (c.looking n v).enteredAt = (c.link n).enteredAt := ((c.link n).seen_frame _ _).2.2.1
  refine (if_neg raw).trans (if_congr ?_ rfl rfl)
  rw [← since, ← Option.isSome_iff_ne_none]
  simp [Nat.not_le.mpr port, or_assoc, Chip.looking, Chip.portAction]

end

/-! ### The statement -/

theorem Chip.whenLinked_on {c : Chip} (on : c.linkOn = true) (f : Chip → Chip) : c.whenLinked f = f c := if_pos on

/-- An operation of the links, while they are supplied, that stages nothing. -/
theorem onChip_linked {s : State} (h : s.sound) (on : s.chip.linkOn = true) {ins : Instr} {f : Chip → Chip}
    (does : exec ins s = onChip (fun _ c => c.whenLinked f) s) {d : Chip} (hd : f s.chip = d) (staged : d.staged = s.chip.staged) :
    becomesJust ins s d :=
  does.trans (onChip_just h ((Chip.whenLinked_on on f).trans hd) staged)

/-- What a port that enters a state makes of the state. -/
theorem nextWith_enters {s : State} (h : s.sound) (on : s.chip.linkOn = true) {ins : Instr} {f : Chip → Chip}
    (does : exec ins s = onChip (fun _ c => c.whenLinked f) s) {n i : Nat} (enters : Chip.Enters n i s.chip (f s.chip)) :
    nextWith (exec ins s) (fun t => (t.mem = s.mem ∧ t.fuse = s.fuse ∧ t.chip.cmds = s.chip.cmds ∧
      (t.chip.link n).state = (if entryBad ((s.chip.active (tableKey 6 16 0)).elim (List.replicate 32 0) (fun im => im.entry 32 i)) then 0 else i) ∧
      (t.chip.link n).enteredAt = s.chip.time ∧
      ∀ m, m ≠ n → { t.chip.link m with txQueue := [], crTotal := [] } = { s.chip.link m with txQueue := [], crTotal := [] }) ∧
      (t.chip.link n).tableErr = ((f s.chip).link n).tableErr) := by
  obtain ⟨shifts, state, since⟩ := enters
  have entry : (s.chip.active (tableKey 6 16 0)).elim (List.replicate 32 0) (fun im => im.entry 32 i) = s.chip.stateEntry i := by
    unfold Chip.stateEntry
    cases s.chip.active (tableKey 6 16 0) <;> rfl
  exact ⟨_, onChip_linked h on does rfl shifts.staged, ⟨rfl, rfl, shifts.cmds, state.trans (by rw [entry]), since, shifts.others⟩, rfl⟩

/-- A port that goes on looking changes nothing else. -/
theorem evalPort_stays {c : Chip} {n : Nat} {v : LaneView} (port : n < 24) (good : entryBad (c.portRaw (c.link n)) = false)
    (none : (c.looking n v).next (c.portEntry (c.link n)) c.time (c.laneView v) = none) : c.evalPort n v = c.putLink n (c.looking n v) := by
  rw [evalPort_good v port good, none]

theorem evalPort_enters {c : Chip} {n : Nat} {v : LaneView} (port : n < 24) (good : entryBad (c.portRaw (c.link n)) = false) {k i : Nat}
    (next : (c.looking n v).next (c.portEntry (c.link n)) c.time (c.laneView v) = some (k, i)) : Chip.Enters n i c (c.evalPort n v) := by
  rw [evalPort_good v port good, next]
  exact .of_next v _ i

/-! ### Replay timeout (R232) -/

/-- The sequence number before the oldest unacknowledged flit. -/
def LinkPort.before (p : LinkPort) : Nat := (p.replay.head?.map (fun f => (f.seq + 4095) % 4096)).getD 4095

/-- REPLAY_TIMEOUT starts the replay again unless it is not due or goes on. -/
theorem replayTimeout_eq (c : Chip) (n : Nat) : c.replayTimeout n =
    if (c.link n).replay = [] ∨ (c.link n).idleAck < (c.link n).retryCfg / 65536 ∨
      ((c.link n).replayAt ≠ none ∧ (c.link n).replayFrom = (c.link n).before) then c
    else (c.putLink n { c.link n with idleAck := 0 }).beginReplay n (c.link n).before := by
  have before : (((c.link n).replay.head?.map (fun f => f.seq)).getD 0 + 4095) % 4096 = (c.link n).before := by
    unfold LinkPort.before
    cases (c.link n).replay <;> rfl
  unfold Chip.replayTimeout
  simp only [before, Bool.or_eq_true, Bool.and_eq_true, List.isEmpty_iff, decide_eq_true_eq, Option.isSome_iff_ne_none, or_assoc]

/-- A replay that starts again is reported, and changes its port alone. -/
theorem beginReplay_follows {c : Chip} {n : Nat} (holds : (c.link n).replay ≠ []) (a : Nat) :
    Chip.Follows (c.putLink n { c.link n with
      replayAt := some 0, replayFrom := a, consec := (c.link n).consec + flagNat (c.link n).replayed, replayed := true }) (c.beginReplay n a) := by
  unfold Chip.beginReplay
  rw [if_neg (by simpa using holds)]
  exact .trans (.count _ _ _ _) (.log _ _ _)

/-- The timeout starts it again from the oldest flit. -/
theorem beginReplay_again {c : Chip} {n : Nat} (holds : (c.link n).replay ≠ []) (a : Nat) :
    Chip.Follows ((c.putLink n { c.link n with idleAck := 0 }).putLink n { c.link n with
      replayAt := some 0, replayFrom := a, consec := (c.link n).consec + flagNat (c.link n).replayed, replayed := true, idleAck := 0 })
      ((c.putLink n { c.link n with idleAck := 0 }).beginReplay n a) := by
  have port : (c.putLink n { c.link n with idleAck := 0 }).link n = { c.link n with idleAck := 0 } := by rw [Chip.link_putLink, if_pos rfl]
  have replays := beginReplay_follows (c := c.putLink n { c.link n with idleAck := 0 }) (n := n) (by rw [port]; exact holds) a
  rw [port] at replays
  exact replays

/-- Settles O47: the port's own operations leave the other ports but for what a discard takes from them, so the table alone decides. -/
theorem linkTraining : Obligations.LinkTraining := by
  unfold Obligations.LinkTraining
  intro s n v h on port c p e w act lanes u p' entry moved bad
  have looks : p' = c.looking n v := ((c.link n).seen_eq act w).symm
  refine ⟨?bad, ?eval, ?timeout, ?replay, ?early, ?window⟩
  case bad =>
    intro hbad i hi
    obtain ⟨enters, err⟩ := Chip.Enters.of_bad (c := c) (n := n) v
    rcases List.mem_pair.mp hi with rfl | rfl
    · rw [← evalPort_bad v port hbad] at enters err
      exact (nextWith_enters h on (f := fun c => c.evalPort n v) rfl enters).imp fun t ⟨next, moves, same⟩ => ⟨next, moves, same.trans err⟩
    · rw [← portTimeout_bad v port hbad] at enters err
      exact (nextWith_enters h on (f := fun c => c.portTimeout n v) rfl enters).imp fun t ⟨next, moves, same⟩ => ⟨next, moves, same.trans err⟩
  case eval =>
    intro good
    rw [looks]
    refine ⟨fun none => onChip_linked h on (f := fun c => c.evalPort n v) rfl (evalPort_stays port good none) rfl, fun k i next => ?_⟩
    exact (nextWith_enters h on (f := fun c => c.evalPort n v) rfl (evalPort_enters port good next)).imp fun t ⟨next, moves, _⟩ => ⟨next, moves⟩
  case timeout =>
    intro good us
    rw [looks]
    refine ⟨fun stays => onChip_linked h on (f := fun c => c.portTimeout n v) rfl ((portTimeout_good v port good).trans (if_pos stays)) rfl,
      fun timed due none => ?_⟩
    have leaves := (portTimeout_good v port good).trans
      (if_neg (not_or.mpr ⟨timed, not_or.mpr ⟨Nat.not_lt.mpr due, not_not.mpr none⟩⟩))
    have enters : Chip.Enters n (entryFld e 8 1) c (c.portTimeout n v) := leaves ▸ .of_next v _ _
    exact (nextWith_enters h on (f := fun c => c.portTimeout n v) rfl enters).imp fun t ⟨next, moves, _⟩ => ⟨next, moves⟩
  case replay =>
    intro before going
    refine ⟨fun still => onChip_linked h on (f := fun c => c.replayTimeout n) rfl ((replayTimeout_eq c n).trans (if_pos still)) rfl,
      fun holds due off => ?_⟩
    have again := (replayTimeout_eq c n).trans (if_neg (not_or.mpr ⟨holds, not_or.mpr ⟨Nat.not_lt.mpr due, off⟩⟩))
    have follows := beginReplay_again holds before
    refine ⟨_, onChip_linked h on (f := fun c => c.replayTimeout n) rfl again (follows.shifts n).staged, rfl, ?_, fun m other => ?_⟩
    · exact (follows.link n).trans (by rw [Chip.link_putLink, if_pos rfl])
    · exact (follows.link m).trans (by rw [Chip.link_putLink, if_neg (Ne.symm other), Chip.link_putLink, if_neg (Ne.symm other)])
  case early => exact fun early => onChip_linked h on (f := fun c => c.fecWindow n) rfl (if_pos early) rfl
  case window => exact fun due => onChip_linked h on (f := fun c => c.fecWindow n) rfl (if_neg (Nat.not_lt.mpr due)) rfl

end Sys2Proof.Machine
end

section
/-! SUPPORT. Flits received and sent (R229-R231, R236-R238), packets routed (R240-R243), and the statement about them. -/

namespace Sys2Proof.Machine

/-! ### A port set, and reports -/

/-- `d` is `c` with a port at `q`, reports aside: the other ports, the tables, the pages and what is staged stand. -/
structure Chip.Puts (n : Nat) (q : LinkPort) (c d : Chip) : Prop where
  staged : d.staged = c.staged
  port : d.link n = q
  others : ∀ m, m ≠ n → d.link m = c.link m
  active : ∀ key, d.active key = c.active key
  idle : c.idlePages → d.idlePages

namespace Chip.Puts

variable {n : Nat} {q : LinkPort} {c d : Chip}

theorem start (n : Nat) (c : Chip) : Chip.Puts n (c.link n) c c := ⟨rfl, rfl, fun _ _ => rfl, fun _ => rfl, id⟩

theorem put (h : Chip.Puts n q c d) (r : LinkPort) : Chip.Puts n r c (d.putLink n r) where
  staged := h.staged
  port := by rw [Chip.link_putLink, if_pos rfl]
  others m other := by rw [Chip.link_putLink, if_neg (Ne.symm other), h.others m other]
  active := h.active
  idle := h.idle

theorem count (h : Chip.Puts n q c d) (f k j : Nat) : Chip.Puts n q c (d.count f k j) where
  staged := (count_staged d f k j).trans h.staged
  port := ((Chip.Follows.count d f k j).link n).trans h.port
  others m other := ((Chip.Follows.count d f k j).link m).trans (h.others m other)
  active key := (((Chip.Follows.count d f k j).shifts n).active key).trans (h.active key)
  idle pages fr := by
    have same : ((d.count f k j).hdr fr).kept = (d.hdr fr).kept := (count_reports d f k j).2.1 fr
    exact (congrArg (fun b : Header => b.pert.ctrl.getLsbD 31) same :).trans (h.idle pages fr)

/-- A port acts as before. -/
theorem portAction (h : Chip.Puts n q c d) (p : LinkPort) : d.portAction p = c.portAction p := by
  rw [Chip.portAction, Chip.portEntry, Chip.portRaw, h.active, Chip.portAction, Chip.portEntry, Chip.portRaw]

end Chip.Puts

/-! ### Receiving (R230, R231, R236) -/

section

variable {c : Chip} (idle : c.idlePages)

include idle

/-- With no perturbation armed, no flit is hit and no packet stored is (R417). -/
theorem armed_idle (fr kind : Nat) (p : Option Nat) : (c.hdr fr).pert.armed kind p = false := by
  rw [Pert.armed, idle, Bool.false_and, Bool.false_and, Bool.false_and]

theorem flitHit_idle (n : Nat) (f : Flit) : c.flitHit n f = none := by
  simp only [Chip.flitHit, armed_idle idle, Bool.false_and, Bool.false_eq_true, if_false]

theorem rxHit_idle (n : Nat) (onRead : Bool) : c.rxHit n onRead = none := by
  simp only [Chip.rxHit, armed_idle idle, Bool.false_and, Bool.false_eq_true, if_false]

theorem rxStored_idle (n : Nat) (i : Option Nat) : c.rxStored n i = c := by
  unfold Chip.rxStored
  rw [rxHit_idle idle]
  cases i <;> rfl

end

/-- A port once the codewords of a flit's time have been counted. -/
def Chip.worded (c : Chip) (n corr unc : Nat) : Chip :=
  ((c.count (linkFrame n) 4 corr).count (linkFrame n) 5 unc).putLink n { c.link n with ucw := (c.link n).ucw + unc }

theorem worded_puts (c : Chip) (n corr unc : Nat) : Chip.Puts n { c.link n with ucw := (c.link n).ucw + unc } c (c.worded n corr unc) :=
  (((Chip.Puts.start n c).count _ _ _).count _ _ _).put _

/-- A flit that arrives in an exchanging state: dropped with a NAK where it is bad, else its control fields are used, and a DATA flit is
accepted in sequence. -/
theorem flitReceive_idle {c : Chip} {n : Nat} (idle : c.idlePages) (port : n < 24)
    (act : c.portAction (c.link n) = 6 ∨ c.portAction (c.link n) = 7) (b : List Byte) (hit : Bool) (corr unc : Nat) :
    c.flitReceive n b hit corr unc =
      if hit || flitBad b then ((c.worded n corr unc).count (linkFrame n) 2 1).nakFlit n
      else
        let d := (c.worded n corr unc).useControl n (flitOfBytes b)
        if (flitOfBytes b).kind ≠ 1 then d
        else if (flitOfBytes b).seq = (d.link n).expected then d.acceptFlit n (flitOfBytes b)
        else if 1 ≤ ((d.link n).expected + 4096 - (flitOfBytes b).seq) % 4096 &&
          ((d.link n).expected + 4096 - (flitOfBytes b).seq) % 4096 ≤ 2047 then d
        else d.nakFlit n := by
  have counted := ((Chip.Puts.start n c).count (linkFrame n) 4 corr).count (linkFrame n) 5 unc
  have exchanging : ¬ c.portAction (c.link n) = 5 := by omega
  have exchanges : (decide (c.portAction (c.link n) = 6) || decide (c.portAction (c.link n) = 7)) = true := by simpa using act
  simp only [Chip.flitReceive, flitHit_idle idle, counted.port, Option.isSome_none, Bool.or_false, reduceCtorEq, decide_false, Bool.false_eq_true,
    if_false, flagNat, Nat.add_zero, Nat.not_le.mpr port]
  rw [← Chip.worded]
  simp only [(worded_puts c n corr unc).portAction, exchanging, if_false, if_pos exchanges]
  split_ifs <;> rfl

/-- A port that has dropped a flit: it owes a NAK, if none is pending (R230). -/
def LinkPort.nak (p : LinkPort) : LinkPort := if p.nakPending then p else { p with nakPending := true, sendNak := true }

theorem LinkPort.nak_ucw (p : LinkPort) (k : Nat) : ({ p with ucw := k } : LinkPort).nak = { p.nak with ucw := k } := by
  unfold LinkPort.nak
  dsimp only
  split <;> rfl

theorem nakFlit_puts {c d : Chip} {n : Nat} {q : LinkPort} (h : Chip.Puts n q c d) : Chip.Puts n q.nak c (d.nakFlit n) := by
  unfold Chip.nakFlit LinkPort.nak
  rw [h.port]
  dsimp only
  split
  · exact h
  · exact h.put _

/-- A port that has used the credit of a flit (R236). -/
def LinkPort.credited (p : LinkPort) (f : Flit) : LinkPort :=
  { p with
    credit := listSet p.credit f.crVc (p.credit.getD f.crVc 0 + ((f.crTotal + 8192 - p.peerCr.getD f.crVc 0 % 8192) % 8192 : Nat))
    peerCr := listSet p.peerCr f.crVc f.crTotal }

/-- A flit that neither acknowledges nor asks for a replay brings credit alone. -/
theorem useControl_puts {c d : Chip} {n : Nat} {q : LinkPort} (h : Chip.Puts n q c d) {f : Flit} (ack : f.ackValid = false) (nak : f.nak = false) :
    Chip.Puts n (q.credited f) c (d.useControl n f) := by
  unfold Chip.useControl
  rw [h.port]
  simp only [ack, nak, Bool.false_and, Bool.false_eq_true, if_false]
  exact h.put _

/-- A port that has accepted a DATA flit in sequence (R230). -/
def LinkPort.inStep (p : LinkPort) : LinkPort := { p with expected := (p.expected + 1) % 4096, nakPending := false, accepted := true }

@[simp] theorem LinkPort.inStep_cut (p : LinkPort) : p.inStep.cut = p.cut := rfl

@[simp] theorem LinkPort.inStep_rxQueue (p : LinkPort) : p.inStep.rxQueue = p.rxQueue := rfl

/-- The receive buffers once a flit has joined its packet. -/
def LinkPort.joined (p : LinkPort) (f : Flit) : List RxPacket :=
  p.rxQueue.map (fun r => if r.whole = false ∧ r.vc = f.vc then { r with flits := r.flits ++ [f.payload.take f.len], whole := f.eop } else r)

section

variable {c d : Chip} {n : Nat} {q : LinkPort} (h : Chip.Puts n q c d) (idle : c.idlePages) {f : Flit} (uncut : tabFind q.cut f.vc = none)

include h idle uncut

/-- A first flit begins its packet in the receive buffer (R236). -/
theorem acceptFlit_begins (sop : f.sop = true) (free : ∀ r ∈ q.rxQueue, r.whole = true ∨ r.vc ≠ f.vc) :
    Chip.Puts n { q.inStep with rxQueue := q.rxQueue ++ [{ vc := f.vc, flits := [f.payload.take f.len], whole := f.eop }] } c (d.acceptFlit n f) := by
  have accepted := (h.put q.inStep).count (linkFrame n) 1 1
  have stored := accepted.put { q.inStep with rxQueue := q.rxQueue ++ [{ vc := f.vc, flits := [f.payload.take f.len], whole := f.eop }] }
  have nothing : q.rxQueue.find? (fun r => !r.whole && r.vc = f.vc) = none := by
    rw [List.find?_eq_none]
    intro r hr
    rcases free r hr with gone | other
    · simp [gone]
    · simp [other]
  have dropped : ((d.putLink n q.inStep).count (linkFrame n) 1 1).dropArriving n f.vc = (d.putLink n q.inStep).count (linkFrame n) 1 1 := by
    simp only [Chip.dropArriving, accepted.port, LinkPort.inStep_cut, LinkPort.inStep_rxQueue, uncut, nothing]
  unfold Chip.acceptFlit
  rw [h.port]
  dsimp only
  rw [← LinkPort.inStep]
  simp only [sop, if_true, dropped, accepted.port, LinkPort.inStep_cut, LinkPort.inStep_rxQueue, uncut]
  exact (rxStored_idle (stored.idle idle) n _).symm ▸ stored

/-- A further flit joins its packet. -/
theorem acceptFlit_joins (sop : f.sop = false) (held : ∃ r ∈ q.rxQueue, r.whole = false ∧ r.vc = f.vc) :
    Chip.Puts n { q.inStep with rxQueue := q.joined f } c (d.acceptFlit n f) := by
  have accepted := (h.put q.inStep).count (linkFrame n) 1 1
  have stored := accepted.put { q.inStep with rxQueue := q.joined f }
  have some : q.rxQueue.any (fun r => !r.whole && r.vc = f.vc) = true := by
    obtain ⟨r, hr, partly, vc⟩ := held
    exact List.any_eq_true.mpr ⟨r, hr, by simp [partly, vc]⟩
  unfold Chip.acceptFlit
  rw [h.port]
  dsimp only
  rw [← LinkPort.inStep]
  simp only [sop, Bool.false_eq_true, if_false, accepted.port, LinkPort.inStep_cut, LinkPort.inStep_rxQueue, uncut, some,
    if_true, Bool.and_eq_true, Bool.not_eq_true', decide_eq_true_eq]
  exact (rxStored_idle (stored.idle idle) n _).symm ▸ stored

end

/-! ### Sending (R229, R231, R236, R237) -/

/-- A port sends a flit with its control fields (R229). -/
def Chip.emits (c : Chip) (n : Nat) (p : LinkPort) (f : Flit) : Chip := (c.putLink n (p.control f).2).send (.flit n (p.control f).1.bytes)

theorem emits_puts (c : Chip) (n : Nat) (p : LinkPort) (f : Flit) : Chip.Puts n (p.control f).2 c (c.emits n p f) := by
  obtain ⟨staged, put, others, active, idle⟩ := (Chip.Puts.start n c).put (p.control f).2
  exact ⟨staged, put, others, active, idle⟩

/-- With nothing to send, a port sends an IDLE flit. -/
theorem flitTransmit_idle {c : Chip} {n : Nat} (port : n < 24) (nothing : c.portAction (c.link n) = 7 ∨
    (c.portAction (c.link n) = 6 ∧ (c.link n).replayAt = none ∧ (c.link n).arbitrate = none)) :
    c.flitTransmit n = c.emits n (c.link n) idleFlit := by
  unfold Chip.flitTransmit
  rcases nothing with act | ⟨act, replayAt, none⟩
  · simp [Nat.not_le.mpr port, act, Chip.emits]
  · simp [Nat.not_le.mpr port, act, replayAt, none, Chip.emits]

/-- A port with a DATA flit to send sends it, and the receive buffer it leaves is free. -/
theorem flitTransmit_data {c : Chip} {n vc : Nat} {t : TxFlit} {p : LinkPort} {o : Option (Nat × Nat)} (port : n < 24)
    (act : c.portAction (c.link n) = 6) (replayAt : (c.link n).replayAt = none) (turn : (c.link n).arbitrate = some vc)
    (data : (c.link n).newData vc = some (t, p, o)) :
    c.flitTransmit n = ((c.emits n p t.flit).count (linkFrame n) 0 1).freeFrom o 1 := by
  unfold Chip.flitTransmit
  simp [Nat.not_le.mpr port, act, replayAt, turn, data, Chip.emits]

/-- A port that has taken the flit from its queue. -/
def LinkPort.took (p : LinkPort) (vc : Nat) (q : TxPacket) (qs : List TxPacket) (b : List Byte) (bs : List (List Byte)) : TxFlit × LinkPort :=
  let t : TxFlit := { seq := p.seq, vc := vc, sop := !q.started, eop := bs = [] ∧ q.more = 0, payload := b }
  (t, { p.turned vc (!q.started) with
    seq := (p.seq + 1) % 4096, replay := p.replay ++ [t], credit := listSet p.credit vc (p.credit.getD vc 0 - 1)
    txQueue := tabSet p.txQueue vc (if bs = [] ∧ q.more = 0 then qs else { q with flits := bs, started := true } :: qs) })

theorem newData_took {p : LinkPort} {vc : Nat} {q : TxPacket} {qs : List TxPacket} {b : List Byte} {bs : List (List Byte)}
    (queue : tabGet [] p.txQueue vc = q :: qs) (flits : q.flits = b :: bs) :
    p.newData vc = some ((p.took vc q qs b bs).1, (p.took vc q qs b bs).2, q.origin) := by
  have last : (bs.isEmpty && decide (q.more = 0)) = decide (bs = [] ∧ q.more = 0) := by cases bs <;> simp
  simp only [LinkPort.newData, queue, flits, last, decide_eq_true_eq, LinkPort.took]

/-- The turn of a VC changes no control field. -/
theorem control_took (p : LinkPort) (vc : Nat) (q : TxPacket) (qs : List TxPacket) (b : List Byte) (bs : List (List Byte)) (f : Flit) :
    ((p.took vc q qs b bs).2.control f).1 = (p.control f).1 := by
  unfold LinkPort.took LinkPort.turned LinkPort.control
  dsimp only
  split <;> rfl

/-- A freed flit returns its credit where it came from. -/
theorem freeFlits_link (c : Chip) (o v k m : Nat) : (c.freeFlits o v k).link m =
    if o = m then { c.link m with crTotal := listSet (c.link m).crTotal v (((c.link m).crTotal.getD v 0 + k) % 8192) } else c.link m := by
  unfold Chip.freeFlits
  rw [Chip.link_putLink]
  split
  next same => cases same; rfl
  · rfl

theorem freeFrom_frame (c : Chip) (o : Option (Nat × Nat)) (k : Nat) :
    (c.freeFrom o k).staged = c.staged ∧ (c.freeFrom o k).outbox = c.outbox ∧
      ∀ m, ∃ cr, (c.freeFrom o k).link m = { c.link m with crTotal := cr } := by
  match o with
  | none => exact ⟨rfl, rfl, fun m => ⟨(c.link m).crTotal, rfl⟩⟩
  | some (o, v) =>
    refine ⟨rfl, rfl, fun m => ?_⟩
    change ∃ cr, (c.freeFlits o v k).link m = _
    rw [freeFlits_link]
    split
    · exact ⟨_, rfl⟩
    · exact ⟨(c.link m).crTotal, rfl⟩

/-- A DATA flit sent: kept for replay, its credit spent, its queue one flit shorter. -/
theorem nextWith_transmits {s : State} (h : s.sound) (on : s.chip.linkOn = true) {n vc : Nat} {q : TxPacket} {qs : List TxPacket} {b : List Byte}
    {bs : List (List Byte)} (sends : s.chip.flitTransmit n = ((s.chip.emits n ((s.chip.link n).took vc q qs b bs).2
      ((s.chip.link n).took vc q qs b bs).1.flit).count (linkFrame n) 0 1).freeFrom q.origin 1) :
    nextWith (exec (.flitTransmit n) s) (fun t =>
      t.mem = s.mem ∧ Out.flit n ((s.chip.link n).control ((s.chip.link n).took vc q qs b bs).1.flit).1.bytes ∈ t.chip.outbox ∧
      (t.chip.link n).replay = (s.chip.link n).replay ++ [((s.chip.link n).took vc q qs b bs).1] ∧
      (t.chip.link n).seq = ((s.chip.link n).seq + 1) % 4096 ∧
      (t.chip.link n).credit = listSet (s.chip.link n).credit vc ((s.chip.link n).credit.getD vc 0 - 1) ∧
      tabGet [] (t.chip.link n).txQueue vc = (if bs = [] ∧ q.more = 0 then qs else { q with flits := bs, started := true } :: qs) ∧
      ∀ m, m ≠ n → t.chip.link m = (match q.origin with
        | some (o, v) =>
          let l := s.chip.link m
          if o = m then { l with crTotal := listSet l.crTotal v ((l.crTotal.getD v 0 + 1) % 8192) } else l
        | none => s.chip.link m)) := by
  set c := s.chip
  set p := c.link n
  set w := p.took vc q qs b bs
  set e := (c.emits n w.2 w.1.flit).count (linkFrame n) 0 1
  have puts : Chip.Puts n (w.2.control w.1.flit).2 c e := (emits_puts c n w.2 w.1.flit).count (linkFrame n) 0 1
  obtain ⟨staged, outbox, links⟩ := freeFrom_frame e q.origin 1
  obtain ⟨cr, port⟩ := links n
  rw [puts.port] at port
  have sent : Out.flit n (p.control w.1.flit).1.bytes ∈ e.outbox := by
    refine (count_grows _ _ _ _).outs _ ?_
    rw [← control_took p vc q qs b bs]
    exact List.mem_cons_self
  refine ⟨_, onChip_linked h on (f := fun c => c.flitTransmit n) rfl sends (staged.trans puts.staged), rfl, outbox ▸ sent, ?_, ?_, ?_, ?_, ?_⟩
  · exact congrArg LinkPort.replay port
  · exact congrArg LinkPort.seq port
  · exact congrArg LinkPort.credit port
  · refine (congrArg (fun l : LinkPort => tabGet [] l.txQueue vc) port).trans ?_
    exact (tabGet_tabSet [] p.txQueue vc vc _).trans (if_pos rfl)
  · intro m other
    have before := puts.others m other
    match q.origin with
    | none => exact before
    | some (o, v) => exact (freeFlits_link e o v 1 m).trans (by rw [before])

end Sys2Proof.Machine
end

section
/-! SUPPORT. Packets routed (R240-R243), and the statement about flits and packets. -/

namespace Sys2Proof.Machine

/-! ### Packets issued here (R240, R241) -/

/-- A packet that no partition is charged for goes first. -/
theorem packetRoute_issued {c : Chip} {p : Packet} {rest : List (Packet × Option Nat)} (first : c.links.out = (p, none) :: rest) (places : List Nat) :
    c.packetRoute none places = ({ c with links.out := rest } : Chip).routePacket p := by
  have next : pickOut (fun part => part.all (fun q => c.regLets q 2)) ((p, none) :: rest) [] 0 = some 0 := rfl
  simp only [Chip.packetRoute, first, next]
  rfl

theorem unreachable_staged (c : Chip) (p : Packet) (detail : Nat) : (c.unreachable p detail).staged = c.staged := by
  unfold Chip.unreachable
  split
  · exact count_staged _ _ _ _
  · exact (fire_staged _ _ _).trans (count_staged _ _ _ _)

theorem routePacket_staged (c : Chip) (p : Packet) : (c.routePacket p).staged = c.staged := by
  unfold Chip.routePacket
  dsimp only
  split_ifs
  · rfl
  · split
    · exact unreachable_staged c p 0
    · rfl

/-- A packet for this device is delivered. -/
theorem routePacket_here {c : Chip} {p : Packet} {r : Route} (route : c.routeTo p.dst = some r) (here : r.here = true) :
    c.routePacket p = { c with links.inbox := c.links.inbox ++ [p] } := by
  simp [Chip.routePacket, route, here]

/-- One for another device is queued at its output port. -/
theorem routePacket_queued {c : Chip} {p : Packet} {r : Route} {m : Nat} (route : c.routeTo p.dst = some r) (away : r.here = false)
    (port : c.routePort r p = some m) :
    c.routePacket p = c.queueAt m p.vc { flits := p.payloads, entering := true, started := false } := by
  simp [Chip.routePacket, route, away, port]

/-- A response without a route is counted and gone. -/
theorem routePacket_lost {c : Chip} {p : Packet} (route : c.routeTo p.dst = none) (response : p.type = 8) :
    c.routePacket p = c.count fabFrame 6 1 := by
  simp [Chip.routePacket, route, Chip.unreachable, response]

/-- A packet queued at a port stands last in its VC. -/
theorem queueAt_last (c : Chip) (m vc : Nat) (u : TxPacket) :
    tabGet [] ((c.queueAt m vc u).link m).txQueue vc = tabGet [] (c.link m).txQueue vc ++ [u] := by
  unfold Chip.queueAt
  rw [Chip.link_putLink, if_pos rfl]
  exact (tabGet_tabSet [] _ vc vc _).trans (if_pos rfl)

/-- It changes no receive buffer. -/
theorem queueAt_rxQueue (c : Chip) (m vc j : Nat) (u : TxPacket) : ((c.queueAt m vc u).link j).rxQueue = (c.link j).rxQueue := by
  unfold Chip.queueAt
  rw [Chip.link_putLink]
  split
  next same => cases same; rfl
  · rfl

/-! ### Packets received (R240-R243) -/

/-- An output port is chosen by the states of the ports alone. -/
theorem routePort_congr {c d : Chip} (active : ∀ key, d.active key = c.active key)
    (ports : ∀ m, (d.link m).state = (c.link m).state ∧ (d.link m).entry = (c.link m).entry) (r : Route) (p : Packet) :
    d.routePort r p = c.routePort r p := by
  have up : d.linkUp = c.linkUp := by
    funext m
    obtain ⟨state, entry⟩ := ports m
    rw [Chip.linkUp, Chip.portEntry, Chip.portRaw, state, entry, active, Chip.linkUp, Chip.portEntry, Chip.portRaw]
  rw [Chip.routePort, up, Chip.routePort]

/-- The chip without the first packet of a port's receive buffers. -/
def Chip.unqueued (c : Chip) (n : Nat) (qs : List RxPacket) : Chip := c.putLink n { c.link n with rxQueue := qs }

theorem unqueued_routePort (c : Chip) (n : Nat) (qs : List RxPacket) (r : Route) (p : Packet) :
    (c.unqueued n qs).routePort r p = c.routePort r p := by
  refine routePort_congr (c := c) (d := c.unqueued n qs) (fun _ => rfl) (fun m => ?_) r p
  unfold Chip.unqueued
  rw [Chip.link_putLink]
  split
  next same => cases same; exact ⟨rfl, rfl⟩
  · exact ⟨rfl, rfl⟩

/-- Its queues of packets to send stand. -/
theorem unqueued_txQueue (c : Chip) (n m : Nat) (qs : List RxPacket) : ((c.unqueued n qs).link m).txQueue = (c.link m).txQueue := by
  unfold Chip.unqueued
  rw [Chip.link_putLink]
  split
  next same => cases same; rfl
  · rfl

section

variable {c : Chip} {n : Nat} {q : RxPacket} {qs : List RxPacket} {r : Route} (idle : c.idlePages) (first : (c.link n).rxQueue = q :: qs)
  (whole : q.whole = true) (good : q.health = .good) (formed : q.wellFormed = true) (route : c.routeTo q.pkt.dst = some r)

include idle first whole good

/-- A whole and sound packet at the head of the receive buffers is routed. -/
theorem packetRoute_received : c.packetRoute (some n) [] = (c.unqueued n qs).routeRx n q := by
  have next : c.nextRx n = some 0 := by simp [Chip.nextRx, first, List.findIdx?_cons, whole]
  have unhit : (c.unqueued n qs).rxHit n true = none := rxHit_idle (c := c.unqueued n qs) idle n true
  have read : (c.unqueued n qs).readRx n q [] = (c.unqueued n qs).routeRx n q := by
    simp [Chip.readRx, unhit, good, Health.plus]
  simp only [Chip.packetRoute, next, first, List.getElem?_cons_zero, List.eraseIdx_cons_zero]
  exact read

include formed route

theorem packetRoute_delivers (here : r.here = true) : c.packetRoute (some n) [] = { c.unqueued n qs with
    links.inbox := c.links.inbox ++ [{ q.pkt with origin := if q.old then none else some (n, q.vc, q.flits.length) }] } := by
  have routed : (c.unqueued n qs).routeTo q.pkt.dst = some r := route
  rw [packetRoute_received idle first whole good]
  simp only [Chip.routeRx, formed, routed, Option.any_some, here, Bool.not_true, Bool.false_eq_true, if_false, if_true]
  rfl

theorem packetRoute_passes {m : Nat} (away : r.here = false) (hops : q.pkt.fld 6 1 ≠ 1) (port : c.routePort r q.pkt = some m) :
    c.packetRoute (some n) [] = (c.unqueued n qs).passOn n m q := by
  have routed : (c.unqueued n qs).routeTo q.pkt.dst = some r := route
  rw [packetRoute_received idle first whole good]
  simp only [Chip.routeRx, Chip.onward, formed, routed, Option.any_some, Option.bind_some, away, hops, unqueued_routePort, port, Bool.not_true,
    Bool.or_self, decide_false, Bool.false_eq_true, if_false]

end

/-! ### A packet passed on (R238, R240) -/

/-- The header with its hop limit one lower. -/
def Packet.hopped (p : Packet) : Nat := p.hdr.toNat - (if p.fld 6 1 = 0 then 0 else 2 ^ 48)

/-- The flits of a packet with another header. -/
def reheaded (hdr : Nat) : List (List Byte) → List (List Byte)
  | [] => []
  | b :: bs => (leBytes 32 hdr ++ b.drop 32) :: bs

theorem reheaded_frame (hdr : Nat) (fs : List (List Byte)) : (reheaded hdr fs).length = fs.length ∧ (reheaded hdr fs).drop 1 = fs.drop 1 := by
  cases fs <;> exact ⟨rfl, rfl⟩

/-- It carries the header and the data. -/
theorem packetOf_reheaded {hdr : Nat} (small : hdr < 2 ^ 256) {b : List Byte} (bs : List (List Byte)) (long : 32 ≤ b.length) :
    (packetOf (reheaded hdr (b :: bs))).hdr.toNat = hdr ∧ (packetOf (reheaded hdr (b :: bs))).data = (packetOf (b :: bs)).data := by
  have len : (leBytes 32 hdr).length = 32 := leBytes_length 32 hdr
  have value : leNat (leBytes 32 hdr) = hdr := leNat_leBytes 32 hdr (small.trans_le (by norm_num))
  constructor
  · simp only [packetOf, reheaded, List.flatten_cons, List.append_assoc, List.take_left' len, value, BitVec.toNat_ofNat, Nat.mod_eq_of_lt small]
  · simp only [packetOf, reheaded, List.flatten_cons, List.append_assoc, List.drop_left' len, List.drop_append_of_le_length long]

/-- The hop limit is one lower, unless it was 0; the destination stands. -/
theorem fld_hopped {p r : Packet} (hdr : r.hdr.toNat = p.hopped) : r.fld 6 1 = p.fld 6 1 - 1 ∧ r.dst = p.dst := by
  unfold Packet.dst Packet.fld
  by_cases zero : p.fld 6 1 = 0
  · rw [hdr, Packet.hopped, if_pos zero]
    unfold Packet.fld at zero
    exact ⟨by rw [Nat.sub_zero, zero], rfl⟩
  · rw [hdr, Packet.hopped, if_neg zero]
    unfold Packet.fld at zero
    norm_num at zero ⊢
    omega

/-- A whole packet passed on stands last at its output port, its hop limit one lower, in the place it came by. -/
theorem passOn_queues {c : Chip} {n m : Nat} {q : RxPacket} (whole : q.whole = true) :
    ∃ entering, c.passOn n m q = (c.count fabFrame 7 1).queueAt m q.vc
      { flits := reheaded q.pkt.hopped q.flits, entering := entering, started := false, more := 0
        origin := if q.old then none else some (n, q.vc) } := by
  have flits : (match q.flits with | [] => [] | b :: bs => (leBytes 32 q.pkt.hopped ++ b.drop 32) :: bs) = reheaded q.pkt.hopped q.flits := by
    cases q.flits <;> rfl
  refine ⟨decide (c.portGroup n 9 7 ≠ c.portGroup m 6 4), ?_⟩
  rw [← flits]
  unfold Chip.passOn
  simp only [whole, if_true]
  rfl

/-! ### The statement -/

/-- What a received flit makes of its port. -/
theorem nextWith_puts {s : State} (h : s.sound) (on : s.chip.linkOn = true) {ins : Instr} {f : Chip → Chip}
    (does : exec ins s = onChip (fun _ c => c.whenLinked f) s) {n : Nat} {q : LinkPort} (puts : Chip.Puts n q s.chip (f s.chip)) :
    nextWith (exec ins s) (fun t => t.mem = s.mem ∧ t.fuse = s.fuse ∧ t.chip.link n = q ∧ ∀ m, m ≠ n → t.chip.link m = s.chip.link m) :=
  ⟨_, onChip_linked h on does rfl puts.staged, rfl, rfl, puts.port, puts.others⟩

section

variable {c : Chip} {n : Nat} {b : List Byte} {hit : Bool} (corr unc : Nat) (idle : c.idlePages) (port : n < 24)
  (act : c.portAction (c.link n) = 6 ∨ c.portAction (c.link n) = 7)

include idle port act

theorem flitReceive_bad (bad : hit = true ∨ flitBad b = true) :
    Chip.Puts n { (c.link n).nak with ucw := (c.link n).ucw + unc } c (c.flitReceive n b hit corr unc) := by
  have receives := (flitReceive_idle idle port act b hit corr unc).trans (if_pos (by simpa using bad))
  rw [receives, ← LinkPort.nak_ucw]
  exact nakFlit_puts ((worded_puts c n corr unc).count (linkFrame n) 2 1)

section

variable (unhit : hit = false) (intact : flitBad b = false) (data : (flitOfBytes b).kind = 1) (ack : (flitOfBytes b).ackValid = false)
  (nak : (flitOfBytes b).nak = false)

include unhit intact data ack nak

/-- An intact DATA flit that acknowledges nothing, by its place in the sequence. -/
theorem flitReceive_good : ∃ d, Chip.Puts n ({ c.link n with ucw := (c.link n).ucw + unc }.credited (flitOfBytes b)) c d ∧
    ((flitOfBytes b).seq = (c.link n).expected → c.flitReceive n b hit corr unc = d.acceptFlit n (flitOfBytes b)) ∧
    ((flitOfBytes b).seq ≠ (c.link n).expected → ((c.link n).expected + 4096 - (flitOfBytes b).seq) % 4096 ≤ 2047 →
      ((c.link n).expected + 4096 - (flitOfBytes b).seq) % 4096 ≠ 0 → c.flitReceive n b hit corr unc = d) := by
  have uses := useControl_puts (worded_puts c n corr unc) ack nak
  have expected : (((c.worded n corr unc).useControl n (flitOfBytes b)).link n).expected = (c.link n).expected :=
    (congrArg LinkPort.expected uses.port :)
  have receives := flitReceive_idle idle port act b hit corr unc
  rw [if_neg (by simp [unhit, intact])] at receives
  simp only [data, expected, ne_eq, not_true, if_false] at receives
  refine ⟨_, uses, fun turn => receives.trans (if_pos turn), fun other few some => ?_⟩
  have again : (decide (1 ≤ ((c.link n).expected + 4096 - (flitOfBytes b).seq) % 4096) &&
      decide (((c.link n).expected + 4096 - (flitOfBytes b).seq) % 4096 ≤ 2047)) = true := by
    simp [few, Nat.one_le_iff_ne_zero, some]
  exact receives.trans ((if_neg other).trans (if_pos again))

end

end

/-- A packet passed on is queued with its hop limit one lower, and leaves its receive buffers. -/
theorem nextWith_passes {s : State} (h : s.sound) {n m : Nat} {q : RxPacket} {qs : List RxPacket} (whole : q.whole = true)
    (passes : s.chip.packetRoute (some n) [] = (s.chip.unqueued n qs).passOn n m q) :
    nextWith (exec (.packetRoute (some n) []) s) (fun t =>
      t.mem = s.mem ∧ t.chip.links.out = s.chip.links.out ∧ t.chip.links.inbox = s.chip.links.inbox ∧ (t.chip.link n).rxQueue = qs ∧
      ∃ u : TxPacket, tabGet [] (t.chip.link m).txQueue q.vc = tabGet [] (s.chip.link m).txQueue q.vc ++ [u] ∧
        u.flits.length = q.flits.length ∧ u.flits.drop 1 = q.flits.drop 1 ∧ u.started = false ∧ u.more = 0 ∧
        u.origin = (if q.old then none else some (n, q.vc)) ∧
        (∀ b bs, q.flits = b :: bs → 32 ≤ b.length →
          (packetOf u.flits).data = q.pkt.data ∧ (packetOf u.flits).fld 6 1 = q.pkt.fld 6 1 - 1 ∧ (packetOf u.flits).dst = q.pkt.dst)) := by
  obtain ⟨entering, queues⟩ := passOn_queues (c := s.chip.unqueued n qs) (n := n) (m := m) whole
  have counts : Chip.Follows (s.chip.unqueued n qs) ((s.chip.unqueued n qs).count fabFrame 7 1) := .count _ _ _ _
  obtain ⟨length, rest⟩ := reheaded_frame q.pkt.hopped q.flits
  have staged : ((s.chip.unqueued n qs).count fabFrame 7 1).staged = s.chip.staged := count_staged _ _ _ _
  refine ⟨_, onChip_just h (f := fun _ c => c.packetRoute (some n) []) (passes.trans queues) staged, rfl, ?out, ?inbox, ?buffers,
    { flits := reheaded q.pkt.hopped q.flits, entering := entering, started := false, more := 0, origin := if q.old then none else some (n, q.vc) },
    ?queued, length, rest, rfl, rfl, rfl, ?header⟩
  case out => exact (congrArg Links.out counts.links :)
  case inbox => exact (congrArg Links.inbox counts.links :)
  case buffers =>
    refine (queueAt_rxQueue _ m q.vc n _).trans ?_
    rw [counts.link, Chip.unqueued, Chip.link_putLink, if_pos rfl]
  case queued =>
    refine (queueAt_last _ m q.vc _).trans ?_
    rw [counts.link, unqueued_txQueue]
  case header =>
    intro b bs flits long
    have small : q.pkt.hopped < 2 ^ 256 := (Nat.sub_le _ _).trans_lt q.pkt.hdr.isLt
    obtain ⟨hdr, data⟩ := packetOf_reheaded small bs long
    rw [← flits] at hdr data
    obtain ⟨hops, dst⟩ := fld_hopped hdr
    exact ⟨data, hops, dst⟩

/-- Settles O48: a flit or packet changes its own port, the queue it joins and the buffer it leaves, and is reported besides. -/
theorem flitsAndPackets : Obligations.FlitsAndPackets := by
  unfold Obligations.FlitsAndPackets
  intro s n h calm on port c p act
  have idle : c.idlePages := Chip.unarmed_hdr calm.2
  refine ⟨?receive, ⟨?idle, ?data⟩, ?issued, ?received⟩
  case receive =>
    intro b hit corr unc exchanging f sent
    refine ⟨fun bad => nextWith_puts h on (f := fun c => c.flitReceive n b hit corr unc) rfl (flitReceive_bad corr unc idle port exchanging bad), ?_⟩
    intro unhit intact data ack nak u taken pl
    obtain ⟨d, uses, accepts, drops⟩ := flitReceive_good corr unc idle port exchanging unhit intact data ack nak
    refine ⟨fun turn sop whole free => ?_, fun turn sop whole held => ?_, fun other few some => ?_⟩
    · have puts := acceptFlit_begins uses idle whole sop free
      rw [← accepts turn] at puts
      exact nextWith_puts h on (f := fun c => c.flitReceive n b hit corr unc) rfl puts
    · have puts := acceptFlit_joins uses idle whole sop held
      rw [← accepts turn] at puts
      exact nextWith_puts h on (f := fun c => c.flitReceive n b hit corr unc) rfl puts
    · rw [← drops other few some] at uses
      exact nextWith_puts h on (f := fun c => c.flitReceive n b hit corr unc) rfl uses
  case idle =>
    intro nothing
    refine ⟨_, onChip_linked h on (f := fun c => c.flitTransmit n) rfl (flitTransmit_idle port nothing) rfl, rfl, List.mem_cons_self, ?_⟩
    have puts := (emits_puts c n p idleFlit).port
    exact ⟨(congrArg LinkPort.replay puts :), (congrArg LinkPort.seq puts :), (congrArg LinkPort.sendNak puts :)⟩
  case data =>
    intro vc q qs b bs data replayAt turn queue flits
    exact nextWith_transmits h on (flitTransmit_data port data replayAt turn (newData_took queue flits))
  case issued =>
    intro pkt rest first
    set d : Chip := { c with links.out := rest }
    have routes := packetRoute_issued first []
    refine ⟨_, onChip_just h (f := fun _ c => c.packetRoute none []) routes (routePacket_staged d pkt), rfl, rfl, ?_, ?_, ?_⟩
    · rintro ⟨r, route, here⟩
      exact congrArg Chip.links (routePacket_here (c := d) route here)
    · intro r m route away out
      have queued := routePacket_queued (c := d) route away out
      refine ⟨?_, ?_, ?_⟩
      · exact congrArg (fun b => b.links.out) queued
      · exact congrArg (fun b => b.links.inbox) queued
      · exact (congrArg (fun b => tabGet [] (Chip.link b m).txQueue pkt.vc) queued).trans (queueAt_last d m pkt.vc _)
    · intro route response
      exact (congrArg Chip.links (routePacket_lost (c := d) route response)).trans (Chip.Follows.count d fabFrame 6 1).links
  case received =>
    intro q qs r first whole good formed route
    refine ⟨fun here => ?_, fun m away hops out => ?_⟩
    · have delivers := packetRoute_delivers idle first whole good formed route here
      refine ⟨_, onChip_just h (f := fun _ c => c.packetRoute (some n) []) delivers rfl, rfl, rfl, ?_, rfl⟩
      exact (Chip.link_putLink c n n _).trans (if_pos rfl)
    · exact nextWith_passes h whole (packetRoute_passes idle first whole good formed route away hops out)

end Sys2Proof.Machine
end

section
/-! SUPPORT. Collective packets (R264, R265, R268, R273): partials at their stage slots, records and results at their gates, and the
statement about them. -/

namespace Sys2Proof.Machine

/-! ### What a partial finds in its slot (R268) -/

/-- The incoming area of a stage slot is empty in a gate at an epoch: it holds a partial of neither this epoch nor the next, or one that its
tile has used (R268). -/
def Stage.vacant (s : Stage) (now : Nat) : Prop := ∀ j, s.inc = some j → (j ≠ now ∧ j ≠ (now + 1) % 256) ∨ s.closed = some j

/-- Without LATE-FOLD a repeat is told from a partial for a vacant slot, and anything else is dropped (R268). -/
theorem arrival_strict {s : Stage} {now e : Nat} (turn : e = now ∨ e = (now + 1) % 256) :
    (s.inc = some e → s.arrival now false e = .duplicate) ∧
    (s.inc ≠ some e → s.vacant now → s.closed ≠ some e → s.arrival now false e = .stored) ∧
    (s.inc ≠ some e → ¬ s.vacant now ∨ s.closed = some e → s.arrival now false e = .dropped) := by
  have timely : (!(decide (e = now) || decide (e = (now + 1) % 256))) = false := by
    rcases turn with rfl | rfl <;> simp
  unfold Stage.arrival Stage.vacant
  simp only [Bool.false_and, Bool.false_eq_true, if_false, timely]
  refine ⟨fun again => if_pos again, fun fresh empty unclosed => ?_, fun fresh held => ?_⟩
  · rw [if_neg fresh]
    refine if_pos ?_
    cases inc : s.inc with
    | none => simpa using unclosed
    | some j => simpa [unclosed] using empty j inc
  · rw [if_neg fresh]
    refine if_neg fun free => ?_
    simp only [Bool.and_eq_true, decide_eq_true_eq] at free
    obtain ⟨empty, unclosed⟩ := free
    refine held.elim (fun full => full fun j inc => ?_) unclosed
    rw [inc] at empty
    simpa using empty

/-! ### REDUCE_ADD (R265, R268) -/

/-- A partial that passes the checks of R245 and R268 is delivered, for a slot of a group of a partition whose gate is not under LATE-FOLD. -/
structure Chip.HoldsPartial (c : Chip) (i : Nat) (r : Packet) (p : Nat) (q : Group) : Prop where
  held : c.holdsPacket i 4 r
  filled : 0 < r.len
  blocks : r.len % 34 = 0
  few : r.len ≤ 2176
  size : r.data.length = r.len
  unreserved : r.rsvdBad false true = false
  plain : r.coll < 2 ^ 28
  there : c.region r.addr r.len ≠ none
  part : c.reducePart r r.len = some p
  slot : c.slotMine p (r.coll % 256) = some q
  inside : q.holds r.addr = true
  aligned : (r.addr - q.stageBase) % 16384 = 0
  strict : (c.gate p).lateFold = false

/-- The blocks of a partial that fail their check (R69). -/
def Packet.mismatches (r : Packet) : Nat := (((chunks 34 (r.len / 34 + 1) r.data).map pb8OfBytes).filter Pb8.mismatch).length

theorem mismatches_zero {r : Packet} :
    r.mismatches = 0 ↔ ((chunks 34 (r.len / 34 + 1) r.data).map pb8OfBytes).all (fun b => !b.mismatch) = true := by
  simp [Packet.mismatches, List.filter_eq_nil_iff]

/-- The tile at a stage slot is told by the launches alone. -/
theorem tileAt_congr {c d : Chip} (launches : d.coll.launches = c.coll.launches) (a : Nat) : d.tileAt a = c.tileAt a := by
  rw [Chip.tileAt, launches, Chip.tileAt]

theorem tileAt_stored (c : Chip) (r : Packet) (slot : Stage) (a : Nat) : ((c.putStage a slot).respond r 0 0 []).tileAt a = c.tileAt a := rfl

section

variable {c : Chip} {i p : Nat} {r : Packet} {q : Group} (h : c.HoldsPartial i r p q)

include h

theorem Chip.HoldsPartial.unmarked : bitAt r.coll 28 = false := by
  have high : r.coll / 2 ^ 28 = 0 := Nat.div_eq_of_lt h.plain
  rw [bitAt, high]
  rfl

theorem Chip.HoldsPartial.wellFormed :
    (r.len = 0 || r.len % 34 ≠ 0 || 2176 < r.len || r.data.length ≠ r.len || r.rsvdBad false true || 2 ^ 29 ≤ r.coll) = false := by
  have small : decide (2 ^ 29 ≤ r.coll) = false := decide_eq_false (by have := h.plain; omega)
  rw [small]
  simp [h.blocks, h.few, h.size, h.unreserved, Nat.pos_iff_ne_zero.mp h.filled]

/-- What it finds in its slot tells what becomes of it: a repeat is answered, one that is dropped is counted too, and one that may be stored
is, if all its blocks pass their check and the regulators let it (R265, R268, R319). -/
theorem reduceAdd_arrives (x : Ctx) :
    let s := c.stageAt r.addr
    let e := bitField r.coll 27 20
    let finds := s.arrival ((c.gate p).epoch % 256) false e
    (finds = .duplicate → Chip.reduceAdd x c i = (c.used i r).respond r 0 0 []) ∧
    (finds = .dropped → Chip.reduceAdd x c i = ((c.used i r).dropColl p true).respond r 0 0 []) ∧
    (finds = .stored → r.mismatches ≠ 0 →
      Chip.reduceAdd x c i = ((c.used i r).count collFrame 2 r.mismatches).respond r 0x11 0 []) ∧
    (finds = .stored → r.mismatches = 0 → c.dramLets p [(r.addr, r.len)] = true → c.tileAt r.addr = none →
      ∃ d, Chip.reduceAdd x c i = (d.putStage r.addr { s with inc := some e }).respond r 0 0 [] ∧
        (c.used i r).Trained d (c.stagedOf x.fuse [(r.addr + 8256, r.data ++ List.replicate (2176 - r.len) 0)])) := by
  have known : (c.region r.addr r.len).isNone = false := Option.isNone_eq_false_iff.mpr (Option.isSome_iff_ne_none.mpr h.there)
  have used : c.consume i = c.used i r := h.held.consumed
  unfold Chip.reduceAdd
  simp only [h.held.delivered, h.unmarked, h.wellFormed, known, h.part, h.slot, h.inside, h.aligned, h.strict, used,
    ne_eq, not_true_eq_false, decide_false, Bool.not_true, Bool.or_self, Bool.false_eq_true, if_false]
  refine ⟨fun finds => by rw [finds], fun finds => by rw [finds], fun finds bad => ?_, fun finds good lets idle => ?_⟩
  · rw [finds]
    exact if_pos bad
  · rw [finds]
    set bytes := r.data ++ List.replicate (2176 - r.len) 0
    obtain ⟨d, made⟩ : ∃ d, d = ((((c.used i r).wr x (r.addr + 8256) bytes).tierWrites [(r.addr + 8256, bytes.length)]).dramCharge p
      [(r.addr + 8256, bytes.length)]).count collFrame 4 (((chunks 34 (r.len / 34 + 1) r.data).map pb8OfBytes).filter (fun b => b.nf)).length :=
      ⟨_, rfl⟩
    have work : (c.used i r).Trained d (c.stagedOf x.fuse [(r.addr + 8256, bytes)]) := by
      rw [made]
      exact (((Chip.Trained.of_outputs (.wr _ x _ bytes)).then_quiet (.tierWrites _ _)).then_quiet (.dramCharge _ _ _)).then_quiet (.count _ _ _ _)
    have alone : d.tileAt r.addr = none := (tileAt_congr (work.alike.same (fun b => b.coll.launches) fun _ => rfl) r.addr).trans idle
    refine ⟨d, ?_, work⟩
    unfold Packet.mismatches at good
    dsimp only
    rw [if_neg (not_not_intro good), lets, if_neg (by simp), ← made, tileAt_stored, alone]

end

theorem dropColl_reports (c : Chip) (p : Nat) (late : Bool) : Chip.reports c (c.dropColl p late) ∧ (c.dropColl p late).staged = c.staged := by
  unfold Chip.dropColl
  split
  · exact ⟨count_reports _ _ _ _, count_staged _ _ _ _⟩
  · exact ⟨count_reports _ _ _ _, count_staged _ _ _ _⟩

/-- A request that is only reported and answered leaves memory and the collectives as they were. -/
theorem onChip_answers {s : State} (h : s.sound) {f : Ctx → Chip → Chip} {i status : Nat} {r : Packet} {d : Chip}
    (answers : f s.ctx s.chip = d.respond r status 0 []) (reports : Chip.reports (s.chip.used i r) d) (staged : d.staged = s.chip.staged) :
    nextWith (onChip f s) (fun t => t.mem = s.mem ∧ t.chip.links = s.chip.reply i r status 0 [] ∧ t.chip.coll = s.chip.coll) := by
  have links : d.links = s.chip.freeing i r := Chip.reports_same reports Chip.links fun _ => rfl
  exact ⟨_, onChip_just h (answers.trans (respond_replies links status [])) staged, rfl, rfl, (Chip.reports_same reports Chip.coll fun _ => rfl :)⟩

/-- A partial stored at its slot and answered: its bytes are in memory, and the slot holds its epoch. -/
theorem onChip_stores {s : State} (h : s.sound) (calm : s.calm) {f : Ctx → Chip → Chip} {i : Nat} {r : Packet} {d : Chip} {slot : Stage}
    {outs : List (Nat × List Byte)} (answers : f s.ctx s.chip = (d.putStage r.addr slot).respond r 0 0 [])
    (work : (s.chip.used i r).Trained d (s.chip.stagedOf s.fuse outs)) :
    nextWith (onChip f s) (fun t => t.fuse = s.fuse ∧ t.chip.links = s.chip.reply i r 0 0 [] ∧ t.chip.stageAt r.addr = slot ∧
      (∀ a, a ≠ r.addr → t.chip.stageAt a = s.chip.stageAt a) ∧ s.stores t outs []) := by
  have links : (d.putStage r.addr slot).links = s.chip.freeing i r := work.alike.same Chip.links fun _ => rfl
  have stages : d.coll.stages = s.chip.coll.stages := work.alike.same (fun b => b.coll.stages) fun _ => rfl
  have slots (a : Nat) : (d.putStage r.addr slot).stageAt a = if r.addr = a then slot else s.chip.stageAt a := by
    rw [Chip.stageAt, Chip.putStage, tabGet_tabSet, stages, Chip.stageAt]
  refine (onChip_next f s _ (State.calm_ecc calm)).mpr ?_
  rw [State.sound_staged h, answers, respond_replies links]
  refine ⟨rfl, rfl, (slots _).trans (if_pos rfl), fun a other => (slots a).trans (if_neg (Ne.symm other)), State.stores_commit h ?_⟩
  exact congrArg s.mem.commit (work.staged.trans (congrArg (· ++ _) (State.sound_unstaged h)))

/-! ### Scalar records and results (R269, R273) -/

/-- A well-formed scalar packet is delivered, for the group of a partition's gate in its domain. -/
structure Chip.HoldsScalar (c : Chip) (i : Nat) (r : Packet) (q : Group) : Prop where
  held : c.holdsPacket i 4 r
  formed : r.scalarBad = false
  marked : bitAt r.coll 28 = true
  found : tabFind c.coll.groups (r.coll % 256) = some q
  base : q.stageBase = r.addr
  given : r.domain ≠ 0
  domain : c.domainOf q.part = r.domain
  group : (c.gate q.part).group = r.coll % 256

/-- Nothing goes up from a gate that still collects (R269). -/
theorem trySendUp_collecting {c : Chip} {p : Nat} (collecting : (c.gate p).state = .collecting) : c.trySendUp p = c := by
  unfold Chip.trySendUp
  exact if_pos (by simp [collecting])

/-- The chip once a delivered request has been consumed and answered with SUCCESS. -/
abbrev Chip.answeredOk (c : Chip) (i : Nat) (r : Packet) : Chip := { c with links := c.reply i r 0 0 [] }

theorem used_replies (c : Chip) (i : Nat) (r : Packet) : (c.used i r).respond r 0 0 [] = c.answeredOk i r := respond_replies rfl 0 []

section

variable {c : Chip} {i : Nat} {r : Packet} {q : Group} (h : c.HoldsScalar i r q)

include h

theorem scalarIn_used : (c.used i r).scalarIn r = some (q.part, q, (scalarOf r.data).1, (scalarOf r.data).2) := by
  have domain : (c.used i r).domainOf q.part = r.domain := h.domain
  simp [Chip.scalarIn, h.found, h.base, h.given, domain]

/-- A child's record is held for the next epoch, or kept for this one while the gate collects (R273). -/
theorem scalarRecord_keeps (record : bitAt r.coll 29 = false) (child : q.kids.contains r.src = true) :
    let g := c.gate q.part
    ((scalarOf r.data).2 = (g.epoch + 1) % 2 ^ 32 → tabFind g.held r.src = none →
      c.scalarRecord i = (c.answeredOk i r).putGate q.part { g with held := tabSet g.held r.src (scalarOf r.data).1 }) ∧
    ((scalarOf r.data).2 = g.epoch → g.epoch < 2 ^ 32 → g.state = .collecting → g.sent = false → g.window = false → tabFind g.kids r.src = none →
      c.scalarRecord i = (c.answeredOk i r).putGate q.part { g with kids := tabSet g.kids r.src (scalarOf r.data).1 }) := by
  intro g
  have used : c.consume i = c.used i r := h.held.consumed
  have gate : (c.used i r).gate q.part = g := rfl
  have group : (g.group = r.coll % 256) = True := eq_true h.group
  unfold Chip.scalarRecord
  simp only [h.held.delivered, h.marked, record, used, h.formed, scalarIn_used h, used_replies, gate, child, group, Bool.not_true, Bool.or_self,
    Bool.false_eq_true, if_false, ne_eq, not_true_eq_false, decide_false]
  refine ⟨fun next first => ?_, fun now small collecting unsent shut first => ?_⟩
  · rw [if_pos next, first]
    rfl
  · rw [if_neg (by omega), if_pos now, unsent, shut, first, if_neg (by simp)]
    exact trySendUp_collecting ((congrArg Gate.state ((Chip.gate_putGate _ _ _ _).trans (if_pos rfl))).trans collecting)

/-- The parent's result resolves a gate that waits for it; one that comes before is held, and goes on at once while the gate collects (R273). -/
theorem scalarResult_resolves (result : bitAt r.coll 29 = true) (inner : q.root = false) (parent : r.src = q.parent) :
    let g := c.gate q.part
    let e := (scalarOf r.data).2
    let a := (scalarOf r.data).1
    let kept := (c.answeredOk i r).putGate q.part { g with result := some (e, a) }
    (e = g.epoch → g.state = .reducing → c.scalarResult i = (c.answeredOk i r).applyResult q.part a) ∧
    (g.result = none → e = g.epoch → g.state = .collecting → c.scalarResult i = kept.passResult q.part a) ∧
    (g.result = none → e = (g.epoch + 1) % 2 ^ 32 → e ≠ g.epoch → g.state ≠ .unconfigured → c.scalarResult i = kept) := by
  intro g e a kept
  have used : c.consume i = c.used i r := h.held.consumed
  have gate : (c.used i r).gate q.part = g := rfl
  have group : (g.group = r.coll % 256) = True := eq_true h.group
  unfold Chip.scalarResult
  simp only [h.held.delivered, h.marked, result, used, h.formed, scalarIn_used h, used_replies, gate, inner, parent, group, Bool.not_true,
    Bool.or_self, Bool.false_eq_true, if_false, ne_eq, not_true_eq_false, decide_false]
  refine ⟨fun now reducing => ?_, fun first now collecting => ?_, fun first next other named => ?_⟩
  · exact if_pos (by simp [now, reducing, e])
  · have idle : (e = g.epoch && g.state = .reducing) = false := by simp [collecting]
    have due : (e = g.epoch && g.state = .collecting) = true := by simp [now, collecting]
    exact (if_neg (ne_true_of_eq_false idle)).trans ((if_neg (by rw [first]; exact Bool.false_ne_true)).trans (if_pos due))
  · have apart (b : Bool) : (decide (e = g.epoch) && b) = false := by simp [other]
    have due : (e = (g.epoch + 1) % 2 ^ 32 && g.state ≠ .unconfigured) = true := by simp [next, named]
    exact (if_neg (ne_true_of_eq_false (apart _))).trans ((if_neg (by rw [first]; exact Bool.false_ne_true)).trans
      ((if_neg (ne_true_of_eq_false (apart _))).trans (if_pos due)))

end

/-! ### The statement -/

/-- Settles O41: a partial is told by what it finds in its slot, a record by its epoch, a result by its gate's state. -/
theorem collectivePackets : Obligations.CollectivePackets := by
  unfold Obligations.CollectivePackets
  intro s i r h calm
  refine ⟨?partials, ?scalars⟩
  case partials =>
    intro p q held some blocks few size unreserved plain there part slot inside aligned strict idle e now next place good empty turn lets
    have arrived : s.chip.HoldsPartial i r p q := ⟨held, some, blocks, few, size, unreserved, plain, there, part, slot, inside, aligned, strict⟩
    obtain ⟨repeats, stores, drops⟩ := arrival_strict (s := place) turn
    obtain ⟨answered, dropped, failed, stored⟩ := reduceAdd_arrives arrived s.ctx
    refine ⟨fun fresh vacant unclosed sound => ?_, fun again => ?_, fun fresh full => ?_, fun fresh vacant unclosed bad => ?_⟩
    · obtain ⟨d, answers, work⟩ := stored (stores fresh vacant unclosed) (mismatches_zero.mpr sound) lets idle
      exact onChip_stores h calm (f := fun x c => Chip.reduceAdd x c i) answers work
    · exact onChip_answers h (f := fun x c => Chip.reduceAdd x c i) (answered (repeats again)) (Chip.reports_refl _) rfl
    · obtain ⟨reports, staged⟩ := dropColl_reports (s.chip.used i r) p true
      exact onChip_answers h (f := fun x c => Chip.reduceAdd x c i) (dropped (drops fresh full)) reports staged
    · have failing : r.mismatches ≠ 0 := fun none => by simp [good, mismatches_zero.mp none] at bad
      exact onChip_answers h (f := fun x c => Chip.reduceAdd x c i) (failed (stores fresh vacant unclosed) failing) (count_reports _ _ _ _)
        (count_staged _ _ _ _)
  case scalars =>
    intro q held formed marked found base given domain group g a e
    have scalar : s.chip.HoldsScalar i r q := ⟨held, formed, marked, found, base, given, domain, group⟩
    have gates (v : Gate) (p : Nat) : ((s.chip.answeredOk i r).putGate q.part v).gate p = if q.part = p then v else s.chip.gate p :=
      Chip.gate_putGate _ _ _ _
    refine ⟨fun record child next first => ?_, fun record child now small collecting unsent shut first => ?_,
      fun result inner parent now reducing => ?_, fun result inner parent first early => ?_⟩
    · have keeps := (scalarRecord_keeps scalar record child).1 next first
      exact ⟨_, onChip_just h (f := fun _ c => c.scalarRecord i) keeps rfl, rfl, rfl, (gates _ _).trans (if_pos rfl),
        fun p other => (gates _ p).trans (if_neg (Ne.symm other))⟩
    · have keeps := (scalarRecord_keeps scalar record child).2 now small collecting unsent shut first
      exact ⟨_, onChip_just h (f := fun _ c => c.scalarRecord i) keeps rfl, rfl, rfl, (gates _ _).trans (if_pos rfl),
        fun p other => (gates _ p).trans (if_neg (Ne.symm other))⟩
    · have applies := (scalarResult_resolves scalar result inner parent).1 now reducing
      obtain ⟨gate, reduces⟩ := resolveGate_resolves (c := s.chip.answeredOk i r) reducing a
      have passes := Chip.Sends.passResult ((s.chip.answeredOk i r).resolveGate q.part a) q.part a
      obtain ⟨n, c, frame⟩ := g.resolvedBy_frame a
      have own : ((s.chip.answeredOk i r).applyResult q.part a).gate q.part = g.resolvedBy a := (passes.gate _).trans gate
      refine ⟨_, onChip_just h (f := fun _ c => c.scalarResult i) applies (passes.staged.trans reduces.staged), rfl, rfl, ?_, ?_,
        fun p other => (passes.gate p).trans (reduces.others p other)⟩
      · exact own ▸ Gate.resolvedBy_resolves rfl rfl a
      · exact congrArg Gate.res (own.trans frame)
    · obtain ⟨-, passes, holds⟩ := scalarResult_resolves scalar result inner parent
      set kept := (s.chip.answeredOk i r).putGate q.part { g with result := some (e, a) }
      have sent : kept.Sends (s.chip.scalarResult i) := by
        rcases early with ⟨now, collecting⟩ | ⟨next, other, named⟩
        · exact passes first now collecting ▸ .passResult _ _ _
        · exact holds first next other named ▸ .refl _
      exact ⟨_, onChip_just h (f := fun _ c => c.scalarResult i) rfl sent.staged, rfl, rfl, (sent.gate _).trans ((gates _ _).trans (if_pos rfl)),
        fun p other => (sent.gate p).trans ((gates _ p).trans (if_neg (Ne.symm other)))⟩

end Sys2Proof.Machine
end

section
/-! SUPPORT. Group slots, the ends of launches and gathers (R254, R259, R275): what each command changes and what it leaves. -/

namespace Sys2Proof.Machine

/-! ### Group slots (R254) -/

/-- A chip whose group slots and stage slots are others. -/
def Chip.withGroups (c : Chip) (groups : Tab Group) (stages : Tab Stage) : Chip := { c with coll.groups := groups, coll.stages := stages }

theorem emptyStages_empty (t : Tab Stage) {q : Group} {a : Nat} (inside : q.holds a = true) : tabGet {} (t.filter (fun e => !q.holds e.1)) a = {} := by
  rw [tabGet_filter_key ({} : Stage) (fun a => !q.holds a), inside]
  rfl

/-- The slot is bound to the group of its context, whose stage slots are EMPTY; the command ends. -/
theorem groupSet_binds (c : Chip) (k : Cmd) :
    ∃ stages, c.groupSet k = (c.withGroups (tabSet c.coll.groups (k.fld 16 1) (groupOf (c.own k) k.ctx)) stages).endCmd
        { k with acct := { k.acct with bytes64 := k.acct.bytes64 + 1 } } 0 0 ∧
      ∀ a, (groupOf (c.own k) k.ctx).holds a = true → tabGet {} stages a = {} := by
  unfold Chip.groupSet
  dsimp only
  split
  · exact ⟨_, rfl, fun a => emptyStages_empty _⟩
  · exact ⟨_, rfl, fun a => emptyStages_empty _⟩

/-- The slot is unbound, with its stage slots; the command ends. -/
theorem groupFree_unbinds (c : Chip) (k : Cmd) :
    ∃ groups stages, c.groupFree k = (c.withGroups groups stages).endCmd k 0 0 ∧
      ∀ j, tabFind groups j = if j = k.fld 16 1 then none else tabFind c.coll.groups j := by
  unfold Chip.groupFree Chip.unbind
  split
  next unbound => exact ⟨c.coll.groups, c.coll.stages, rfl, fun j => by split_ifs with same <;> simp [same, unbound]⟩
  next q _ => exact ⟨_, _, rfl, fun j => tabFind_tabDel _ _ j⟩

/-! ### What has been settled stays so -/

/-- Packets and reports after the end of a command leave it settled. -/
theorem Chip.Sends.after_settles {c d e : Chip} (h : d.Sends e) {id status detail : Nat} (settled : c.settles d id status detail) :
    c.settles e id status detail := by
  obtain ⟨⟨k, found, rest⟩, others, events, sqs, cqs, tables⟩ := settled
  have cmds : e.cmds = d.cmds := h.same Chip.cmds fun _ _ => rfl
  exact ⟨⟨k, (Chip.cmd?_congr cmds id).trans found, rest⟩, (congrArg _ cmds).trans others, (h.same Chip.events fun _ _ => rfl).trans events,
    (h.same Chip.sqs fun _ _ => rfl).trans sqs, (h.same Chip.cqs fun _ _ => rfl).trans cqs, (h.same Chip.tables fun _ _ => rfl).trans tables⟩

/-! ### The record goes up while no launch or seal of the partition runs (R216, R269, R273) -/

/-- Neither a seal nor a launch runs. -/
def Chip.uncollected (c : Chip) : Prop := ∀ j ∈ c.cmds, j.phase = .running → j.opcode ≠ 0x21 ∧ j.opcode ≠ 0x71

theorem Chip.uncollected.runningOp {c : Chip} (h : c.uncollected) (d : Chip) (p : Nat) {j : Cmd} (hj : j ∈ c.cmds) :
    d.runningOp p 0x21 j = false ∧ d.runningOp p 0x71 j = false := by
  have off {op : Nat} (other : j.phase = .running → j.opcode ≠ op) : d.runningOp p op j = false := by
    refine Bool.eq_false_iff.mpr fun runs => ?_
    obtain ⟨running, opcode, -⟩ := (runningOp_iff d p op j).mp runs
    exact other running opcode
  exact ⟨off fun running => (h j hj running).1, off fun running => (h j hj running).2⟩

/-- A chip whose gates are others. -/
def Chip.withGates (c : Chip) (gates : Tab Gate) : Chip := { c with gates := gates }

/-- The resolution then ends no command. -/
theorem resolveGate_alone {c : Chip} (h : c.uncollected) (p : Nat) (s : Scalar) : ∃ gates, (c.withGates gates).Sends (c.resolveGate p s) := by
  by_cases reducing : (c.gate p).state = .reducing
  · have fired := resolutionFires_sends (c.putGate p ((c.gate p).resolvedBy s)) p (resolveStep s (c.gate p).ls (c.gate p).maxNorm).1
    have cmds := fired.same Chip.cmds fun _ _ => rfl
    rw [resolveGate_reducing reducing]
    generalize (c.putGate p ((c.gate p).resolvedBy s)).resolutionFires p (resolveStep s (c.gate p).ls (c.gate p).maxNorm).1 = d at *
    have still : d.uncollected := fun j hj => h j (cmds ▸ hj)
    have seals : d.sealsEnd p = d := by
      have none : d.cmds.filter (fun k => d.runningOp p 0x21 k && k.stage = 2) = [] :=
        List.filter_eq_nil_iff.mpr fun j hj => by simp [(still.runningOp d p hj).1]
      rw [Chip.sealsEnd, Chip.endAll, none, List.foldl_nil]
    rw [seals, launchesEnd_none fun j hj => (still.runningOp d p hj).2]
    exact ⟨_, fired⟩
  · refine ⟨c.gates, ?_⟩
    unfold Chip.resolveGate
    dsimp only
    rw [if_pos reducing]
    exact .refl c

/-- So the record goes up, or resolves the gate, and nothing but the gates changes. -/
theorem trySendUp_alone_sends {c : Chip} (h : c.uncollected) (p : Nat) : ∃ gates, (c.withGates gates).Sends (c.trySendUp p) := by
  unfold Chip.trySendUp
  extract_lets g q kids ready own flagged s d
  have applied : ∃ gates, (c.withGates gates).Sends (d.applyResult p s) := by
    obtain ⟨gates, resolved⟩ := resolveGate_alone (c := d) h p s
    exact ⟨gates, resolved.trans (.passResult _ p s)⟩
  split
  · exact ⟨c.gates, .refl c⟩
  · cases q with
    | none => exact applied
    | some q =>
      dsimp only
      split
      · exact applied
      · exact ⟨_, .sendScalar d p q q.parent s false⟩

/-! ### The end of a launch (R259) -/

theorem mem_launchesOf {c : Chip} {grp i : Nat} :
    i ∈ c.launchesOf grp ↔ ∃ j ∈ c.cmds, j.phase = .running ∧ j.opcode = 0x71 ∧ j.tclass = 6 ∧ j.fld 16 1 = grp ∧ j.id = i := by
  simp only [Chip.launchesOf, List.mem_map, List.mem_mergeSort, List.mem_filter, Bool.and_eq_true, decide_eq_true_eq]
  constructor
  · rintro ⟨j, ⟨mem, ⟨⟨running, opcode⟩, class_⟩, group⟩, number⟩
    exact ⟨j, mem, running, opcode, class_, group, number⟩
  · rintro ⟨j, mem, running, opcode, class_, group, number⟩
    exact ⟨j, ⟨mem, ⟨⟨running, opcode⟩, class_⟩, group⟩, number⟩

/-- A command that is not running closes no launch. -/
theorem closeLaunch_idle {c : Chip} {id : Nat} {k : Cmd} (found : c.cmd? id = some k) (ended : k.phase ≠ .running) (x : Ctx) :
    Chip.closeLaunch x c id = c := by
  unfold Chip.closeLaunch
  rw [found]
  cases tabFind c.coll.launches id with
  | none => rfl
  | some l => exact if_pos (by simp [ended])

/-- A launch with a tile that is not done is not closed. -/
theorem closeLaunch_open {c : Chip} {id : Nat} {l : Launch} (found : tabFind c.coll.launches id = some l) {u : Tile} (mem : u ∈ l.tiles)
    (undone : u ≠ .done) (x : Ctx) : Chip.closeLaunch x c id = c := by
  have incomplete : l.tiles.all (fun t => t = .done) = false :=
    List.all_eq_false.mpr ⟨u, mem, by simpa using undone⟩
  unfold Chip.closeLaunch
  rw [found]
  cases c.cmd? id with
  | none => rfl
  | some k => exact if_pos (by simp [incomplete])

/-- A launch without NB_CLOSE whose tiles are all done ends with SUCCESS. -/
theorem closeLaunch_ends {c : Chip} {id : Nat} {k : Cmd} {l : Launch} (runs : c.runs id 0x71 k) (found : tabFind c.coll.launches id = some l)
    (done : ∀ u ∈ l.tiles, u = .done) (plain : bitAt (k.fld 17 1) 0 = false) (x : Ctx) :
    ∃ a, Chip.closeLaunch x c id =
      ((c.endCmd { k with acct := a } 0 0).withLaunches (tabDel c.coll.launches id)).trySendUp l.part := by
  have complete : l.tiles.all (fun t => t = .done) = true := List.all_eq_true.mpr fun u hu => by simpa using done u hu
  have number : k.id = id := Chip.cmd?_id runs.1
  unfold Chip.closeLaunch
  rw [runs.1, found]
  simp only [runs.2.2, complete, plain, Bool.and_false, Bool.not_true, Bool.or_self, Bool.false_eq_true, if_false, ne_eq, not_true_eq_false,
    decide_false, Bool.not_false, if_true, number]
  exact ⟨_, rfl⟩

/-- The one running launch of a group, all of whose tiles are done, ends: its launch is gone, and the record may go up. -/
theorem closeLaunches_ends {c : Chip} {id grp : Nat} {k : Cmd} {l : Launch} (runs : c.runs id 0x71 k) (class_ : k.tclass = 6)
    (group : k.fld 16 1 = grp) (found : tabFind c.coll.launches id = some l) (done : ∀ u ∈ l.tiles, u = .done) (plain : bitAt (k.fld 17 1) 0 = false)
    (only : ∀ j ∈ c.cmds, j.phase = .running → j.opcode = 0x71 ∨ j.opcode = 0x21 → j.id = id) (x : Ctx) :
    ∃ a gates, Chip.Sends (((c.endCmd { k with acct := a } 0 0).withLaunches (tabDel c.coll.launches id)).withGates gates)
      (Chip.closeLaunches x c grp) := by
  obtain ⟨a, ends⟩ := closeLaunch_ends runs found done plain x
  set e := (c.endCmd { k with acct := a } 0 0).withLaunches (tabDel c.coll.launches id)
  have number : k.id = id := Chip.cmd?_id runs.1
  have alone : e.uncollected := by
    intro j hj running
    rcases mem_putCmd (c := c) hj with rfl | ⟨mem, other⟩
    · exact absurd running nofun
    · have apart {op : Nat} (named : op = 0x71 ∨ op = 0x21) : j.opcode ≠ op := fun same =>
        other ((only j mem running (same ▸ named)).trans number.symm)
      exact ⟨apart (.inr rfl), apart (.inl rfl)⟩
  obtain ⟨gates, sent⟩ := trySendUp_alone_sends alone l.part
  have ended : (e.trySendUp l.part).cmd? id = some { k with acct := a, phase := .ended, status := 0, detail := 0 } :=
    (sent.same (fun b => b.cmd? id) fun _ _ => rfl).trans
      (Chip.cmd?_putCmd (j := { k with acct := a, phase := .ended, status := 0, detail := 0 }) runs.1 number)
  have one : ∀ i ∈ c.launchesOf grp, i = id := by
    intro i hi
    obtain ⟨j, mem, running, opcode, -, -, rfl⟩ := mem_launchesOf.mp hi
    exact only j mem running (.inl opcode)
  have own : id ∈ c.launchesOf grp :=
    mem_launchesOf.mpr ⟨k, List.mem_of_find?_eq_some runs.1, runs.2.2, runs.2.1, class_, group, number⟩
  refine ⟨a, gates, ?_⟩
  unfold Chip.closeLaunches
  match c.launchesOf grp, own, one with
  | i :: is, _, one =>
    rw [List.foldl_cons, one i List.mem_cons_self, ends, foldl_idle fun j hj => ?_]
    · exact sent
    · rw [one j (List.mem_cons_of_mem i hj)]
      exact closeLaunch_idle ended nofun x

/-- A launch that has no tile to run or to send closes what launches of its group can end (R259). -/
theorem launch_closes {c : Chip} {k : Cmd} {l : Launch} (begun : k.stage ≠ 0) (found : tabFind c.coll.launches k.id = some l)
    (done : ∀ u ∈ l.tiles, u = .done) (x : Ctx) : Chip.launch x c k = Chip.closeLaunches x c l.group := by
  unfold Chip.launch
  rw [if_neg begun, found]
  dsimp only
  cases tabFind c.coll.groups l.group with
  | none => rfl
  | some q =>
    refine congrArg (fun d => Chip.closeLaunches x d l.group) (foldl_idle fun t _ => ?_)
    cases tile : l.tiles[t]? with
    | none => rfl
    | some u =>
      cases done u (List.mem_of_getElem? tile)
      rfl

/-! ### The header of a packet (R243) -/

theorem leNat_append (a b : List Byte) : leNat (a ++ b) = leNat a + 256 ^ a.length * leNat b := by
  induction a with
  | nil => simp [leNat]
  | cons e a ih =>
    rw [List.cons_append, leNat, leNat, ih, List.length_cons, Nat.pow_succ]
    ring

theorem leNat_lt (b : List Byte) : leNat b < 256 ^ b.length := by
  induction b with
  | nil => exact Nat.one_pos
  | cons e b ih =>
    have := e.isLt
    rw [leNat, List.length_cons, Nat.pow_succ]
    omega

/-- Bytes of the header read as the number they spell. -/
theorem fld_spelt {p : Packet} {a b d : List Byte} (spelt : p.hdr = BitVec.ofNat 256 (leNat (a ++ (b ++ d)))) (size : (a ++ (b ++ d)).length = 32) :
    p.fld a.length b.length = leNat b := by
  have whole : leNat (a ++ (b ++ d)) < 2 ^ 256 := by
    have := leNat_lt (a ++ (b ++ d))
    rwa [size] at this
  have power (n : Nat) : 2 ^ (8 * n) = 256 ^ n := by rw [pow_mul]; rfl
  rw [Packet.fld, spelt, BitVec.toNat_ofNat, Nat.mod_eq_of_lt whole, power, power, leNat_append, leNat_append,
    Nat.add_mul_div_left _ _ (Nat.pow_pos (by decide)), Nat.div_eq_of_lt (leNat_lt a), Nat.zero_add, Nat.add_mul_mod_self_left,
    Nat.mod_eq_of_lt (leNat_lt b)]

theorem make_type (s : PacketSpec) (src : Nat) (small : s.type < 256) : (s.make src).type = s.type := by
  have := fld_spelt (p := s.make src) (a := []) (b := leBytes 1 s.type) rfl (by simp)
  rw [leBytes_length] at this
  exact this.trans (leNat_leBytes 1 _ small)

theorem make_addr (s : PacketSpec) (src : Nat) (small : s.addr < 2 ^ 64) : (s.make src).addr = s.addr := by
  have := fld_spelt (p := s.make src) (a := leBytes 1 s.type ++ leBytes 1 (s.vc + 8 * flagNat s.poison) ++ leBytes 2 src ++ leBytes 2 s.dst ++
    leBytes 1 255 ++ leBytes 1 s.op ++ leBytes 4 s.tag ++ leBytes 2 s.domain ++ leBytes 2 s.flow) (b := leBytes 8 s.addr)
    (d := leBytes 2 s.len ++ leBytes 2 s.count ++ leBytes 4 s.coll) (by simp only [PacketSpec.make, List.append_assoc]) (by simp)
  simp only [List.length_append, leBytes_length] at this
  exact this.trans (leNat_leBytes 8 _ small)

/-! ### COLL_GATHER and GATHER_TAKE (R275) -/

/-- One packet of a gather's piece. -/
def gatherSpec (x : Ctx) (k : Cmd) (p : Nat) (q : Group) (a : Nat) (bad : List Nat) (c : Chip) (u : Nat × Nat) : PacketSpec :=
  { type := 1, vc := 4, dst := q.succ, domain := c.domainOf p, flow := k.fld 16 1, addr := a + u.1, len := u.2
    poison := bad.any (fun l => overlap l 64 (a + u.1) u.2), data := c.rdBytes x (a + u.1) u.2 }

/-- A packet of a piece sent, and answered for by the command. -/
def Chip.gatherIssue (x : Ctx) (k : Cmd) (p : Nat) (q : Group) (a : Nat) (bad : List Nat) (c : Chip) (u : Nat × Nat) : Chip :=
  c.issue (gatherSpec x k p q a bad c u) (.gather k.id) (some p)

/-- The packets of a piece are queued one after another, each with its bytes. -/
theorem gatherIssue_queued (x : Ctx) (k : Cmd) (p : Nat) (q : Group) (a : Nat) (bad : List Nat) {l : List (Nat × Nat)}
    (fits : ∀ u ∈ l, a + u.1 < 2 ^ 64) (c : Chip) :
    let d := l.foldl (Chip.gatherIssue x k p q a bad) c
    c.Sends d ∧ ∃ ps, d.links.out = c.links.out ++ ps ∧
      ps.map (fun e => (e.1.type, e.1.addr, e.1.data)) = l.map (fun u => (1, a + u.1, c.rdBytes x (a + u.1) u.2)) := by
  induction l generalizing c with
  | nil => exact ⟨.refl c, [], (List.append_nil _).symm, rfl⟩
  | cons u l ih =>
    have first : c.Sends (c.gatherIssue x k p q a bad u) := .issue c _ _ _
    have bytes (b n : Nat) : (c.gatherIssue x k p q a bad u).rdBytes x b n = c.rdBytes x b n := first.same (fun d => d.rdBytes x b n) fun _ _ => rfl
    let spec : PacketSpec := { gatherSpec x k p q a bad c u with tag := c.links.nextTag }
    have out : (c.gatherIssue x k p q a bad u).links.out = c.links.out ++ [(spec.make c.myId, some p)] :=
      Chip.reports_same (count_reports _ _ _ _) (fun d => d.links.out) fun _ => rfl
    obtain ⟨rest, ps, queued, packets⟩ := ih (fun v hv => fits v (List.mem_cons_of_mem u hv)) (c.gatherIssue x k p q a bad u)
    refine ⟨first.trans rest, (spec.make c.myId, some p) :: ps, ?_, ?_⟩
    · rw [List.foldl_cons, queued, out, List.append_assoc, List.singleton_append]
    · simp only [bytes] at packets
      rw [List.map_cons, List.map_cons, packets, make_type spec _ (show 1 < 256 by decide), make_addr spec _ (fits u List.mem_cons_self)]
      rfl

/-- A piece whose lines are good goes to SUCC in packets of at most 4 KiB, and the command waits for their responses. -/
theorem gatherSend_sends {c : Chip} {x : Ctx} {env : Env} {k : Cmd} {p h : Nat} {q : Group} (hl : x.mem.lines = []) (he : x.ecc = [])
    (hn : env.upsets = []) (group : tabFind c.coll.groups (k.fld 16 1) = some q) (fits : k.gatherPiece q h + k.fld 20 4 < 2 ^ 64)
    (lets : c.dramLets p [(k.gatherPiece q h, k.fld 20 4)] = true) :
    let a := k.gatherPiece q h
    ∃ (d : Chip) (data : List Nat) (acct : Acct), Chip.gatherSend x env c k p h = d.putCmd { k with stage := 1, data := data, acct := acct } ∧
      d.staged = c.staged ∧ d.cmds = c.cmds ∧ ∃ ps, d.links.out = c.links.out ++ ps ∧ ps.map (fun e => (e.1.type, e.1.addr, e.1.data)) =
        (pieces (k.fld 20 4 / 4096 + 2) 0 (k.fld 20 4)).map (fun u => (1, a + u.1, c.rdBytes x (a + u.1) u.2)) := by
  intro piece
  unfold Chip.gatherSend
  simp only [group, piece]
  generalize k.gatherPiece q h = a at *
  generalize k.fld 20 4 = n at *
  have good (l : Nat) : c.lineHealth x l = .good := lineHealth_good c hl l
  have none : (linesOf a n).filter (fun l => c.lineHealth x l = .poison) = [] := List.filter_eq_nil_iff.mpr fun l _ => by simp [good]
  obtain ⟨e, reads⟩ : ∃ e, e = ((linesOf a n).filter (fun l => c.lineHealth x l ≠ .poison)).foldl (fun c l => c.tierLine l false) c := ⟨_, rfl⟩
  have read : c.Trained (e.dramCharge p [(a, n)]) [] := by
    rw [reads]
    exact (Chip.Trained.of_outputs (fz := x.fuse) (.quiets (fun c l => .tierLine c l false) _ c)).then_quiet (.dramCharge _ _ _)
  have inside : ∀ u ∈ pieces (n / 4096 + 2) 0 n, a + u.1 < 2 ^ 64 := fun u hu => by
    have := pieces_spec hu
    omega
  obtain ⟨sent, ps, queued, packets⟩ := gatherIssue_queued x k p q a [] inside (e.dramCharge p [(a, n)])
  have bytes (b m : Nat) : (e.dramCharge p [(a, n)]).rdBytes x b m = c.rdBytes x b m := by
    have rd : (e.dramCharge p [(a, n)]).rd x = c.rd x := read.alike.rd x
    rw [Chip.rdBytes, rd, Chip.rdBytes]
  simp only [lets, hn, Chip.upset_nil, upset_none, onRead_off he, none, readLines_good x _ _ _ hl he, Bool.not_true, Bool.false_eq_true, if_false,
    List.foldl_nil]
  rw [← reads]
  have out : (e.dramCharge p [(a, n)]).links.out = c.links.out := read.alike.same (fun d => d.links.out) fun _ => rfl
  refine ⟨_, _, _, rfl, sent.staged.trans (read.staged.trans (List.append_nil _)),
    (sent.same Chip.cmds fun _ _ => rfl).trans (read.alike.same Chip.cmds fun _ => rfl), ps, queued.trans (congrArg (· ++ ps) out), packets.trans ?_⟩
  simp only [bytes]

section

variable {c : Chip} {x : Ctx} {k : Cmd} (hl : x.mem.lines = []) (waits : k.stage = 2)
  (only : (c.event (k.fld 18 2)).waiters = [k.id])

include hl waits only

/-- A poisoned entry ends a gather that waits on it (R40). -/
theorem gatherTake_poisoned (env : Env) (poisoned : (c.event (k.fld 18 2)).poisoned = true) :
    Chip.gatherTake x env c k = (c.putEvent (k.fld 18 2) { c.event (k.fld 18 2) with waiters := [] }).endCmd k 9 0 := by
  have clean : ∀ e ∈ x.mem.lines, e.1 ≠ evtLine (k.fld 18 2) := by simp [hl]
  simp [Chip.gatherTake, waits, meetEvent_clean clean, poisoned, Chip.endGather, Chip.leaveWaiters, only]

/-- After the last take a gather ends with SUCCESS. -/
theorem gatherTake_last (env : Env) {q : Group} (group : tabFind c.coll.groups (k.fld 16 1) = some q) (last : q.g ≤ k.data.getD 0 0 + 2)
    (sound : (c.event (k.fld 18 2)).poisoned = false) (signalled : 0 < (c.event (k.fld 18 2)).count) :
    Chip.gatherTake x env c k =
      (c.putEvent (k.fld 18 2) { c.event (k.fld 18 2) with count := (c.event (k.fld 18 2)).count - 1, waiters := [] }).endCmd k 0 0 := by
  have clean : ∀ e ∈ x.mem.lines, e.1 ≠ evtLine (k.fld 18 2) := by simp [hl]
  have unheld (e : Event) (none : e.waiters = []) : ∀ i ∈ [k.fld 18 2], (((c.putEvent (k.fld 18 2) e).endCmd k 0 0).event i).waiters = [] := by
    intro i hi
    rw [List.mem_singleton.mp hi]
    exact (congrArg Event.waiters ((Chip.event_putEvent _ _ _ _).trans (if_pos rfl))).trans none
  have taken : ¬ (decide ([k.id].head? ≠ some k.id) || decide ((c.event (k.fld 18 2)).count = 0)) = true := by
    simp [Nat.pos_iff_ne_zero.mp signalled]
  unfold Chip.gatherTake
  simp only [waits, if_true, meetEvent_clean clean, sound, group, Option.elim_some, Bool.false_eq_true, if_false, if_pos last, ne_eq,
    not_true_eq_false, only, List.tail_cons, show (2 : Nat) ≠ 3 by decide]
  exact (if_neg taken).trans (settle_idle _ _ _ _ (unheld _ rfl))

end

end Sys2Proof.Machine
end

section
/-! SUPPORT. The window of late folds (R270): what its close does to tiles, launches and records leaves the gate collecting with its window
closed. -/

namespace Sys2Proof.Machine

/-! ### What leaves every gate -/

theorem count_gates (c : Chip) (f n k : Nat) : (c.count f n k).gates = c.gates := Chip.reports_same (count_reports c f n k) Chip.gates fun _ => rfl

theorem fire_gates (c : Chip) (f src : Nat) : (c.fire f src).gates = c.gates := Chip.reports_same (fire_reports c f src) Chip.gates fun _ => rfl

theorem log_gates (c : Chip) (f : Nat) (r : LogReq) : (c.log f r).gates = c.gates := (congrArg Chip.gates (log_logs c f r).1 :)

theorem wr_gates (c : Chip) (x : Ctx) (a : Nat) (d : List Byte) : (c.wr x a d).gates = c.gates :=
  (Chip.Outputs.wr c x a d).toAlike.same Chip.gates fun _ => rfl

theorem tierLine_gates (c : Chip) (a : Nat) (write : Bool) : (c.tierLine a write).gates = c.gates :=
  (Chip.Outputs.tierLine (fz := {}) c a write).toAlike.same Chip.gates fun _ => rfl

theorem tierWrites_gates (c : Chip) (runs : List (Nat × Nat)) : (c.tierWrites runs).gates = c.gates :=
  (tierWrites_outputs {} c runs).toAlike.same Chip.gates fun _ => rfl

theorem dramCharge_gates (c : Chip) (p : Nat) (runs : List (Nat × Nat)) : (c.dramCharge p runs).gates = c.gates := rfl

theorem putStage_gates (c : Chip) (a : Nat) (v : Stage) : (c.putStage a v).gates = c.gates := rfl

theorem putLaunch_gates (c : Chip) (id : Nat) (l : Launch) : (c.putLaunch id l).gates = c.gates := rfl

/-- What changes no gate step by step changes none together. -/
theorem foldl_gates {α : Type} {g : Chip → α → Chip} (hg : ∀ c a, (g c a).gates = c.gates) (l : List α) (c : Chip) :
    (l.foldl g c).gates = c.gates := by
  induction l generalizing c with
  | nil => rfl
  | cons a l ih => exact (ih _).trans (hg c a)

theorem coverRuns_gates (x : Ctx) (runs : List (Nat × Nat)) (c : Chip) : (Chip.coverRuns x runs c).gates = c.gates := by
  unfold Chip.coverRuns
  refine foldl_gates (fun c l => ?_) _ c
  split <;> rfl

theorem ddrCorrected_gates (c : Chip) (u b : Nat) (places : List Nat) : (c.ddrCorrected u b places).gates = c.gates := by
  unfold Chip.ddrCorrected
  extract_lets t counted
  have before : counted.gates = c.gates := by
    dsimp only [counted]
    split
    · exact count_gates c _ _ _
    · rfl
  split
  · exact before
  · exact before

theorem corrected_gates (c : Chip) (x : Ctx) (a : Nat) (w : Consumer) (places : List Nat) : (c.corrected x a w places).gates = c.gates := by
  unfold Chip.corrected
  extract_lets written
  split
  · rfl
  · extract_lets logged counted
    have logs : logged.gates = c.gates := log_gates written _ _
    split
    · exact logs
    · extract_lets devices t n rows limit
      have found : devices.gates = c.gates := by
        dsimp only [devices]
        split
        · exact (count_gates logged _ _ _).trans logs
        · exact (ddrCorrected_gates _ _ _ _).trans ((count_gates logged _ _ _).trans logs)
      split
      · exact (fire_gates rows _ _).trans found
      · exact found

theorem uncorrected_gates (c : Chip) (x : Ctx) (a : Nat) (w : Consumer) : (c.uncorrected x a w).gates = c.gates := by
  unfold Chip.uncorrected
  extract_lets l written
  split
  · extract_lets logged
    have logs : logged.gates = c.gates := log_gates written _ _
    split
    · exact logs
    · exact (fire_gates _ _ _).trans ((count_gates _ _ _ _).trans logs)
  · rfl

theorem poisonRead_gates (c : Chip) (x : Ctx) (a : Nat) (w : Consumer) : (c.poisonRead x a w).gates = c.gates := by
  unfold Chip.poisonRead
  split
  · rfl
  · exact log_gates _ _ _

/-- A read, whatever it meets. -/
theorem readLines_gates {x : Ctx} (he : x.ecc = []) (w : Consumer) (as : List Nat) (c : Chip) : (Chip.readLines x w as c).1.gates = c.gates := by
  induction as generalizing c with
  | nil => rfl
  | cons a as ih =>
    have access := tierLine_gates c a false
    rw [Chip.readLines, onRead_off he]
    dsimp only
    split
    · exact (ih _).trans access
    · exact ((ih _).trans (corrected_gates _ x a w _)).trans access
    · exact (uncorrected_gates _ x a w).trans access
    · exact (poisonRead_gates _ x a w).trans access

theorem readRuns_gates {x : Ctx} (he : x.ecc = []) (w : Consumer) (runs : List (Nat × Nat)) (c : Chip) :
    (Chip.readRuns x w runs c).1.gates = c.gates := readLines_gates he w _ c

theorem siteBeats_gates (c : Chip) (q : Group) (id n : Nat) : (c.siteBeats q id n).gates = c.gates := by
  unfold Chip.siteBeats
  split <;> rfl

theorem setTile_gates (c : Chip) (id t : Nat) (v : Tile) : (c.setTile id t v).gates = c.gates := by
  unfold Chip.setTile
  split <;> rfl

theorem nfProduced_gates (c : Chip) : c.nfProduced.gates = c.gates := (fire_gates _ _ _).trans (count_gates _ _ _ _)

theorem issue_gates (c : Chip) (s : PacketSpec) (who : Issuer) (part : Option Nat) : (c.issue s who part).gates = c.gates := count_gates _ _ _ _

theorem outPartial_gates (c : Chip) (x : Ctx) (l : Launch) (q : Group) (id t : Nat) (d : List Byte) :
    (c.outPartial x l q id t d).gates = c.gates := by
  have written := wr_gates c x (l.stage + 16384 * t + 10432) d
  unfold Chip.outPartial
  extract_lets e pert late
  split
  · exact (setTile_gates _ id t _).trans written
  · exact ((setTile_gates _ id t .sent).trans ((count_gates _ _ _ _).trans (issue_gates e _ _ _))).trans written

/-! ### The blocks of a first hop (R263, R264) -/

/-- One block of a first hop: the chip, the bytes so far, and whether a block was not finite. -/
def Chip.firstBlock (p : Nat) (e0 : Int) (v : List Val) (acc : Chip × List Byte × Bool) : Chip × List Byte × Bool :=
  if v.any (fun u => !u.finite) then (acc.1.nfProduced, acc.2.1 ++ nfBlock.bytes, true)
  else ((if (encode0 v e0).2 then acc.1.satBlock p else acc.1), acc.2.1 ++ (encode0 v e0).1.bytes, acc.2.2)

/-! ### A gate whose window has closed while it collects (R270) -/

/-- The gate of a partition collects with its window closed. -/
structure Chip.Windowed (p : Nat) (c : Chip) : Prop where
  window : (c.gate p).window = true
  collects : (c.gate p).state = .collecting

namespace Chip.Windowed

variable {p : Nat} {c d : Chip}

theorem of_gates (h : Chip.Windowed p c) (gates : d.gates = c.gates) : Chip.Windowed p d := by
  have same : d.gate p = c.gate p := by rw [Chip.gate, gates, Chip.gate]
  exact ⟨same ▸ h.window, same ▸ h.collects⟩

/-- Flags and sums reach a gate. -/
theorem putGate (h : Chip.Windowed p c) (r : Nat) {g : Gate} (window : g.window = (c.gate r).window) (state : g.state = (c.gate r).state) :
    Chip.Windowed p (c.putGate r g) := by
  by_cases own : r = p
  · subst own
    refine ⟨?_, ?_⟩ <;> rw [Chip.gate_putGate, if_pos rfl]
    · exact window.trans h.window
    · exact state.trans h.collects
  · refine ⟨?_, ?_⟩ <;> rw [Chip.gate_putGate, if_neg own]
    · exact h.window
    · exact h.collects

/-- Its own record does not go up while it collects; another's changes it not. -/
theorem trySendUp (h : Chip.Windowed p c) (r : Nat) : Chip.Windowed p (c.trySendUp r) := by
  by_cases own : r = p
  · exact (trySendUp_collecting (own ▸ h.collects)).symm ▸ h
  · have same := (trySendUp_reduces c r).others p (Ne.symm own)
    exact ⟨same ▸ h.window, same ▸ h.collects⟩

theorem foldl {α : Type} {g : Chip → α → Chip} (hg : ∀ c a, Chip.Windowed p c → Chip.Windowed p (g c a)) (l : List α) (h : Chip.Windowed p c) :
    Chip.Windowed p (l.foldl g c) := foldl_invariant (P := fun _ c => Chip.Windowed p c) h (fun _ a c => hg c a) l

theorem gateOvf (h : Chip.Windowed p c) (r : Nat) : Chip.Windowed p (c.gateOvf r) := h.putGate r rfl rfl

theorem gateNf (h : Chip.Windowed p c) (r : Nat) : Chip.Windowed p (c.gateNf r) := h.putGate r rfl rfl

theorem gateAbandon (h : Chip.Windowed p c) (r : Nat) : Chip.Windowed p (c.gateAbandon r) := h.putGate r rfl rfl

theorem satBlock (h : Chip.Windowed p c) (r : Nat) : Chip.Windowed p (c.satBlock r) :=
  (h.gateOvf r).of_gates ((fire_gates _ _ _).trans (count_gates _ _ _ _))

theorem firstBlock {acc : Chip × List Byte × Bool} (h : Chip.Windowed p acc.1) (r : Nat) (e0 : Int) (v : List Val) :
    Chip.Windowed p (Chip.firstBlock r e0 v acc).1 := by
  unfold Chip.firstBlock
  split
  · exact h.of_gates (nfProduced_gates _)
  · dsimp only
    split
    · exact h.satBlock r
    · exact h

theorem gateBlock (h : Chip.Windowed p c) (r : Nat) (gs : List Nat) : Chip.Windowed p (c.gateBlock r gs) := by
  have put (a : Scalar) : Chip.Windowed p (c.putGate r { c.gate r with loc := a }) := h.putGate r rfl rfl
  unfold Chip.gateBlock
  extract_lets g s
  split
  · exact put _
  · split
    · exact put _
    · exact (put _).of_gates (count_gates _ _ _ _)

/-- A launch gone, its record may go up (R267, R269). -/
theorem leaves (h : Chip.Windowed p c) (k : Cmd) (st dt : Nat) (ls : Tab Launch) (r : Nat) :
    Chip.Windowed p (((c.endCmd k st dt).withLaunches ls).trySendUp r) := by
  have same : ((c.endCmd k st dt).withLaunches ls).gates = c.gates := rfl
  exact (h.of_gates same).trySendUp r

/-- A launch fails (R267). -/
theorem failLaunch (h : Chip.Windowed p c) (k : Cmd) (st dt : Nat) : Chip.Windowed p (c.failLaunch k st dt) := by
  have failed (r : Nat) : Chip.Windowed p ((c.gateAbandon r).fire collFrame 2) := (h.gateAbandon r).of_gates (fire_gates _ _ _)
  exact leaves (failed _) _ st dt _ _

/-- A tile runs, or waits, or fails (R259, R267, R270). -/
theorem runTile (h : Chip.Windowed p c) {x : Ctx} (he : x.ecc = []) (id t : Nat) : Chip.Windowed p (Chip.runTile x c id t) := by
  unfold Chip.runTile
  split
  · next k l _ _ =>
    split
    · exact h
    · next q _ =>
      extract_lets p' a s e8 n nb got closes fold runs final outs y r charged beats xs fv shut begun first first' ePrev bs run l' formed s' closed sat
        counted produced ws noted written passed
      have read : Chip.Windowed p r.1 := h.of_gates (readRuns_gates (x := y) he _ _ c)
      have covered : Chip.Windowed p charged :=
        read.of_gates ((coverRuns_gates _ _ _).trans ((dramCharge_gates _ _ _).trans (dramCharge_gates _ _ _)))
      have ready : Chip.Windowed p beats := by
        dsimp only [beats]
        split
        · exact covered
        · exact covered.of_gates (siteBeats_gates _ _ _ _)
      have encoded : Chip.Windowed p first.1 := by
        refine foldl_invariant (P := fun _ (acc : Chip × List Byte × Bool) => Chip.Windowed p acc.1) (ready.of_gates (putStage_gates _ _ _)) (fun _ i acc held => ?_) _
        exact firstBlock (acc := acc) held p' l.e0 _
      have summed : Chip.Windowed p counted :=
        (foldl (fun _ _ k => k.satBlock p') _ (ready.of_gates ((putStage_gates _ _ _).trans (putLaunch_gates _ _ _)))).of_gates (count_gates _ _ _ _)
      have final_ : Chip.Windowed p written := by
        have marked : Chip.Windowed p (if run.outs.any Option.isNone then counted.gateNf p' else counted) := by
          split
          · exact summed.gateNf p'
          · exact summed
        have reported : Chip.Windowed p produced := foldl (fun _ _ k => k.of_gates (nfProduced_gates _)) _ marked
        exact foldl (fun _ _ k => k.of_gates (wr_gates _ _ _ _)) _ (reported.of_gates (putLaunch_gates _ _ _))
      split
      · exact h
      · split
        · exact h.failLaunch k 2 0
        · split
          · exact read.failLaunch k _ _
          · split
            · exact encoded.of_gates ((outPartial_gates _ _ _ _ _ _ _).trans (putLaunch_gates _ _ _))
            · split
              · exact (ready.of_gates ((count_gates _ _ _ _).trans (putLaunch_gates _ _ _))).failLaunch k _ _
              · split
                · exact final_.of_gates ((setTile_gates _ _ _ _).trans (tierWrites_gates _ _))
                · exact (foldl (fun _ _ k => k.of_gates (nfProduced_gates _)) _ summed).of_gates (outPartial_gates _ _ _ _ _ _ _)
  · exact h

/-- A launch ends, with the norm block of its owner, or waits, or fails (R259, R272). -/
theorem closeLaunch (h : Chip.Windowed p c) {x : Ctx} (he : x.ecc = []) (id : Nat) : Chip.Windowed p (Chip.closeLaunch x c id) := by
  unfold Chip.closeLaunch
  split
  · next k l _ _ =>
    split
    · exact h
    · extract_lets p' owner nb acct ended y run r ws
      have ends (ws : List Nat) {d : Chip} (k : Chip.Windowed p d) : Chip.Windowed p (ended ws d) := k.leaves _ _ _ _ _
      split
      · exact ends [] h
      · split
        · exact h
        · split
          · exact h
          · have read : Chip.Windowed p r.1 := h.of_gates (readRuns_gates (x := y) he _ _ c)
            split
            · exact (read.gateAbandon p').leaves _ _ _ _ _
            · exact ends _ ((read.of_gates (dramCharge_gates _ p' run)).gateBlock p' _)
  · exact h

theorem closeLaunches (h : Chip.Windowed p c) {x : Ctx} (he : x.ecc = []) (grp : Nat) : Chip.Windowed p (Chip.closeLaunches x c grp) :=
  foldl (fun _ id k => k.closeLaunch he id) _ h

end Chip.Windowed

/-- The window stays open until WINDOW_US after the seal (R270). -/
theorem foldWindow_early {c : Chip} {p t0 : Nat} (sealed : (c.gate p).sealAt = some t0) (early : c.time < t0 + 1000 * (c.gate p).windowUs)
    (x : Ctx) : Chip.foldWindow x c p = c := by
  unfold Chip.foldWindow
  dsimp only
  rw [sealed]
  exact if_pos (by simp [early])

/-- It closes then, and what closes with it leaves the gate collecting. -/
theorem foldWindow_closes {c : Chip} {p t0 : Nat} {x : Ctx} (he : x.ecc = []) (sealed : (c.gate p).sealAt = some t0)
    (late : (c.gate p).lateFold = true) (collects : (c.gate p).state = .collecting) (isOpen : (c.gate p).window = false)
    (due : t0 + 1000 * (c.gate p).windowUs ≤ c.time) : Chip.Windowed p (Chip.foldWindow x c p) := by
  have shut {g : Gate} (window : g.window = true) (state : g.state = .collecting) : Chip.Windowed p (c.putGate p g) := by
    have put : (c.putGate p g).gate p = g := (Chip.gate_putGate _ _ _ _).trans (if_pos rfl)
    exact ⟨(congrArg Gate.window put).trans window, (congrArg Gate.state put).trans state⟩
  have waits : ¬ (!(c.gate p).lateFold || (c.gate p).window || decide (c.time < t0 + 1000 * (c.gate p).windowUs) ||
      !(decide ((c.gate p).state = .collecting) || decide ((c.gate p).state = .reducing))) = true := by
    simp [late, isOpen, collects, Nat.not_lt.mpr due]
  unfold Chip.foldWindow
  dsimp only
  rw [sealed]
  dsimp only
  rw [if_neg waits]
  refine (Chip.Windowed.foldl (fun _ grp k => k.closeLaunches he grp) _ (Chip.Windowed.foldl (fun _ e k => ?_) _ (shut ?_ ?_))).trySendUp p
  · exact Chip.Windowed.foldl (fun _ t k => k.runTile he e.1 t) _ k
  · rfl
  · exact collects

end Sys2Proof.Machine
end

section
/-! SUPPORT. The local phase of a launch at a first hop (R260, R263, R264): what it stages, and what it makes of its launch and of the links. -/

namespace Sys2Proof.Machine

/-! ### Traffic that flows freely (R319) -/

/-- A partition's regulators are off, and the memory is up. -/
structure Chip.FlowsFree (p : Nat) (c : Chip) : Prop where
  unpaced : ∃ pt, c.part? p = some pt ∧ ∀ i, (pt.regs.getD i (0, 0)).1 = 0
  held : c.memHeld = false
  hbm : c.hbmUp = true
  ddr : c.ddrUp = true

theorem Chip.FlowsFree.lets {p : Nat} {c : Chip} (h : c.FlowsFree p) (runs : List (Nat × Nat)) : c.dramLets p runs = true := by
  obtain ⟨⟨pt, part, unpaced⟩, held, hbm, ddr⟩ := h
  have level (i : Nat) : c.regLets p i = true := by
    unfold Chip.regLets
    rw [part]
    simp only [unpaced, decide_true, Bool.true_or]
  simp [Chip.dramLets, level, held, hbm, ddr]

theorem Chip.FlowsFree.of_same {p : Nat} {c d : Chip} (h : c.FlowsFree p) (parts : d.parts = c.parts) (power : d.power = c.power)
    (tiers : d.hbmUp = c.hbmUp ∧ d.ddrUp = c.ddrUp) : d.FlowsFree p where
  unpaced := by rw [Chip.part?, parts]; exact h.unpaced
  held := by rw [Chip.memHeld, power]; exact h.held
  hbm := tiers.1.trans h.hbm
  ddr := tiers.2.trans h.ddr

/-- The memory stays up where every unit that is zeroed stays so. -/
theorem tiersUp_same {c d : Chip} (sizes : d.tiers.ddrBytes = c.tiers.ddrBytes ∧ d.tiers.ddrChannels = c.tiers.ddrChannels)
    (zeroed : ∀ u, (d.tier u).zeroDone = (c.tier u).zeroDone) : d.hbmUp = c.hbmUp ∧ d.ddrUp = c.ddrUp := by
  simp only [Chip.hbmUp, Chip.ddrUp, zeroed, sizes.1, sizes.2, and_self]

theorem tierLine_flows {c : Chip} {p : Nat} (h : c.FlowsFree p) (a : Nat) (write : Bool) : (c.tierLine a write).FlowsFree p := by
  unfold Chip.tierLine
  split
  · next u bank row _ pg _ _ _ =>
    extract_lets t hit idle opened
    have zeroed (v : Nat) : (opened.tier v).zeroDone = (c.tier v).zeroDone := by
      refine (congrArg Tier.zeroDone (tabGet_tabSet _ _ u v _)).trans ?_
      split
      · next same => exact congrArg (fun v => (c.tier v).zeroDone) same
      · rfl
    have before : opened.FlowsFree p := h.of_same rfl rfl (tiersUp_same ⟨rfl, rfl⟩ zeroed)
    have counted := Chip.reports_trans (count_reports opened pg.frame (if write then 1 else 0) 1) (count_reports _ pg.frame (if hit then 5 else 6) 1)
    refine before.of_same (Chip.reports_same counted Chip.parts fun _ => rfl) (Chip.reports_same counted Chip.power fun _ => rfl) ?_
    exact ⟨Chip.reports_same counted Chip.hbmUp fun _ => rfl, Chip.reports_same counted Chip.ddrUp fun _ => rfl⟩
  · exact h

/-- Regulators that are off charge nothing. -/
theorem regTake_flows {c : Chip} {p : Nat} (h : c.FlowsFree p) (r i n : Nat) : (c.regTake r i n).FlowsFree p := by
  obtain ⟨⟨pt, part, unpaced⟩, held, hbm, ddr⟩ := h
  refine ⟨⟨pt, ?_, unpaced⟩, held, hbm, ddr⟩
  have found {t : Tab Part} : tabFind t p = some pt → tabFind (t.map (fun e => if e.1 = r then
      (e.1, if (e.2.regs.getD i (0, 0)).1 = 0 then e.2 else { e.2 with levels := listSet e.2.levels i (e.2.levels.getD i 0 - n) }) else e)) p = some pt := by
    induction t with
    | nil => exact id
    | cons e t ih =>
      intro before
      rw [tabFind] at before
      split at before
      · next own =>
        cases before
        rw [List.map_cons, if_pos (unpaced i), Prod.mk.eta, ite_self, tabFind, if_pos own]
      · next other =>
        rw [List.map_cons, tabFind]
        split_ifs <;> exact ih before
  exact found part

/-! ### What the hub does for a launch -/

/-- The chip without what the local phase changes beside launches, links and what it writes. -/
def Chip.hub (c : Chip) : Chip := { c.drill with coll.stages := [] }

/-- `d` is `c` with bytes staged, but for step gates, stage slots and what traffic and reports change; traffic of a partition still flows. -/
structure Chip.Hubs (fz : Fuses) (p : Nat) (c d : Chip) (outs : List (Nat × List Byte)) : Prop where
  wrote : Chip.Outputs fz c.hub d.hub outs
  flows : c.FlowsFree p → d.FlowsFree p

/-- A chip whose group slots, launches, links and commands are others. -/
def Chip.holding (c : Chip) (groups : Tab Group) (launches : Tab Launch) (links : Links) (cmds : List Cmd) : Chip :=
  { c with coll.groups := groups, coll.launches := launches, links := links, cmds := cmds }

namespace Chip.Hubs

variable {fz : Fuses} {p : Nat} {c d e : Chip} {outs more : List (Nat × List Byte)}

/-- What changes only what `hub` leaves out. -/
theorem of_hub (h : d.hub = c.hub) (flows : c.FlowsFree p → d.FlowsFree p) : Chip.Hubs fz p c d [] := ⟨h ▸ .refl fz _, flows⟩

theorem refl (c : Chip) : Chip.Hubs fz p c c [] := of_hub rfl id

theorem trans (h : Chip.Hubs fz p c d outs) (k : Chip.Hubs fz p d e more) : Chip.Hubs fz p c e (outs ++ more) :=
  ⟨h.wrote.trans k.wrote, fun free => k.flows (h.flows free)⟩

theorem then_quiet (h : Chip.Hubs fz p c d outs) (k : Chip.Hubs fz p d e []) : Chip.Hubs fz p c e outs := by simpa using h.trans k

/-- Group slots, launches, links and commands set on both sides. -/
theorem holding (h : Chip.Hubs fz p c d outs) (groups : Tab Group) (launches : Tab Launch) (links : Links) (cmds : List Cmd) :
    Chip.Hubs fz p (c.holding groups launches links cmds) (d.holding groups launches links cmds) outs where
  wrote := ⟨⟨congrArg (fun b : Chip => b.holding groups launches links cmds) h.wrote.bare, h.wrote.kept⟩, h.wrote.staged⟩
  flows free := (h.flows (free.of_same rfl rfl ⟨rfl, rfl⟩)).of_same rfl rfl ⟨rfl, rfl⟩

theorem of_outputs (h : Chip.Outputs fz c d outs) (flows : c.FlowsFree p → d.FlowsFree p) : Chip.Hubs fz p c d outs :=
  ⟨⟨⟨(congrArg Chip.hub h.bare :), h.kept⟩, h.staged⟩, flows⟩

theorem of_reports (h : Chip.reports c d) (hs : d.staged = c.staged) : Chip.Hubs fz p c d [] :=
  of_outputs (.of_reports h hs) fun free => free.of_same (Chip.reports_same h Chip.parts fun _ => rfl)
    (Chip.reports_same h Chip.power fun _ => rfl)
    ⟨Chip.reports_same h Chip.hbmUp fun _ => rfl, Chip.reports_same h Chip.ddrUp fun _ => rfl⟩

theorem count (c : Chip) (f n k : Nat) : Chip.Hubs fz p c (c.count f n k) [] := of_reports (count_reports c f n k) (count_staged c f n k)

theorem fire (c : Chip) (f src : Nat) : Chip.Hubs fz p c (c.fire f src) [] := of_reports (fire_reports c f src) (fire_staged c f src)

theorem nfProduced (c : Chip) : Chip.Hubs fz p c c.nfProduced [] := (count c _ _ _).trans (fire _ _ _)

theorem putGate (c : Chip) (r : Nat) (g : Gate) : Chip.Hubs fz p c (c.putGate r g) [] :=
  of_hub rfl fun free => free.of_same rfl rfl ⟨rfl, rfl⟩

theorem satBlock (c : Chip) (r : Nat) : Chip.Hubs fz p c (c.satBlock r) [] := ((putGate c r _).trans (count _ _ _ _)).trans (fire _ _ _)

theorem putStage (c : Chip) (a : Nat) (s : Stage) : Chip.Hubs fz p c (c.putStage a s) [] :=
  of_hub rfl fun free => free.of_same rfl rfl ⟨rfl, rfl⟩

theorem dramCharge (c : Chip) (r : Nat) (runs : List (Nat × Nat)) : Chip.Hubs fz p c (c.dramCharge r runs) [] :=
  of_hub rfl fun free => regTake_flows (regTake_flows free r 0 _) r 1 _

theorem tierLine (c : Chip) (a : Nat) (write : Bool) : Chip.Hubs fz p c (c.tierLine a write) [] :=
  of_outputs (.tierLine c a write) fun free => tierLine_flows free a write

/-- Steps that each write some bytes write them all, in order. -/
theorem foldl {α : Type} {g : Chip → α → Chip} {out : α → List (Nat × List Byte)} (hg : ∀ c a, Chip.Hubs fz p c (g c a) (out a))
    (l : List α) (c : Chip) : Chip.Hubs fz p c (l.foldl g c) (l.flatMap out) := by
  induction l generalizing c with
  | nil => exact refl c
  | cons a l ih => exact (hg c a).trans (ih _)

/-- Steps that write nothing write nothing together. -/
theorem quiets {α : Type} {g : Chip → α → Chip} (hg : ∀ c a, Chip.Hubs fz p c (g c a) []) (l : List α) (c : Chip) :
    Chip.Hubs fz p c (l.foldl g c) [] := by
  have := foldl (out := fun _ => []) hg l c
  rwa [show l.flatMap (fun _ => []) = ([] : List (Nat × List Byte)) by simp] at this

theorem tierReads (c : Chip) (runs : List (Nat × Nat)) : Chip.Hubs fz p c (c.tierReads runs) [] := quiets (fun c a => tierLine c a false) _ c

theorem tierWrites (c : Chip) (runs : List (Nat × Nat)) : Chip.Hubs fz p c (c.tierWrites runs) [] := quiets (fun c a => tierLine c a true) _ c

theorem wr (c : Chip) (x : Ctx) (a : Nat) (d : List Byte) : Chip.Hubs x.fuse p c (c.wr x a d) [(a, d)] := by
  refine of_outputs (.wr c x a d) fun free => ?_
  have same {α : Type} (f : Chip → α) (hf : ∀ b r, f { b with staged := [], tiers.resid := r } = f b) : f (c.wr x a d) = f c := by
    obtain ⟨r, dropped⟩ := Chip.dropResid_chip c a d.length
    have chip := Chip.wr_chip c x a d
    rw [dropped] at chip
    exact (hf (c.wr x a d) (c.wr x a d).tiers.resid).symm.trans ((congrArg f chip).trans (hf c r))
  exact free.of_same (same Chip.parts fun _ _ => rfl) (same Chip.power fun _ _ => rfl)
    ⟨same Chip.hbmUp fun _ _ => rfl, same Chip.ddrUp fun _ _ => rfl⟩

/-- One block of a first hop. -/
theorem firstBlock (r : Nat) (e0 : Int) (v : List Val) (acc : Chip × List Byte × Bool) :
    Chip.Hubs fz p acc.1 (Chip.firstBlock r e0 v acc).1 [] := by
  unfold Chip.firstBlock
  split
  · exact nfProduced _
  · dsimp only
    split
    · exact satBlock _ r
    · exact refl _

/-! What stays. -/

theorem same {α : Type} (h : Chip.Hubs fz p c d outs) (f : Chip → α) (hf : ∀ b : Chip, f b.hub.bare = f b) : f d = f c := by
  rw [← hf d, h.wrote.bare, hf c]

theorem idlePages (h : Chip.Hubs fz p c d outs) (hu : c.idlePages) : d.idlePages := h.wrote.toAlike.idlePages hu

theorem staged (h : Chip.Hubs fz p c d outs) : d.staged = c.staged ++ c.stagedOf fz outs := h.wrote.staged

end Chip.Hubs

/-- Bytes written leave a memory without bad lines so. -/
theorem commit_stagedOf_lines {m : Memory} (clean : m.lines = []) (c : Chip) (fz : Fuses) (outs : List (Nat × List Byte)) :
    (m.commit (c.stagedOf fz outs)).lines = [] := by
  have bytes : ∀ st ∈ c.stagedOf fz outs, ∃ k d, st = .bytes k d := by
    intro st hst
    obtain ⟨o, -, piece⟩ := List.mem_flatMap.mp hst
    obtain ⟨pc, -, rfl⟩ := List.mem_map.mp piece
    exact ⟨_, _, rfl⟩
  generalize c.stagedOf fz outs = ss at bytes
  induction ss generalizing m with
  | nil => exact clean
  | cons st ss ih =>
    obtain ⟨k, d, rfl⟩ := bytes st List.mem_cons_self
    refine ih ?_ fun st hst => bytes st (List.mem_cons_of_mem _ hst)
    rw [Store.apply, Memory.lines_setBytes, Memory.clearLines, clean]
    rfl

theorem Chip.Hubs.clean {x : Ctx} {p : Nat} {c d : Chip} {outs : List (Nat × List Byte)} (h : Chip.Hubs x.fuse p c d outs)
    (clean : (x.now c).mem.lines = []) : (x.now d).mem.lines = [] := by
  show (x.mem.commit d.staged).lines = []
  rw [h.staged, Memory.commit_append]
  exact commit_stagedOf_lines clean c x.fuse outs

end Sys2Proof.Machine
end

section
/-! SUPPORT. A tile of a first hop (R263, R264): the partial that it writes and sends. -/

namespace Sys2Proof.Machine

/-! ### Lists cut in chunks -/

theorem chunks_getD {α : Type} (n : Nat) (fuel : Nat) (l : List α) (i : Nat) :
    (chunks n fuel l).getD i [] = if i < fuel then (l.drop (n * i)).take n else [] := by
  induction fuel generalizing l i with
  | zero => rfl
  | succ fuel ih =>
    cases l with
    | nil => simp [chunks]
    | cons a l =>
      cases i with
      | zero => simp [chunks]
      | succ i =>
        rw [chunks, List.getD_cons_succ, ih, List.drop_drop, Nat.mul_succ, Nat.add_comm n]
        · simp
        · exact nofun

theorem chunks_getD_length {α : Type} (n fuel : Nat) (l : List α) (i : Nat) :
    ((chunks n fuel l).getD i []).length ≤ min n (l.length - n * i) := by
  rw [chunks_getD]
  split
  · rw [List.length_take, List.length_drop]
  · exact Nat.zero_le _

theorem chunks_length {α : Type} {n : Nat} (pos : 0 < n) {fuel : Nat} {l : List α} (enough : l.length ≤ n * fuel) :
    (chunks n fuel l).length = ceilDiv l.length n := by
  induction fuel generalizing l with
  | zero =>
    have : l.length = 0 := by omega
    rw [this, chunks, List.length_nil, ceilDiv, Nat.div_eq_of_lt (by omega)]
  | succ fuel ih =>
    cases l with
    | nil =>
      rw [List.length_nil, ceilDiv, Nat.zero_add, Nat.div_eq_of_lt (by omega)]
      rfl
    | cons a l =>
      rw [chunks, List.length_cons, ih (by rw [List.length_drop]; rw [Nat.mul_succ] at enough; omega), List.length_drop]
      · unfold ceilDiv
        rcases Nat.le_total (a :: l).length n with short | long
        · have one : ((a :: l).length + (n - 1)) / n = 1 := by
            apply Nat.div_eq_of_lt_le <;> simp only [List.length_cons] at * <;> omega
          rw [one, Nat.sub_eq_zero_of_le short, Nat.div_eq_of_lt (by omega)]
        · rw [← Nat.add_div_right _ pos]
          congr 1
          omega
      · exact nofun

/-! ### The blocks of a first hop -/

theorem encode0_size (v : List Val) (e : Int) : (encode0 v e).1.bytes.length = 2 + v.length := by
  unfold encode0 pb8Encode
  dsimp only
  split <;> simp [Pb8.bytes]

theorem firstBlock_size (p : Nat) (e0 : Int) {v : List Val} (short : v.length ≤ 32) (acc : Chip × List Byte × Bool) :
    (Chip.firstBlock p e0 v acc).2.1.length ≤ acc.2.1.length + 34 := by
  unfold Chip.firstBlock
  split
  · simp [nfBlock, Pb8.bytes]
  · rw [List.length_append, encode0_size]
    omega

/-- The blocks of a tile: at most 34 bytes each, and no byte of memory yet. -/
theorem firstBlocks_form {fz : Fuses} {r p : Nat} {e0 : Int} {c : Chip} {nf : Bool} (v : Nat → List Val) (short : ∀ i, (v i).length ≤ 32) (nb : Nat) :
    let go := (List.range nb).foldl (fun acc i => Chip.firstBlock p e0 (v i) acc) (c, [], nf)
    Chip.Hubs fz r c go.1 [] ∧ go.2.1.length ≤ 34 * nb := by
  intro go
  have formed := foldl_invariant (fun front (acc : Chip × List Byte × Bool) => Chip.Hubs fz r c acc.1 [] ∧ acc.2.1.length ≤ 34 * front.length)
    (g := fun acc i => Chip.firstBlock p e0 (v i) acc) (b := (c, [], nf)) ⟨.refl c, Nat.le_refl 0⟩ (fun front i acc before => ?_) (List.range nb)
  · rwa [List.length_range] at formed
  · obtain ⟨hubs, size⟩ := before
    have more := firstBlock_size p e0 (short i) acc
    exact ⟨hubs.trans (.firstBlock p e0 (v i) acc), by rw [List.length_append, List.length_singleton]; omega⟩

/-! ### A partial sent (R262) -/

/-- One packet is queued, and the links change, and reports. -/
theorem sendPartial_hubs (fz : Fuses) (r : Nat) (c : Chip) (l : Launch) (q : Group) (id t : Nat) (d : List Byte) :
    ∃ lk, lk.out.length = c.links.out.length + 1 ∧
      Chip.Hubs fz r (c.holding c.coll.groups c.coll.launches lk c.cmds) (c.sendPartial l q id t d) [] := by
  refine ⟨_, ?_, (Chip.Hubs.count _ _ _ _).trans (.count _ _ _ _)⟩
  exact List.length_append

theorem setTile_found {c : Chip} {id : Nat} {l : Launch} (found : tabFind c.coll.launches id = some l) (t : Nat) (v : Tile) :
    c.setTile id t v = c.holding c.coll.groups (tabSet c.coll.launches id { l with tiles := listSet l.tiles t v }) c.links c.cmds := by
  unfold Chip.setTile
  rw [found]
  rfl

/-- A partial is written to its retained copy, and sent, where no perturbation holds it back (R261, R262). -/
theorem outPartial_sent {c : Chip} {id : Nat} {m : Launch} (idle : c.idlePages) (found : tabFind c.coll.launches id = some m) (x : Ctx) (r : Nat)
    (l : Launch) (q : Group) (t : Nat) (d : List Byte) :
    ∃ lk, lk.out.length = c.links.out.length + 1 ∧ Chip.Hubs x.fuse r
      (c.holding c.coll.groups (tabSet c.coll.launches id { m with tiles := listSet m.tiles t .sent }) lk c.cmds) (c.outPartial x l q id t d)
      [(l.stage + 16384 * t + 10432, d)] := by
  obtain ⟨w, wrote⟩ : ∃ w, w = c.wr x (l.stage + 16384 * t + 10432) d := ⟨_, rfl⟩
  have written : Chip.Hubs x.fuse r c w [(l.stage + 16384 * t + 10432, d)] := wrote ▸ .wr c x _ d
  have unarmed : ((w.hdr collFrame).pert.armed 6 (some l.part) && decide (bitField (w.hdr collFrame).pert.late.toNat 31 16 = t)) = false := by
    rw [Pert.armed, written.idlePages idle collFrame]
    rfl
  obtain ⟨lk, queued, sends⟩ := sendPartial_hubs x.fuse r w l q id t d
  have links : w.links = c.links := written.same Chip.links fun _ => rfl
  have sent : Chip.Hubs x.fuse r (c.holding c.coll.groups c.coll.launches lk c.cmds) (w.sendPartial l q id t d)
      [(l.stage + 16384 * t + 10432, d)] := by
    have same : w.coll.groups = c.coll.groups ∧ w.coll.launches = c.coll.launches ∧ w.cmds = c.cmds :=
      ⟨written.same (fun b => b.coll.groups) fun _ => rfl, written.same (fun b => b.coll.launches) fun _ => rfl, written.same Chip.cmds fun _ => rfl⟩
    rw [same.1, same.2.1, same.2.2] at sends
    exact (written.holding _ _ lk _).then_quiet sends
  unfold Chip.outPartial
  dsimp only
  rw [← wrote, if_neg (by rw [unarmed]; exact Bool.false_ne_true)]
  generalize w.sendPartial l q id t d = e at sent
  have launches : e.coll.launches = c.coll.launches := sent.same (fun b => b.coll.launches) fun _ => rfl
  rw [setTile_found (launches ▸ found), launches, show e.coll.groups = c.coll.groups from sent.same (fun b => b.coll.groups) fun _ => rfl,
    show e.links = lk from sent.same Chip.links fun _ => rfl, show e.cmds = c.cmds from sent.same Chip.cmds fun _ => rfl]
  exact ⟨lk, queued.trans (by rw [links]), sent.holding _ _ lk _⟩

/-- A launch is replaced, and its partial sent. -/
theorem Chip.Hubs.putLaunch_sent {c d : Chip} {x : Ctx} {r : Nat} (made : Chip.Hubs x.fuse r c d []) (idle : c.idlePages) (id : Nat) (l : Launch)
    (q : Group) (t : Nat) (b : List Byte) :
    ∃ lk, lk.out.length = c.links.out.length + 1 ∧ Chip.Hubs x.fuse r
      (c.holding c.coll.groups (tabSet c.coll.launches id { l with tiles := listSet l.tiles t .sent }) lk c.cmds)
      ((d.putLaunch id l).outPartial x l q id t b) [(l.stage + 16384 * t + 10432, b)] := by
  obtain ⟨lk, queued, sent⟩ := outPartial_sent (c := d.putLaunch id l) (id := id) (m := l) (made.idlePages idle)
    ((tabFind_tabSet _ _ _ _).trans (if_pos rfl)) x r l q t b
  have launches : tabSet (d.putLaunch id l).coll.launches id { l with tiles := listSet l.tiles t .sent } =
      tabSet c.coll.launches id { l with tiles := listSet l.tiles t .sent } := by
    refine (tabSet_tabSet _ _ _ _).trans ?_
    rw [made.same (fun b => b.coll.launches) fun _ => rfl]
  have groups : (d.putLaunch id l).coll.groups = c.coll.groups := made.same (fun b => b.coll.groups) fun _ => rfl
  have cmds : (d.putLaunch id l).cmds = c.cmds := made.same Chip.cmds fun _ => rfl
  have links : (d.putLaunch id l).links = c.links := made.same Chip.links fun _ => rfl
  rw [launches, groups, cmds] at sent
  exact ⟨lk, queued.trans (by rw [links]), (made.holding _ _ lk _).trans sent⟩

/-! ### A tile of a first hop runs -/

/-- A waiting tile of a first hop whose traffic flows writes its partial, sends it and is SENT. -/
theorem runTile_first {c : Chip} {x : Ctx} {id t : Nat} {k : Cmd} {l : Launch} {q : Group} (he : x.ecc = []) (clean : (x.now c).mem.lines = [])
    (idle : c.idlePages) (flow : c.FlowsFree l.part) (cmd : c.cmd? id = some k) (running : k.phase = .running)
    (found : tabFind c.coll.launches id = some l) (group : tabFind c.coll.groups l.group = some q) (inner : 2 ≤ q.g) (first : l.hop = 0)
    (waiting : l.tiles[t]? = some .waiting) :
    ∃ nf lk bytes, bytes.length ≤ 34 * (min 2048 (k.launchElems - 2048 * t) / 32) ∧ lk.out.length = c.links.out.length + 1 ∧
      Chip.Hubs x.fuse l.part (c.holding c.coll.groups (tabSet c.coll.launches id { l with tiles := listSet l.tiles t .sent, nf := nf }) lk c.cmds)
        (Chip.runTile x c id t) [(l.stage + 16384 * t + 10432, bytes)] := by
  have inside : l.hop ≠ q.g - 1 := by omega
  unfold Chip.runTile
  split
  next k' l' cmd' found' =>
    cases Option.some.inj (cmd.symm.trans cmd')
    cases Option.some.inj (found.symm.trans found')
    split
    next none => exact nomatch group.symm.trans none
    next q' group' =>
      cases Option.some.inj (group.symm.trans group')
      extract_lets p a s e8 n nb got closes fold runs final outs y r charged beats xs fv shut begun go l' ePrev
      have lets : ¬ (l.tiles[t]? ≠ some .waiting || k.phase ≠ .running || !(l.hop = 0 || got || closes) ||
          !(c.dramLets p runs && c.dramLets p outs)) = true := by
        simp [waiting, running, first, p, flow.lets]
      have read : r = (c.tierReads (runs ++ partRuns outs), none) := readRuns_good y _ _ c clean he
      have before : Chip.Hubs x.fuse p c begun [] := by
        have paid : Chip.Hubs x.fuse p c charged [] := by
          dsimp only [charged]
          rw [coverRuns_good y _ _ clean, read]
          exact (Chip.Hubs.tierReads c _).trans ((Chip.Hubs.dramCharge _ p runs).trans (.dramCharge _ p outs))
        dsimp only [begun, beats]
        rw [if_pos first]
        exact paid.then_quiet (.putStage _ _ _)
      have short (i : Nat) : (match fv i with
          | some f => List.zipWith Val.add (xs.getD i []) f
          | none => xs.getD i []).length ≤ 32 := by
        have row : (xs.getD i []).length ≤ 32 := Nat.le_trans (chunks_getD_length _ _ _ _) (Nat.min_le_left _ _)
        split
        · rw [List.length_zipWith]
          omega
        · exact row
      have formed : Chip.Hubs x.fuse p begun go.1 [] ∧ go.2.1.length ≤ 34 * nb := firstBlocks_form _ short nb
      obtain ⟨hubs, size⟩ := formed
      rw [if_neg lets, if_neg (by simp [final, inside]), read]
      dsimp only
      rw [if_pos first]
      obtain ⟨lk, queued, sent⟩ := (before.trans hubs).putLaunch_sent (x := y) idle id l' q t go.2.1
      exact ⟨go.2.2, lk, go.2.1, size, queued, sent⟩
  next none => exact (none k l cmd found).elim

theorem listSet_waiting {j n : Nat} (more : j < n) :
    listSet (List.replicate j Tile.sent ++ List.replicate (n - j) Tile.waiting) j .sent =
      List.replicate (j + 1) Tile.sent ++ List.replicate (n - (j + 1)) Tile.waiting := by
  obtain ⟨m, rfl⟩ : ∃ m, n = j + 1 + m := ⟨n - (j + 1), by omega⟩
  rw [show j + 1 + m - j = m + 1 by omega, Nat.add_sub_cancel_left]
  induction j with
  | zero => rfl
  | succ j ih => exact congrArg (Tile.sent :: ·) (ih (by omega))

/-- So do the first tiles of a launch, one after another. -/
theorem runTiles_first {c : Chip} {x : Ctx} {id n : Nat} {k : Cmd} {l : Launch} {q : Group} {table : Tab Launch} (he : x.ecc = [])
    (clean : (x.now c).mem.lines = []) (idle : c.idlePages) (flow : c.FlowsFree l.part) (cmd : c.cmd? id = some k) (running : k.phase = .running)
    (set : c.coll.launches = tabSet table id l) (group : tabFind c.coll.groups l.group = some q) (inner : 2 ≤ q.g) (first : l.hop = 0)
    (waiting : l.tiles = List.replicate n .waiting) {j : Nat} (hj : j ≤ n) :
    ∃ nf lk outs, lk.out.length = c.links.out.length + j ∧
      (∀ o ∈ outs, ∃ t < j, o.1 = l.stage + 16384 * t + 10432 ∧ o.2.length ≤ 34 * (min 2048 (k.launchElems - 2048 * t) / 32)) ∧
      Chip.Hubs x.fuse l.part (c.holding c.coll.groups (tabSet table id
        { l with tiles := List.replicate j .sent ++ List.replicate (n - j) .waiting, nf := nf }) lk c.cmds)
        ((List.range j).foldl (fun c t => Chip.runTile x c id t) c) outs := by
  induction j with
  | zero =>
    refine ⟨l.nf, c.links, [], rfl, nofun, ?_⟩
    have same : ({ l with tiles := List.replicate 0 .sent ++ List.replicate (n - 0) .waiting, nf := l.nf } : Launch) = l :=
      congrArg (fun tiles => { l with tiles := tiles }) waiting.symm
    rw [same, ← set]
    exact .refl c
  | succ j ih =>
    obtain ⟨nf, lk, outs, queued, partials, hubs⟩ := ih (by omega)
    rw [List.range_succ, List.foldl_append, List.foldl_cons, List.foldl_nil]
    generalize (List.range j).foldl (fun c t => Chip.runTile x c id t) c = d at hubs ⊢
    have launches : d.coll.launches =
        tabSet table id { l with tiles := List.replicate j .sent ++ List.replicate (n - j) .waiting, nf := nf } :=
      hubs.same (fun b => b.coll.launches) fun _ => rfl
    have groups : d.coll.groups = c.coll.groups := hubs.same (fun b => b.coll.groups) fun _ => rfl
    have cmds : d.cmds = c.cmds := hubs.same Chip.cmds fun _ => rfl
    have links : d.links = lk := hubs.same Chip.links fun _ => rfl
    have found : tabFind d.coll.launches id =
        some { l with tiles := List.replicate j .sent ++ List.replicate (n - j) .waiting, nf := nf } :=
      (congrArg (tabFind · id) launches).trans ((tabFind_tabSet _ _ _ _).trans (if_pos rfl))
    have next : (List.replicate j Tile.sent ++ List.replicate (n - j) Tile.waiting)[j]? = some .waiting := by
      rw [List.getElem?_append_right (by simp), List.length_replicate, Nat.sub_self, List.getElem?_replicate, if_pos (by omega)]
    obtain ⟨nf', lk', bytes, size, more, sent⟩ := runTile_first (q := q)
      (l := { l with tiles := List.replicate j .sent ++ List.replicate (n - j) .waiting, nf := nf }) he (hubs.clean clean) (hubs.idlePages idle)
      (hubs.flows (flow.of_same rfl rfl ⟨rfl, rfl⟩)) ((Chip.cmd?_congr cmds id).trans cmd) running found (by rw [groups]; exact group) inner
      first next
    rw [launches, tabSet_tabSet, groups, cmds, listSet_waiting hj] at sent
    refine ⟨nf', lk', outs ++ [(l.stage + 16384 * j + 10432, bytes)], by rw [more, links, queued, Nat.add_assoc], fun o ho => ?_, (hubs.holding _ _ lk' _).trans sent⟩
    rcases List.mem_append.mp ho with ho | ho
    · obtain ⟨t, early, form⟩ := partials o ho
      exact ⟨t, by omega, form⟩
    · cases List.mem_singleton.mp ho
      exact ⟨j, by omega, rfl, size⟩

end Sys2Proof.Machine
end

section
/-! SUPPORT. The local phase of a first hop as a whole (R260). -/

namespace Sys2Proof.Machine

/-- Memory in which a step's staged runs have been committed, some of them to be read back, the others within runs left open. -/
theorem State.stores_beside {s t : State} (h : s.sound) {outs others : List (Nat × List Byte)} {open_ : List (Nat × Nat)}
    (hm : t.mem = s.mem.commit (s.chip.stagedOf s.fuse (outs ++ others)))
    (inside : ∀ o ∈ others, ∃ u ∈ open_, o.1 = u.1 ∧ o.2.length ≤ u.2) : s.stores t outs open_ := by
  intro stored
  have written : ∀ o ∈ outs, ∀ i < o.2.length, mapped (o.1 + i) := fun o ho i hi =>
    stored_mapped (stored (o.1, o.2.length) (List.mem_append_right _ (List.mem_map.mpr ⟨o, ho, rfl⟩)) (by omega)) hi
  have left : ∀ o ∈ others, ∀ i < o.2.length, mapped (o.1 + i) := fun o ho i hi => by
    obtain ⟨u, hu, start, size⟩ := inside o ho
    rw [start]
    exact stored_mapped (stored u (List.mem_append_left _ hu) (by omega)) (by omega)
  rw [hm, stagedOf_append, Memory.commit_append]
  have wf := Memory.wf_commit h.1 (s.chip.stagedOf s.fuse outs)
  refine ⟨fun j hj => ?_, fun separate o ho i hi => ?_⟩
  · refine (commit_stagedOf_kept wf left fun o ho i hi e => hj ?_).trans (commit_stagedOf_kept h.1 written fun o ho i hi e => hj ?_)
    · obtain ⟨u, hu, start, size⟩ := inside o ho
      exact ⟨u, List.mem_append_right _ hu, i, by omega, start ▸ e⟩
    · exact ⟨(o.1, o.2.length), List.mem_append_left _ (List.mem_map.mpr ⟨o, ho, rfl⟩), i, hi, e⟩
  · obtain ⟨apart, inner⟩ := separate
    obtain ⟨-, among, between⟩ := List.pairwise_append.mp apart
    refine (commit_stagedOf_kept wf left fun e he j hj => ?_).trans
      (commit_stagedOf_read h.1 written ⟨among, fun r hr => inner r (List.mem_append_right _ hr)⟩ o ho i hi)
    obtain ⟨u, hu, start, size⟩ := inside e he
    rw [start]
    exact between u hu (o.1, o.2.length) (List.mem_map.mpr ⟨o, ho, rfl⟩) j (by omega) i hi

/-! ### What a local phase makes -/

/-- The words of a launch's source. -/
def Chip.sourceWords (c : Chip) (x : Ctx) (k : Cmd) : List Nat :=
  k.launchSource.flatMap (fun u => (List.range (u.2 / 4)).map (fun i => c.rdNat x (u.1 + 4 * i) 4))

theorem sourceWords_length (c : Chip) (x : Ctx) (k : Cmd) : (c.sourceWords x k).length = k.launchElems := by
  simp [Chip.sourceWords, Cmd.launchSource, Cmd.launchElems, List.length_flatMap, Function.comp_def]

/-- The zeros that a local phase leaves in its source. -/
def Cmd.sourceZeros (k : Cmd) : List (Nat × List Byte) := k.launchSource.map (fun u => (u.1, List.replicate u.2 0))

theorem sourceZeros_written (p : Nat) (c : Chip) (x : Ctx) (k : Cmd) :
    Chip.Hubs x.fuse p c (k.launchSource.foldl (fun c u => c.wr x u.1 (List.replicate u.2 0)) c) k.sourceZeros := by
  have wrote := Chip.Hubs.foldl (p := p) (out := fun u => [(u.1, List.replicate u.2 0)]) (fun c u => .wr c x u.1 (List.replicate u.2 0)) k.launchSource c
  rwa [← List.map_eq_flatMap] at wrote

/-- The bytes of a tile's words. -/
def tileBytes (tiles : List (List Nat)) (t : Nat) : List Byte := (tiles.getD t []).flatMap (leBytes 4)

theorem tileBytes_length (tiles : List (List Nat)) (t : Nat) : (tileBytes tiles t).length = 4 * (tiles.getD t []).length := by
  simp [tileBytes, List.length_flatMap, mul_comm]

/-- The words of a tile written to its stage slot, which opens (R260). -/
def Chip.seedTile (x : Ctx) (stage : Nat) (tiles : List (List Nat)) (c : Chip) (t : Nat) : Chip :=
  let a := stage + 16384 * t
  ((c.wr x (a + 64) (tileBytes tiles t)).tierWrites [(a + 64, (tileBytes tiles t).length)]).putStage a { c.stageAt a with opened := true, repeats := 0 }

theorem seedTile_gates (x : Ctx) (stage : Nat) (tiles : List (List Nat)) (c : Chip) (t : Nat) : (c.seedTile x stage tiles t).gates = c.gates :=
  (putStage_gates _ _ _).trans ((tierWrites_gates _ _).trans (wr_gates c x _ _))

theorem seedTiles_written (p : Nat) (c : Chip) (x : Ctx) (stage : Nat) (tiles : List (List Nat)) (n : Nat) :
    Chip.Hubs x.fuse p c ((List.range n).foldl (Chip.seedTile x stage tiles) c)
      ((List.range n).map (fun t => (stage + 16384 * t + 64, tileBytes tiles t))) := by
  rw [List.map_eq_flatMap]
  exact .foldl (fun c t => ((Chip.Hubs.wr c x _ _).then_quiet (.tierWrites _ _)).then_quiet (.putStage _ _ _)) _ c

/-- The launch that a local phase begins. -/
def Cmd.launched (k : Cmd) (q : Group) (g : Gate) (p : Nat) (nf : Bool) : Launch :=
  { e0 := clampInt (q.base.getD q.eInit + q.ls.getD g.ls + k.sfld 18) (-149) 104, epoch := g.epoch, group := k.fld 16 1
    stage := q.stageBase + k.fld 32 4, hop := (q.member + 2 * q.g - k.fld 20 2 - 1) % q.g, part := p
    tiles := List.replicate (ceilDiv k.launchElems 2048) .waiting, nf := nf }

/-- That launch with every partial sent. -/
def Cmd.allSent (k : Cmd) (q : Group) (g : Gate) (p : Nat) (nf : Bool) : Launch :=
  { k.launched q g p nf with tiles := List.replicate (ceilDiv k.launchElems 2048) .sent }

/-! ### A launch at the first of its hops -/

/-- A launch that is the only one to run, at the first of its hops, and nothing holds its local phase. -/
structure Chip.BeginsLaunch (c : Chip) (k : Cmd) (q : Group) : Prop where
  runs : c.runs k.id 0x71 k
  stage : k.stage = 1
  resident : ∃ pt, c.part? (c.own k) = some pt ∧ pt.state = .resident
  group : tabFind c.coll.groups (k.fld 16 1) = some q
  unheld : c.accumHeld k (k.fld 19 1) = false
  flows : c.FlowsFree (c.own k)
  inner : 2 ≤ q.g
  first : (q.member + 2 * q.g - k.fld 20 2 - 1) % q.g = 0
  filled : 0 < k.launchElems
  only : ∀ j ∈ c.cmds, j.phase = .running → j.opcode = 0x71 ∨ j.opcode = 0x21 → j.id = k.id

/-- It stays the only one when it goes on. -/
theorem Chip.BeginsLaunch.alone {c : Chip} {k : Cmd} {q : Group} (h : c.BeginsLaunch k q) (a : Acct) :
    ∀ j ∈ (c.putCmd { k with stage := 2, acct := a }).cmds, j.phase = .running → j.opcode = 0x71 ∨ j.opcode = 0x21 →
      j.id = k.id ∧ j.opcode = 0x71 := by
  intro j hj running which
  rcases mem_putCmd hj with rfl | ⟨mem, other⟩
  · exact ⟨rfl, h.runs.2.1⟩
  · exact absurd (h.only j mem running which) other

/-- It has a tile. -/
theorem Chip.BeginsLaunch.tiled {c : Chip} {k : Cmd} {q : Group} (h : c.BeginsLaunch k q) : ceilDiv k.launchElems 2048 ≠ 0 := by
  have := h.filled
  unfold ceilDiv
  omega

/-- The group with its E_0 latched (R257). -/
def Cmd.latched (k : Cmd) (q : Group) (g : Gate) : Group :=
  { q with e0 := clampInt (q.base.getD q.eInit + q.ls.getD g.ls + k.sfld 18) (-149) 104 }

/-- What a local phase writes besides: words and partials of its tiles (R260, R261). -/
def Cmd.tileRuns (k : Cmd) (stage : Nat) : List (Nat × Nat) :=
  (List.range (ceilDiv k.launchElems 2048)).flatMap (fun j =>
    [(stage + 16384 * j + 64, 4 * min 2048 (k.launchElems - 2048 * j)), (stage + 16384 * j + 10432, 34 * (min 2048 (k.launchElems - 2048 * j) / 32))])

/-- The one launch that runs, with a tile not done, is not closed, and no seal is there to go on. -/
theorem closeLaunches_alone {c : Chip} {id : Nat} {l : Launch} (only : ∀ j ∈ c.cmds, j.phase = .running → j.opcode = 0x71 → j.id = id)
    (found : tabFind c.coll.launches id = some l) {u : Tile} (mem : u ∈ l.tiles) (undone : u ≠ .done) (x : Ctx) (grp : Nat) :
    Chip.closeLaunches x c grp = c := by
  refine foldl_idle fun i hi => ?_
  obtain ⟨j, hj, running, opcode, -, -, rfl⟩ := mem_launchesOf.mp hi
  rw [only j hj running opcode]
  exact closeLaunch_open found mem undone x

/-- What follows the tiles of a local phase: launches and seals that can go on do (R216, R259). -/
def Chip.localEnds (x : Ctx) (p grp : Nat) (c : Chip) : Chip :=
  let c := Chip.closeLaunches x c grp
  if c.cmds.any (c.runningOp p 0x21) then
    (c.cmds.filter (c.runningOp p 0x21)).foldl (fun c j => if j.stage = 1 && c.sealFree p j then c.enterReducing p else c) c
  else c

/-- Where one launch runs, with a tile that is not done, and no seal, none can. -/
theorem localEnds_alone {c : Chip} {id : Nat} {l : Launch}
    (only : ∀ j ∈ c.cmds, j.phase = .running → j.opcode = 0x71 ∨ j.opcode = 0x21 → j.id = id ∧ j.opcode = 0x71)
    (found : tabFind c.coll.launches id = some l) {u : Tile} (mem : u ∈ l.tiles) (undone : u ≠ .done) (x : Ctx) (p grp : Nat) :
    Chip.localEnds x p grp c = c := by
  have sealless : c.cmds.any (c.runningOp p 0x21) = false := by
    refine List.any_eq_false.mpr fun j hj runs => ?_
    obtain ⟨running, opcode, -⟩ := (runningOp_iff c p 0x21 j).mp runs
    have launch := (only j hj running (.inr opcode)).2
    exact absurd (opcode.symm.trans launch) (by decide)
  unfold Chip.localEnds
  dsimp only
  rw [closeLaunches_alone (fun j hj running opcode => (only j hj running (.inl opcode)).1) found mem undone, sealless, if_neg Bool.false_ne_true]

/-- The chip in which the tiles of a local phase begin to run. -/
def Chip.launching (c : Chip) (k : Cmd) (q : Group) (nf : Bool) (a : Acct) : Chip :=
  c.holding (tabSet c.coll.groups (k.fld 16 1) (k.latched q (c.gate (c.own k))))
    (tabSet c.coll.launches k.id (k.launched q (c.gate (c.own k)) (c.own k) nf)) c.links (c.putCmd { k with stage := 2, acct := a }).cmds

/-- A local phase reads and zeroes its source, writes the words of its tiles, latches E_0 and lets the tiles run (R257, R260). -/
theorem localPhase_begins {c : Chip} {x : Ctx} {env : Env} {k : Cmd} {q : Group} (he : x.ecc = []) (clean : x.mem.lines = [])
    (idle : c.idlePages) (calm : env.upsets = []) (h : c.BeginsLaunch k q) :
    ∃ nf a words begun, Chip.Hubs x.fuse (c.own k) (c.launching k q nf a) begun (k.sourceZeros ++ words) ∧
      (∀ o ∈ words, ∃ t < ceilDiv k.launchElems 2048, o.1 = q.stageBase + k.fld 32 4 + 16384 * t + 64 ∧
        o.2.length ≤ 4 * min 2048 (k.launchElems - 2048 * t)) ∧
      Chip.localPhase x env c k = Chip.localEnds x (c.own k) (k.fld 16 1)
        ((List.range (ceilDiv k.launchElems 2048)).foldl (fun c t => Chip.runTile x c k.id t) begun) := by
  obtain ⟨pt, part, resident⟩ := h.resident
  unfold Chip.localPhase
  rw [calm, Chip.upset_nil, upset_none]
  extract_lets p cell grp n u y runs r read inj ws tiles acct
  have reads : r = (c.tierReads runs, none) := readRuns_good x _ _ c clean he
  have looked : Chip.Hubs x.fuse p c r.1 [] := reads ▸ .tierReads c runs
  have plain : inj = none := nfInject_off (looked.idlePages idle) _ _ _
  have words : ws.length = k.launchElems := by
    dsimp only [ws]
    rw [plain]
    exact sourceWords_length c x k
  have count : tiles.length = ceilDiv k.launchElems 2048 := by
    dsimp only [tiles]
    rw [chunks_length (by decide) (by omega), words]
  have sizes (t : Nat) : (tileBytes tiles t).length ≤ 4 * min 2048 (k.launchElems - 2048 * t) := by
    rw [tileBytes_length, ← words]
    exact Nat.mul_le_mul_left 4 (chunks_getD_length _ _ _ _)
  split
  next pt' q' part' group' =>
    cases Option.some.inj (part.symm.trans part')
    cases Option.some.inj (h.group.symm.trans group')
    extract_lets areas charged base zeroed seeded e0 coll bound launched begun ran closed
    have charges : charged = (c.tierReads runs).dramCharge p areas := by
      dsimp only [charged]
      rw [plain, reads]
      rfl
    have paid : Chip.Hubs x.fuse p c charged [] := charges ▸ (Chip.Hubs.tierReads c runs).trans (.dramCharge _ p areas)
    have filled : Chip.Hubs x.fuse p c seeded (k.sourceZeros ++ (List.range tiles.length).map (fun t => (base + 16384 * t + 64, tileBytes tiles t))) :=
      (paid.trans (sourceZeros_written p charged x k)).trans (seedTiles_written p zeroed x base tiles tiles.length)
    have gates : seeded.gates = c.gates := by
      have seeds : seeded.gates = zeroed.gates := foldl_gates (seedTile_gates x base tiles) _ _
      have zeros : zeroed.gates = charged.gates := foldl_gates (fun c u => wr_gates c x _ _) _ _
      have read : r.1.gates = c.gates := readRuns_gates (x := x) he _ _ c
      rw [seeds, zeros, charges, dramCharge_gates, ← read, reads]
    have gate : seeded.gate p = c.gate p := by rw [Chip.gate, gates, Chip.gate]
    have same {α : Type} (f : Chip → α) (hf : ∀ b : Chip, f b.hub.bare = f b) : f seeded = f c := filled.same f hf
    have holds : begun = seeded.holding (tabSet c.coll.groups grp (k.latched q (c.gate p)))
        (tabSet c.coll.launches k.id (k.launched q (c.gate p) p (ws.any fun b => f32.nonFinite b))) c.links
        (c.putCmd { k with
          stage := 2, acct := { acct with beats := k.acct.beats + ceilDiv (4 * n) 1024 + env.feed + env.drain } }).cmds := by
      rw [← gate, ← same (fun b => b.coll.groups) fun _ => rfl, ← same (fun b => b.coll.launches) fun _ => rfl,
        ← same Chip.links fun _ => rfl, Chip.putCmd, ← same Chip.cmds fun _ => rfl, Cmd.launched, ← count]
      rfl
    have lets : ¬ (k.stage ≠ 1 || pt.state ≠ .resident || c.accumHeld k cell || !c.dramLets p areas) = true := by
      have flows : c.dramLets p areas = true := h.flows.lets areas
      have unheld : c.accumHeld k cell = false := h.unheld
      simp [h.stage, resident, unheld, flows]
    refine ⟨_, _, _, begun, holds ▸ filled.holding _ _ _ _, fun o ho => ?_, ?_⟩
    · obtain ⟨t, ht, rfl⟩ := List.mem_map.mp ho
      exact ⟨t, count ▸ List.mem_range.mp ht, rfl, sizes t⟩
    · rw [if_neg lets, reads, ← count]
      rfl
  next none => exact (none pt q part h.group).elim

/-- The local phase of a first hop leaves its launch with every tile SENT, one partial each. -/
theorem localPhase_first {c : Chip} {x : Ctx} {env : Env} {k : Cmd} {q : Group} (he : x.ecc = []) (clean : x.mem.lines = [])
    (unstaged : c.staged = []) (idle : c.idlePages) (calm : env.upsets = []) (h : c.BeginsLaunch k q) :
    ∃ nf lk a others, lk.out.length = c.links.out.length + ceilDiv k.launchElems 2048 ∧
      (∀ o ∈ others, ∃ u ∈ k.tileRuns (q.stageBase + k.fld 32 4), o.1 = u.1 ∧ o.2.length ≤ u.2) ∧
      Chip.Hubs x.fuse (c.own k) (c.holding (tabSet c.coll.groups (k.fld 16 1) (k.latched q (c.gate (c.own k))))
        (tabSet c.coll.launches k.id (k.allSent q (c.gate (c.own k)) (c.own k) nf)) lk
        (c.putCmd { k with stage := 2, acct := a }).cmds) (Chip.localPhase x env c k) (k.sourceZeros ++ others) := by
  obtain ⟨nf, a, words, begun, started, inside, phase⟩ := localPhase_begins he clean idle calm h
  set w := k.launched q (c.gate (c.own k)) (c.own k) nf
  have whole : (x.now begun).mem.lines = [] := started.clean (by
    show (x.mem.commit c.staged).lines = []
    rw [unstaged]
    exact clean)
  have cmds : begun.cmds = (c.putCmd { k with stage := 2, acct := a }).cmds := started.same Chip.cmds fun _ => rfl
  have groups : begun.coll.groups = tabSet c.coll.groups (k.fld 16 1) (k.latched q (c.gate (c.own k))) :=
    started.same (fun b => b.coll.groups) fun _ => rfl
  have links : begun.links = c.links := started.same Chip.links fun _ => rfl
  obtain ⟨nf', lk, partials, queued, forms, ran⟩ := runTiles_first (c := begun) (l := w)
    (q := k.latched q (c.gate (c.own k))) (table := c.coll.launches) he whole
    (started.idlePages idle) (started.flows (h.flows.of_same rfl rfl ⟨rfl, rfl⟩))
    ((Chip.cmd?_congr cmds k.id).trans (Chip.cmd?_putCmd h.runs.1 rfl)) h.runs.2.2
    (started.same (fun b => b.coll.launches) fun _ => rfl)
    (by rw [groups]; exact (tabFind_tabSet _ _ _ _).trans (if_pos rfl)) h.inner h.first rfl (Nat.le_refl _)
  rw [Nat.sub_self, List.replicate_zero, List.append_nil, groups, cmds] at ran
  have both := (started.holding _ _ lk _).trans ran
  rw [List.append_assoc] at both
  rw [phase]
  generalize (List.range (ceilDiv k.launchElems 2048)).foldl (fun c t => Chip.runTile x c k.id t) begun = e at both
  refine ⟨nf', lk, a, words ++ partials, by rw [queued, links], fun o ho => ?_, ?_⟩
  · rcases List.mem_append.mp ho with word | partial_
    · obtain ⟨t, ht, start, size⟩ := inside o word
      exact ⟨_, List.mem_flatMap.mpr ⟨t, List.mem_range.mpr ht, List.mem_cons_self⟩, start, size⟩
    · obtain ⟨t, ht, start, size⟩ := forms o partial_
      exact ⟨_, List.mem_flatMap.mpr ⟨t, List.mem_range.mpr ht, List.mem_cons_of_mem _ List.mem_cons_self⟩, start, size⟩
  · have cmds' : e.cmds = (c.putCmd { k with stage := 2, acct := a }).cmds := both.same Chip.cmds fun _ => rfl
    have found : tabFind e.coll.launches k.id = some (k.allSent q (c.gate (c.own k)) (c.own k) nf') :=
      (congrArg (tabFind · k.id) (both.same (fun b => b.coll.launches) fun _ => rfl)).trans ((tabFind_tabSet _ _ _ _).trans (if_pos rfl))
    rw [localEnds_alone (by rw [cmds']; exact h.alone a) found (List.mem_replicate.mpr ⟨h.tiled, rfl⟩) (by decide)]
    exact both

end Sys2Proof.Machine
end

section
/-! SUPPORT. Collective commands (R254, R257, R259, R260, R270, R275): the statement. -/

namespace Sys2Proof.Machine

/-- Settles O43: a group slot, a launch and a gather end as their rules say and stage nothing; the local phase of a first hop stages the zeros of its
source beside the words and partials of its tiles; the window closes when it is due, and the gate goes on collecting. -/
theorem collectiveCommands : Obligations.CollectiveCommands := by
  unfold Obligations.CollectiveCommands
  intro s id env k h calm upsets
  have idle : s.chip.idlePages := Chip.unarmed_hdr calm.2
  have clear : s.ctx.ecc = [] := State.calm_ecc calm
  have unstaged : s.chip.staged = [] := State.sound_unstaged h
  have number {op : Nat} (hk : s.chip.runs id op k) : k.id = id := Chip.cmd?_id hk.1
  refine ⟨fun hk => ?set, fun hk => ?free, fun hk stage => ?begin_, fun l hk begun class_ found group done plain only => ?done,
    fun pt q hk stage part resident group unheld inner unpaced held hbm ddr first whole filled distinct only => ?local_,
    fun q hk stage group => ?gather, fun hk stage => ⟨fun poisoned alone => ?poisoned, fun q group last sound alone signalled => ?take⟩,
    fun t0 sealed late collects isOpen => ⟨fun early => ?early, fun due => ?due⟩⟩
  case set =>
    obtain ⟨stages, ends, empty⟩ := groupSet_binds s.chip k
    refine (onOp_idle h hk (body := fun _ => Chip.groupSet) (by rw [ends]; exact unstaged) _).mpr ?_
    rw [ends]
    refine ⟨rfl, endCmd_settles hk.1 { k with acct := { k.acct with bytes64 := k.acct.bytes64 + 1 } } (number hk) 0 0, ?_, fun j other => ?_, empty, rfl⟩
    · exact (tabFind_tabSet _ _ _ _).trans (if_pos rfl)
    · exact (tabFind_tabSet _ _ _ _).trans (if_neg (Ne.symm other))
  case free =>
    obtain ⟨groups, stages, ends, found⟩ := groupFree_unbinds s.chip k
    refine (onOp_idle h hk (body := fun _ => Chip.groupFree) (by rw [ends]; exact unstaged) _).mpr ?_
    rw [ends]
    exact ⟨rfl, endCmd_settles hk.1 _ (number hk) 0 0, (found _).trans (if_pos rfl), fun j other => (found j).trans (if_neg other), rfl⟩
  case begin_ =>
    exact onOp_just h hk (body := Chip.launch) (if_pos stage) rfl
  case done =>
    have closes := launch_closes begun (by rwa [number hk]) done s.ctx
    obtain ⟨a, gates, sent⟩ := closeLaunches_ends (grp := l.group) hk class_ group.symm found done plain only s.ctx
    have same : (Chip.launch s.ctx s.chip k).coll.launches = tabDel s.chip.coll.launches id := closes ▸ sent.same (fun b => b.coll.launches) fun _ _ => rfl
    have settled : s.chip.settles (Chip.launch s.ctx s.chip k) id 0 0 :=
      closes ▸ sent.after_settles (endCmd_settles hk.1 { k with acct := a } (number hk) 0 0)
    refine (onOp_idle h hk (body := Chip.launch) (closes ▸ sent.staged.trans unstaged) _).mpr ?_
    refine ⟨rfl, rfl, settled, ?_⟩
    exact (congrArg (tabFind · id) same).trans ((tabFind_tabDel _ _ _).trans (if_pos rfl))
  case local_ =>
    obtain rfl := number hk
    have begins : s.chip.BeginsLaunch k q := ⟨hk, stage, ⟨pt, part, resident⟩, group, unheld, ⟨⟨pt, part, unpaced⟩, held, hbm, ddr⟩, inner, first, filled, only⟩
    obtain ⟨nf, lk, a, others, queued, inside, hubs⟩ := localPhase_first (env := env) clear calm.1 unstaged idle upsets begins
    have cmds := hubs.same Chip.cmds fun _ => rfl
    have groups : (Chip.localPhase s.ctx env s.chip k).coll.groups = _ := hubs.same (fun b => b.coll.groups) fun _ => rfl
    have launches : (Chip.localPhase s.ctx env s.chip k).coll.launches = _ := hubs.same (fun b => b.coll.launches) fun _ => rfl
    have links : (Chip.localPhase s.ctx env s.chip k).links = _ := hubs.same Chip.links fun _ => rfl
    refine (onOp_calm h calm hk (body := fun x => Chip.localPhase x env) _).mpr ?_
    refine ⟨rfl, ⟨{ k with stage := 2, acct := a }, ?_, hk.2.2, rfl⟩, ?_, ⟨k.allSent q _ (s.chip.own k) nf, ?_, rfl, first, rfl, rfl⟩, ?_, State.stores_beside h ?_ inside⟩
    · exact (Chip.cmd?_congr cmds k.id).trans (Chip.cmd?_putCmd hk.1 rfl)
    · exact (congrArg (tabFind · (k.fld 16 1)) groups).trans ((tabFind_tabSet _ _ _ _).trans (if_pos rfl))
    · exact (congrArg (tabFind · k.id) launches).trans ((tabFind_tabSet _ _ _ _).trans (if_pos rfl))
    · exact (congrArg (fun l : Links => l.out.length) links).trans queued
    · exact congrArg s.mem.commit (hubs.staged.trans (congrArg (· ++ _) unstaged))
  case gather =>
    intro a n fits lets
    obtain ⟨d, data, acct, ends, staged, cmds, ps, queued, packets⟩ := gatherSend_sends (env := env) calm.1 clear upsets group fits lets
    have sends : Chip.gather s.ctx env s.chip k = d.putCmd { k with stage := 1, data := data, acct := acct } := (if_pos stage).trans ends
    refine (onOp_idle h hk (body := fun x => Chip.gather x env) (by rw [sends]; exact staged.trans unstaged) _).mpr ?_
    rw [sends]
    refine ⟨rfl, rfl, ⟨_, Chip.cmd?_putCmd ((Chip.cmd?_congr cmds id).trans hk.1) (number hk), hk.2.2, rfl⟩, ?_, ?_⟩
    · exact (congrArg (List.take _) queued).trans (by rw [List.take_left])
    · refine Eq.trans ?_ packets
      exact congrArg (List.map _) ((congrArg (List.drop _) queued).trans (by rw [List.drop_left]))
  case poisoned =>
    have ends := gatherTake_poisoned (x := s.ctx) calm.1 stage (by rw [number hk]; exact alone) env poisoned
    refine (onOp_idle h hk (body := fun x => Chip.gatherTake x env) (by rw [ends]; exact unstaged) _).mpr ?_
    rw [ends]
    refine ⟨rfl, ⟨_, Chip.cmd?_putCmd hk.1 (number hk), rfl, rfl, rfl⟩, ?_⟩
    exact (Chip.event_putEvent _ _ _ _).trans (if_pos rfl)
  case take =>
    have ends := gatherTake_last (x := s.ctx) calm.1 stage (by rw [number hk]; exact alone) env group last sound signalled
    refine (onOp_idle h hk (body := fun x => Chip.gatherTake x env) (by rw [ends]; exact unstaged) _).mpr ?_
    rw [ends]
    refine ⟨rfl, ⟨_, Chip.cmd?_putCmd hk.1 (number hk), rfl, rfl⟩, ?_⟩
    exact (Chip.event_putEvent _ _ _ _).trans (if_pos rfl)
  case early => exact onChip_just h (f := fun x c => Chip.foldWindow x c _) (foldWindow_early sealed early s.ctx) rfl
  case due =>
    have closes := foldWindow_closes clear sealed late collects isOpen due
    refine (onChip_next (fun x c => Chip.foldWindow x c _) s _ clear).mpr ?_
    rw [State.sound_staged h]
    exact ⟨rfl, closes.window, closes.collects⟩

end Sys2Proof.Machine
end
